-- ==== Sys2Proof/Word.lean ====
section
/-!
DEFINITION. Word types and sparse tables of the AZ-6400 model.
-/

namespace Sys2Proof

/-- A register or a 32-bit memory word (19 R526). -/
abbrev Word := BitVec 32

/-- A 64-bit address register, virtual address or counter. -/
abbrev Dword := BitVec 64

abbrev Byte := BitVec 8

/-- An error or event code: 16 bits, the high byte its class (00 R20). -/
abbrev Code := BitVec 16

/-- A table with a default: pairs of key and value, keys strictly rising, no value equal to the default.
A key that is not listed reads as the default (Machine/Sparse.lean). A table of bytes is a list of `Host.Cell`. -/
abbrev Sparse (α : Type) := List (Nat × α)

end Sys2Proof
end

