-- ==== Sys2Proof/Syntax.lean ====
section
/-!
DEFINITION. The commands of the AZ-6400 and their operands. What a row of the table leaves to the environment (a
physical fault, a reading, a packet) is an operand (entry 9 of the assumption log).
-/

namespace Sys2Proof

/-- What a detection is (14 R404, R408). -/
inductive DetKind where
  /-- residue or shift parity: the step is replayed -/
  | residue
  /-- path parity: the step is replayed -/
  | pathParity
  /-- storage parity whose confirming re-read is good: the path is at fault -/
  | storageGood
  /-- storage parity, re-read bad, in 64-byte granule `granule` of the operand store; `words` are the words whose parity passed -/
  | lostGranule (granule : BitVec 16) (good : List (Fin 16))
  /-- storage parity, re-read bad, in any other storage of the core -/
  | lostOther
  deriving DecidableEq, Repr

/-- A detection that meets an instruction or a stream: what it is, whether the array, its entry edges or its accumulator ports meet it
(03 R97), and the step of the instruction that it meets (14 R406). -/
structure Detection where
  kind : DetKind
  array : Bool
  step : Nat
  deriving DecidableEq, Repr

/-- What every core instruction carries (04 R104): the core that issues it, its wait and its signal, and the
detections that meet it. -/
structure Ih where
  core : Fin 64
  wt : Option (Fin 16)
  sg : Option (Fin 16)
  det : List Detection
  deriving DecidableEq, Repr

/-- The conditions of BR (04 R107); ALWAYS names no register. -/
inductive Cond where
  | eq (rs1 rs2 : BitVec 5) | ne (rs1 rs2 : BitVec 5) | lt (rs1 rs2 : BitVec 5) | ge (rs1 rs2 : BitVec 5)
  | ltu (rs1 rs2 : BitVec 5) | geu (rs1 rs2 : BitVec 5) | always
  deriving DecidableEq, Repr

/-- VRED's reductions (04 R109, 07 R207). -/
inductive RedOp where
  | sum | max | min | argmax
  deriving DecidableEq, Repr

/-- The four units that have an issue queue (04 R99, R100). -/
inductive CUnit where
  | mxu | vec | stm | syn
  deriving DecidableEq, Repr

/-- The two paths to the register window (19 R530). A queue access that is not privileged never reaches it (13 R372). -/
inductive Path where
  | queue | service
  deriving DecidableEq, Repr

/-- Who asked for a translation (08 R233, R246). -/
inductive Requester where
  | stream (core : Fin 64) (eng : Fin 4)
  | chain (core : Fin 64)
  | fetch (core : Fin 64)
  | coll (core : Fin 64) (jobTag : Word) (collId : BitVec 12)
  | receiver (core : Fin 64)
  | host
  deriving DecidableEq, Repr

/-- Who consumes an HBM access (14 R409). -/
inductive Consumer where
  | stream (core : Fin 64) (eng : Fin 4)
  | attnFetch (core : Fin 64)
  | chain (core : Fin 64)
  | coll (jobTag : Word) (collId : BitVec 12)
  | mergedWrite (core : Fin 64)
  | walker (core : Fin 64)
  | code (qid : BitVec 12)
  | exporter (seq : Word)
  | readMem
  | owned
  deriving DecidableEq, Repr

/-- What a read of a burst brings back wrong: masks over the 32 data bytes and the 16 code bits (08 R221). -/
structure ReadFault where
  data : BitVec 256
  code : BitVec 16
  deriving DecidableEq, Repr

/-- Cache hints (08 R226). -/
inductive Hint where
  | normal | stream | noAllocate
  deriving DecidableEq, Repr

/-- A word of a takeover copy that failed its parity twice (14 R413). -/
inductive CopyFault where
  | granule (g : BitVec 16) (good : List (Fin 16))
  | other
  /-- a detection in the spare itself (14 R421) -/
  | spare
  deriving DecidableEq, Repr

inductive Axis where
  | x | y | z
  deriving DecidableEq, Repr

/-- A member's entry of a count phase (12 R347). -/
structure CEntry where
  member : BitVec 12
  op : BitVec 3
  rop : BitVec 2
  fmt : BitVec 4
  ragged : Bool
  root : BitVec 12
  origin : BitVec 12
  sides : BitVec 12
  tag : Word
  count : Word
  /-- its collective runs again after a link loss (12 R366) -/
  again : Bool := false
  deriving DecidableEq, Repr

/-- An abort (12 R361): its code and culprit, the member that sends it, and the group that it spreads in. -/
structure CAbort where
  code : Code
  culprit : BitVec 12
  sender : BitVec 12
  origin : BitVec 12
  sides : BitVec 12
  deriving DecidableEq, Repr

/-- What a collective's control flits carry (12 R347, R360, R361, 01 R25): an entry, an abort, the end of the chain of waits that starts at
a member, a start beat. -/
inductive CollCtl where
  | entry (e : CEntry)
  | abort (a : CAbort)
  | waits (member last : BitVec 12)
  | start (s : Dword)
  deriving DecidableEq, Repr

/-- A link, named by one end: device and port (11 R331). -/
structure LinkId where
  dev : BitVec 12
  port : Fin 6
  deriving DecidableEq, Repr

/-- LINK symbols flood the live-link map (11 R317, R324, R331, R334): the loss of a link; a link that has retrained and is in standby, or
has entered service; a device that has drained; the live devices with the links that are lost and those that never trained. -/
inductive LinkMsg where
  | loss (l : LinkId)
  | standby (l : LinkId)
  | service (l : LinkId)
  | left (id : BitVec 12)
  | live (ids : List (BitVec 12)) (dead untrained : List LinkId)
  deriving DecidableEq, Repr

/-- A BEAT symbol (11 R324): the boundary and the sender's countdown, with the handover flag (R323), the marked losses (R331), and the
holder and length, in 10 ns, of the stretch that it ends (R328). -/
structure BeatSym where
  k : Dword
  remaining : Nat
  handover : Option (BitVec 12) := none
  loss : List LinkId := []
  stretch : Option (BitVec 12 × Nat) := none
  deriving DecidableEq, Repr

/-- What a NAK asks for: a flit (11 R314), or a BEAT or STRETCH of which both copies failed (11 R324). -/
inductive Nak where
  | flit (seq : BitVec 12)
  | beat
  deriving DecidableEq, Repr

/-- What training found at a port (11 R312, 18 R524). -/
inductive TrainResult where
  | noLink
  | linked (shape : BitVec 12) (coord : BitVec 12) (delta : BitVec 16)
  deriving DecidableEq, Repr

/-- One 10 us interval as the power controller sees it (16 R465, R469, R481): raw estimates in W per set, the fixed part,
the calibrated device estimate each set would give if raised, busy cycles by queue and set, activity per set in
thousandths of cycles, and the raw power of each set's test slot. -/
structure PowerSample where
  raw : List Nat
  fixed : Nat
  raised : List Nat
  busy : List (BitVec 12 × Fin 8 × Nat)
  activity : List Nat
  slot : List Nat
  deriving DecidableEq, Repr

inductive ThermalSensor where
  | set (s : Fin 8) | hbm (stack : Fin 4)
  deriving DecidableEq, Repr

/-- The header of a CQT packet (13 R371), with its reserved bits, and the addresses and ports of its packet (13 R370, R379); the
destination is of the same IP version as the source. -/
structure Hdr where
  qid : BitVec 12
  version : BitVec 4
  /-- the reserved bits of W0, W5 and W7 -/
  res0 : BitVec 12
  res5 : BitVec 16
  res7 : Word
  /-- message bytes that follow the header, W5 [31:16] -/
  length : BitVec 16
  psn : Word
  ackPsn : Word
  sack : Word
  credLimit : Word
  cookie : Word
  srcIpv6 : Bool
  srcAddr : BitVec 128
  srcPort : BitVec 16
  dstAddr : BitVec 128
  dstPort : BitVec 16
  deriving DecidableEq, Repr

/-- The verdicts of the two signature algorithms on an image: the keys are fused and not in the spec (17 R489, R491). -/
structure SigVerdict where
  ecdsa : Bool
  lms : Bool
  deriving DecidableEq, Repr

inductive DropKind where
  | badFcs | badChecksum | other | tagged | pause
  deriving DecidableEq, Repr

/-- The two SPDM connections (17 R502). -/
inductive Conn where
  | service | mailbox
  deriving DecidableEq, Repr

/-- SPDM errors that the spec names or its standard implies (17 R502, R505). -/
inductive SpdmErr where
  | invalidRequest | busy | unexpectedRequest | unsupportedRequest
  deriving DecidableEq, Repr

/-- SPDM responses (17 R502); their encoding is the standard's (entry 14). A measurement is its index and its bytes. -/
inductive SpdmRsp where
  | version
  | capabilities
  | algorithms
  | digests (digest : List Byte)
  | certificate (portion : List Byte) (remainder : Nat)
  | challengeAuth (chain : List Byte) (nonce : List Byte) (signature : List Byte)
  | measurements (count : Nat) (blocks : List (Nat × List Byte)) (signature : Option (List Byte))
  | error (e : SpdmErr)
  deriving DecidableEq, Repr

/-- Signature verdicts on the four stage images and the stored test pack, and whether the ROM can write the flash (17 R494, R495, R498). -/
structure BootVerdicts where
  s1a : SigVerdict
  s1b : SigVerdict
  s2a : SigVerdict
  s2b : SigVerdict
  pack : SigVerdict
  flashWritable : Bool
  deriving DecidableEq, Repr

/-- What stage 2 meets (17 R495, R498). -/
structure BootWork where
  selfTest : Bool
  areasReadable : Bool
  hbmTrained : Bool
  flashWritable : Bool
  deriving DecidableEq, Repr

/-- Where a test runs: a set's slot, or the port engines (15 R439, R452). -/
inductive TestSite where
  | slot (set : Fin 8) | ports
  deriving DecidableEq, Repr

/-- How the run of one case ends (15 R440, R441): it reaches END and leaves these output bytes; a check of the core
detects; or the test area's memory does. -/
inductive CaseOutcome where
  | ended (bytes : List Byte)
  | detection
  | hbmDetect (granule : BitVec 25)
  deriving DecidableEq, Repr


/-- The commands of spec/opcode_table.json, one constructor a row, in the table's order. -/
inductive Instr where
  /-- NOP (R106) -/
  | nop (h : Ih)
  /-- ADD (R106) -/
  | add (h : Ih) (rd rs1 rs2 : BitVec 5)
  /-- SUB (R106) -/
  | sub (h : Ih) (rd rs1 rs2 : BitVec 5)
  /-- MUL (R106) -/
  | mul (h : Ih) (rd rs1 rs2 : BitVec 5)
  /-- AND (R106) -/
  | and (h : Ih) (rd rs1 rs2 : BitVec 5)
  /-- OR (R106) -/
  | or (h : Ih) (rd rs1 rs2 : BitVec 5)
  /-- XOR (R106) -/
  | xor (h : Ih) (rd rs1 rs2 : BitVec 5)
  /-- SHL (R106) -/
  | shl (h : Ih) (rd rs1 rs2 : BitVec 5)
  /-- SHR (R106) -/
  | shr (h : Ih) (rd rs1 rs2 : BitVec 5)
  /-- SRA (R106) -/
  | sra (h : Ih) (rd rs1 rs2 : BitVec 5)
  /-- MIN (R106) -/
  | min (h : Ih) (rd rs1 rs2 : BitVec 5)
  /-- MINU (R106) -/
  | minu (h : Ih) (rd rs1 rs2 : BitVec 5)
  /-- MAX (R106) -/
  | max (h : Ih) (rd rs1 rs2 : BitVec 5)
  /-- MAXU (R106) -/
  | maxu (h : Ih) (rd rs1 rs2 : BitVec 5)
  /-- SLT (R106) -/
  | slt (h : Ih) (rd rs1 rs2 : BitVec 5)
  /-- SLTU (R106) -/
  | sltu (h : Ih) (rd rs1 rs2 : BitVec 5)
  /-- ADDI (R106) -/
  | addi (h : Ih) (rd rs1 : BitVec 5) (imm : Word)
  /-- MULI (R106) -/
  | muli (h : Ih) (rd rs1 : BitVec 5) (imm : Word)
  /-- ANDI (R106) -/
  | andi (h : Ih) (rd rs1 : BitVec 5) (imm : Word)
  /-- ORI (R106) -/
  | ori (h : Ih) (rd rs1 : BitVec 5) (imm : Word)
  /-- ADDA (R106) -/
  | adda (h : Ih) (ad asrc : BitVec 4) (rs : BitVec 5) (imm : Word)
  /-- ADDAH (R106) -/
  | addah (h : Ih) (ad asrc : BitVec 4) (rs : BitVec 5) (imm : Word)
  /-- MOVSA (R106) -/
  | movsa (h : Ih) (rd : BitVec 5) (asrc : BitVec 4) (hi : Bool)
  /-- LDO (R108) -/
  | ldo (h : Ih) (rd rs1 : BitVec 5) (imm : Word)
  /-- STO (R108) -/
  | sto (h : Ih) (rd rs1 : BitVec 5) (imm : Word)
  /-- DLD (R108) -/
  | dld (h : Ih) (rd rs1 : BitVec 5) (imm : Word)
  /-- DST (R124) -/
  | dst (h : Ih) (rd rs1 : BitVec 5) (imm : Word)
  /-- DBIND (R122) -/
  | dbind (h : Ih) (rd rs1 : BitVec 5) (imm : Word)
  /-- BR (R107) -/
  | br (h : Ih) (cond : Cond) (off : BitVec 24)
  /-- RDFLG (R210) -/
  | rdflg (h : Ih) (rd : BitVec 5) (clear : Bool)
  /-- END (R110) -/
  | endProgram (h : Ih)
  /-- MMA (R125) -/
  | mma (h : Ih) (dslot sProb sM sN sK : BitVec 5) (imm : BitVec 16)
  /-- ATTN (R256) -/
  | attn (h : Ih) (dslot sProb sM sN sK : BitVec 5) (imm : BitVec 16)
  /-- EPI (R181) -/
  | epi (h : Ih) (dslot sOff : BitVec 5) (accBase accTiles : BitVec 3)
  /-- ACCINIT (R109) -/
  | accinit (h : Ih) (mask : BitVec 8) (i32 : Bool)
  /-- VPROG (R204) -/
  | vprog (h : Ih) (td ta tb : BitVec 6) (tp : Option (BitVec 6)) (dslot : BitVec 5)
  /-- VRED (R207) -/
  | vred (h : Ih) (td ta : BitVec 6) (rop : RedOp) (axis : Bool)
  /-- VLD (R199) -/
  | vld (h : Ih) (tv : BitVec 6) (fmt : BitVec 4) (uns : Bool) (rs : BitVec 5) (imm : BitVec 16)
  /-- VST (R199) -/
  | vst (h : Ih) (tv : BitVec 6) (fmt : BitVec 4) (uns : Bool) (rs : BitVec 5) (imm : BitVec 16)
  /-- VCVT (R111) -/
  | vcvt (h : Ih) (ta : BitVec 6) (sCvt rs : BitVec 5) (imm : BitVec 16)
  /-- VACCR (R199) -/
  | vaccr (h : Ih) (tv : BitVec 6) (tile : BitVec 3) (rblk cblk : BitVec 2)
  /-- VACCW (R199) -/
  | vaccw (h : Ih) (tv : BitVec 6) (tile : BitVec 3) (rblk cblk : BitVec 2)
  /-- VMOV (R199) -/
  | vmov (h : Ih) (td ta : BitVec 6)
  /-- VFILL (R199) -/
  | vfill (h : Ih) (td : BitVec 6) (rs : BitVec 5)
  /-- SARM (R241) -/
  | sarm (h : Ih) (dslot : BitVec 5) (eng : Fin 4)
  /-- SEXP (R397) -/
  | sexp (h : Ih) (dslot : BitVec 5)
  /-- TSIG (R112) -/
  | tsig (h : Ih) (k : Fin 16) (n : BitVec 16)
  /-- TWAIT (R112) -/
  | twait (h : Ih) (k : Fin 16) (n : BitVec 16)
  /-- WAITBEAT (R117) -/
  | waitbeat (h : Ih) (rs : BitVec 5) (imm : Word)
  /-- BEATMARK (R118) -/
  | beatmark (h : Ih) (rs : BitVec 5) (imm : Word)
  /-- COLL (R345) -/
  | coll (h : Ih) (dslot : BitVec 5)
  /-- LBAR (R120) -/
  | lbar (h : Ih)
  /-- UNIT_INSTRUCTION_BEGIN (R112) -/
  | unitInstructionBegin (core : Fin 64) (unit : CUnit) (det : List Detection)
  /-- INSTRUCTION_COMPLETE (R113) -/
  | instructionComplete (core : Fin 64) (serial : Nat)
  /-- WAIT_LIMIT_EXPIRY (R115) -/
  | waitLimitExpiry (core : Fin 64) (unit : CUnit)
  /-- BEAT_RANGE_EXPIRY (R116) -/
  | beatRangeExpiry
  /-- EXPORT_PAGE_SEND (R398) -/
  | exportPageSend (lqpn : BitVec 24)
  /-- STREAM_START (R240) -/
  | streamStart (core : Fin 64) (eng : Fin 4) (det : List Detection)
  /-- REMOTE_STREAM_START (R248) -/
  | remoteStreamStart (core : Fin 64) (eng : Fin 4)
  /-- STREAM_DONE (R245) -/
  | streamDone (core : Fin 64) (eng : Fin 4) (acked : Nat) (det : List Detection)
  /-- REMOTE_STREAM_ARRIVAL (R245) -/
  | remoteStreamArrival (src : BitVec 12) (core : Fin 64) (toMem : Bool) (jobTag : Word) (addr : Dword) (bytes : List Byte) (last : Bool) (sig : Option (Fin 16))
  /-- TABLE_WALK_COMPLETE (R233) -/
  | tableWalkComplete (who : Requester) (ctx : BitVec 8) (va : Dword) (write : Bool)
  /-- HBM_READ (R221) -/
  | hbmRead (burst : BitVec 32) (who : Consumer) (va : Dword) (first second : ReadFault)
  /-- HBM_WRITE (R220) -/
  | hbmWrite (pa : BitVec 37) (bytes : List Byte) (who : Consumer) (va : Dword)
  /-- GRANULE_RETIRE_COMPLETE (R222) -/
  | granuleRetireComplete (granule : BitVec 25) (bad : List (BitVec 7))
  /-- CACHE_ACCESS (R225) -/
  | cacheAccess (pa : BitVec 37) (write full : Bool) (hint : Hint) (parity : Option (List (BitVec 2))) (who : Consumer)
  /-- CACHE_WAY_HANDOVER (R228) -/
  | cacheWayHandover (slice : Fin 8) (way : Fin 16)
  /-- TAKEOVER_COPY_COMPLETE (R413) -/
  | takeoverCopyComplete (set : Fin 8) (bad : List CopyFault)
  /-- SHADOW_COMPARE (R423) -/
  | shadowCompare (core : Fin 64) (index : Nat) (shadow arbiter : BitVec 64)
  /-- LAUNCH (R383) -/
  | launch (h : Hdr) (body : List Word)
  /-- LAUNCH_ACCEPT (R383) -/
  | launchAccept (qid : BitVec 12)
  /-- LAUNCH_RESIDENT (R135) -/
  | launchResident
  /-- LAUNCH_SAVE_COMPLETE (R135) -/
  | launchSaveComplete
  /-- LAUNCH_RESTORE_COMPLETE (R135) -/
  | launchRestoreComplete
  /-- LAUNCH_BARRIER_COMPLETE (R25) -/
  | launchBarrierComplete (start : Dword)
  /-- LAUNCH_BARRIER_TIMEOUT (R25) -/
  | launchBarrierTimeout
  /-- LAUNCH_START (R25) -/
  | launchStart
  /-- COUNT_PHASE_ENTRY (R347) -/
  | countPhaseEntry (port : Fin 6) (jobTag : Word) (collId : BitVec 12) (e : CEntry) (det : List Bool)
  /-- COLL_CHUNK_ARRIVAL (R357) -/
  | collChunkArrival (port : Fin 6) (jobTag : Word) (collId : BitVec 12) (axis : Axis) (result : Bool) (chunk : BitVec 24) (data : List Byte) (det : List Bool)
  /-- COLL_COMPLETE (R355) -/
  | collComplete (jobTag : Word) (collId : BitVec 12)
  /-- COLL_DEADLINE_EXPIRY (R360) -/
  | collDeadlineExpiry (jobTag : Word) (collId : BitVec 12)
  /-- COLL_ABORT_RECEIVE (R361) -/
  | collAbortReceive (port : Fin 6) (jobTag : Word) (collId : BitVec 12) (a : CAbort)
  /-- FLIT_RECEIVE (R314) -/
  | flitReceive (port : Fin 6) (bytes : List Byte)
  /-- LINK_ACK (R314) -/
  | linkAck (port : Fin 6) (seq : BitVec 12) (det : List Bool)
  /-- LINK_NAK (R314) -/
  | linkNak (port : Fin 6) (n : Nak) (remaining : Nat)
  /-- BEAT (R324) -/
  | beat (port : Fin 6) (b : Option BeatSym)
  /-- STRETCH (R328) -/
  | stretch (port : Fin 6) (k : Dword) (holder : BitVec 12) (elapsed : Nat)
  /-- HOLD (R326) -/
  | hold (port : Fin 6) (on : Bool) (holder : BitVec 12)
  /-- LIMIT (R329) -/
  | limit (port : Fin 6) (k : Dword)
  /-- ELECT (R323) -/
  | elect (port : Fin 6) (id : BitVec 12) (boundary : Dword)
  /-- LINK (R331) -/
  | link (port : Fin 6) (m : LinkMsg)
  /-- LANE (R315) -/
  | lane (port : Fin 6) (lane : Fin 9) (seq : BitVec 12)
  /-- MGMT (R317) -/
  | mgmt (port : Fin 6) (src dst : BitVec 12) (index total : BitVec 4) (bytes : List Byte)
  /-- LANE_FAIL (R315) -/
  | laneFail (port : Fin 6) (lanes : List (Fin 9)) (lockLost : Bool)
  /-- CONTROL_SYMBOL_TIMEOUT (R316) -/
  | controlSymbolTimeout (port : Fin 6)
  /-- FABRIC_TRAINING_COMPLETE (R312) -/
  | fabricTrainingComplete (results : List TrainResult)
  /-- DELAY_REMEASURE (R324) -/
  | delayRemeasure (port : Fin 6) (delta : BitVec 16)
  /-- CHECK_POINT (R326) -/
  | checkPoint
  /-- BEAT_ANNOUNCE (R326) -/
  | beatAnnounce (stretch : Nat)
  /-- BEAT_BOUNDARY (R326) -/
  | beatBoundary (skew : Nat) (heldFor : Nat)
  /-- STRETCH_SEND (R328) -/
  | stretchSend (elapsed : Nat)
  /-- HOLD_LIMIT_EXPIRY (R329) -/
  | holdLimitExpiry (elapsed : Nat)
  /-- ELECTION_TIMEOUT (R323) -/
  | electionTimeout
  /-- ELECTION_END (R323) -/
  | electionEnd
  /-- LEADER_HANDOVER (R323) -/
  | leaderHandover (dest : BitVec 12)
  /-- POWER_TICK (R469) -/
  | powerTick (t : PowerSample)
  /-- CAP_FLOOR (R470) -/
  | capFloor
  /-- MEASUREMENT_WINDOW (R466) -/
  | measurementWindow (m : Option (Nat × Nat))
  /-- VOLTAGE_SETTLED (R463) -/
  | voltageSettled (set : Fin 8)
  /-- DROOP_DETECT (R464) -/
  | droopDetect (set : Fin 8)
  /-- DROOP_RELEASE (R464) -/
  | droopRelease (set : Fin 8)
  /-- THERMAL_CEILING_STEP (R472) -/
  | thermalCeilingStep (tenth : Bool) (tj hbm : List Nat)
  /-- THERMAL_TRIP (R472) -/
  | thermalTrip (sensor : ThermalSensor) (reading : Nat)
  /-- THERMAL_TRIP_RELEASE (R472) -/
  | thermalTripRelease (sensor : ThermalSensor) (reading : Nat)
  /-- GROUP_REPORT (R474) -/
  | groupReport
  /-- GROUP_ALLOCATE (R475) -/
  | groupAllocate
  /-- ALLOCATION_RECEIVE (R474) -/
  | allocationReceive (alloc : BitVec 16)
  /-- ALLOCATION_FALLBACK (R476) -/
  | allocationFallback
  /-- INPUT_CHARGE (R478) -/
  | inputCharge
  /-- INPUT_CHARGE_COMPLETE (R478) -/
  | inputChargeComplete
  /-- INPUT_OVERCURRENT (R480) -/
  | inputOvercurrent
  /-- INPUT_REVERSE_CURRENT (R480) -/
  | inputReverseCurrent
  /-- INPUT_OVERVOLTAGE (R480) -/
  | inputOvervoltage
  /-- INPUT_UNDERVOLTAGE (R480) -/
  | inputUndervoltage
  /-- INPUT_ABSENT_RELEASE (R480) -/
  | inputAbsentRelease
  /-- SUBMIT (R380) -/
  | submit (h : Hdr) (w0 : Word) (body : List Word) (sig : SigVerdict)
  /-- LOAD_PROGRAM (R382) -/
  | loadProgram (h : Hdr) (body : List Word) (sig : SigVerdict)
  /-- LOAD_SCHEDULE_IMAGE (R318) -/
  | loadScheduleImage (h : Hdr) (body : List Word) (sig : SigVerdict)
  /-- LOAD_TEST_PACK (R437) -/
  | loadTestPack (h : Hdr) (body : List Word) (sig : SigVerdict)
  /-- FENCE (R385) -/
  | fence (h : Hdr) (body : List Word)
  /-- PREFIX_LOOKUP (R305) -/
  | prefixLookup (h : Hdr) (body : List Word)
  /-- EXPORT_OPEN (R396) -/
  | exportOpen (h : Hdr) (body : List Word)
  /-- EXPORT_CLOSE (R400) -/
  | exportClose (h : Hdr) (body : List Word)
  /-- EXPORT_CLOSE_COMPLETE (R400) -/
  | exportCloseComplete (seq : Word)
  /-- TEST_REQUEST_TEST (R448) -/
  | testRequestTest (h : Hdr) (body : List Word)
  /-- TEST_REQUEST_REJOIN (R451) -/
  | testRequestRejoin (h : Hdr) (body : List Word)
  /-- TEST_REQUEST_PORT (R452) -/
  | testRequestPort (h : Hdr) (body : List Word)
  /-- DIGEST (R456); `slip` is the digest that the first hash gives, where a fault that no check reports, or a write meanwhile, changes it (R454) -/
  | digest (h : Hdr) (body : List Word) (slip : Option (BitVec 128))
  /-- QUEUE_CTL_SET (R381) -/
  | queueCtlSet (h : Hdr) (body : List Word)
  /-- QUEUE_CTL_RESUME (R381) -/
  | queueCtlResume (h : Hdr) (body : List Word)
  /-- QUEUE_CTL_END (R381) -/
  | queueCtlEnd (h : Hdr) (body : List Word)
  /-- QUEUE_CTL_CLEAR (R381) -/
  | queueCtlClear (h : Hdr) (body : List Word)
  /-- WRITE_MEM (R386) -/
  | writeMem (h : Hdr) (body : List Word) (bytes : List Byte)
  /-- READ_MEM (R386) -/
  | readMem (h : Hdr) (body : List Word)
  /-- REG_READ (R386) -/
  | regRead (h : Hdr) (body : List Word)
  /-- REG_WRITE (R533) -/
  | regWrite (h : Hdr) (body : List Word)
  /-- ACK (R374) -/
  | ack (h : Hdr)
  /-- CQT_ACK_TIMER (R374) -/
  | cqtAckTimer (qid : BitVec 12)
  /-- CQT_RETRY_TIMEOUT (R374) -/
  | cqtRetryTimeout (qid : BitVec 12) (psn : Word)
  /-- ARP_REQUEST (R370) -/
  | arpRequest (target sender : BitVec 32) (senderMac : BitVec 48)
  /-- NEIGHBOR_SOLICITATION (R370) -/
  | neighborSolicitation (target sender : BitVec 128) (senderMac : BitVec 48)
  /-- UNSUPPORTED_PACKET (R370) -/
  | unsupportedPacket (kind : DropKind)
  /-- ROCE_ACK (R399) -/
  | roceAck (lqpn psn : BitVec 24)
  /-- ROCE_NAK_SEQUENCE (R395) -/
  | roceNakSequence (lqpn psn : BitVec 24)
  /-- ROCE_NAK_RNR (R395) -/
  | roceNakRnr (lqpn psn : BitVec 24) (timer : Nat)
  /-- ROCE_NAK_REMOTE_ERROR (R399) -/
  | roceNakRemoteError (lqpn : BitVec 24)
  /-- CNP (R395) -/
  | cnp (lqpn : BitVec 24)
  /-- ROCE_RETRY_TIMEOUT (R395) -/
  | roceRetryTimeout (lqpn : BitVec 24)
  /-- RNR_TIMER_EXPIRY (R395) -/
  | rnrTimerExpiry (lqpn : BitVec 24)
  /-- RATE_INCREASE (R395) -/
  | rateIncrease (lqpn : BitVec 24)
  /-- XLT_CTX_KVBASE_WRITE (R230) -/
  | xltCtxKvbaseWrite (p : Path) (v : Word)
  /-- XLT_CTX_KVLSH_WRITE (R310) -/
  | xltCtxKvlshWrite (p : Path) (v : Word)
  /-- XLT_INV (R237) -/
  | xltInv (p : Path) (v : Word)
  /-- XLT_INV_COMPLETE (R237) -/
  | xltInvComplete
  /-- XLT_KVP_ENABLE (R288) -/
  | xltKvpEnable (p : Path) (v : Word)
  /-- XLT_KVP_DISABLE (R288) -/
  | xltKvpDisable (p : Path) (v : Word)
  /-- POOL_INIT_COMPLETE (R288) -/
  | poolInitComplete (pool : Fin 5)
  /-- XLT_PFX_CFG_WRITE (R310) -/
  | xltPfxCfgWrite (p : Path) (v : Word)
  /-- DROP (R295) -/
  | drop (p : Path) (v : Word)
  /-- RELEASE (R295) -/
  | release (p : Path) (v : Word)
  /-- XLT_KVOP_COMPLETE (R295) -/
  | xltKvopComplete
  /-- STM_CREDIT_WRITE (R244) -/
  | stmCreditWrite (p : Path) (v : Word)
  /-- COL_CTL_WRITE (R369) -/
  | colCtlWrite (p : Path) (v : Word)
  /-- ERR_CTL_WRITE (R432) -/
  | errCtlWrite (p : Path) (v : Word)
  /-- ERR_RING_RETIRE (R419) -/
  | errRingRetire (p : Path) (v : Word)
  /-- ERR_DRAIN_REQ (R433) -/
  | errDrainReq (p : Path) (v : Word)
  /-- FAB_CTL_RETRAIN (R312) -/
  | fabCtlRetrain (p : Path) (v : Word)
  /-- BEAT_CNT_LO_READ (R340) -/
  | beatCntLoRead (p : Path)
  /-- PWR_ENERGY_LO_READ (R485) -/
  | pwrEnergyLoRead (p : Path) (total : Bool)
  /-- PWR_CAP_WRITE (R486) -/
  | pwrCapWrite (p : Path) (v : Word)
  /-- PWR_GROUP_WRITE (R473) -/
  | pwrGroupWrite (p : Path) (budget : Bool) (v : Word)
  /-- PWR_SLEW_WRITE (R485) -/
  | pwrSlewWrite (p : Path) (v : Word)
  /-- QCE_EP_DATA7_COMMIT (R403) -/
  | qceEpData7Commit (p : Path) (v : Word)
  /-- TST_CTL_WRITE (R460) -/
  | tstCtlWrite (p : Path) (swap : Bool) (v : Word)
  /-- CFG_DONE (R496) -/
  | cfgDone (p : Path) (v : Word)
  /-- CLEAR_DRAIN (R508) -/
  | clearDrain (p : Path) (v : Word)
  /-- SEC_SPDM_CTL_GO (R503) -/
  | secSpdmCtlGo (p : Path) (v : Word)
  /-- SPDM_MAILBOX_COMPLETE (R503) -/
  | spdmMailboxComplete
  /-- SVC_REGISTER_READ (R507) -/
  | svcRegisterRead (req : List Byte)
  /-- SVC_REGISTER_WRITE (R507) -/
  | svcRegisterWrite (req : List Byte)
  /-- GET_VERSION (R502) -/
  | getVersion (c : Conn)
  /-- GET_CAPABILITIES (R502) -/
  | getCapabilities (c : Conn)
  /-- NEGOTIATE_ALGORITHMS (R502) -/
  | negotiateAlgorithms (c : Conn) (p384 sha384 : Bool)
  /-- GET_DIGESTS (R502) -/
  | getDigests (c : Conn)
  /-- GET_CERTIFICATE (R502) -/
  | getCertificate (c : Conn) (slot : BitVec 4) (off len : BitVec 16)
  /-- CHALLENGE (R502) -/
  | challenge (c : Conn) (slot : BitVec 8) (nonce : List Byte)
  /-- GET_MEASUREMENTS (R502) -/
  | getMeasurements (c : Conn) (index : BitVec 8) (signed : Bool) (nonce : List Byte)
  /-- SET_ENDPOINT_ID (R504) -/
  | setEndpointId (eid : BitVec 8)
  /-- GET_SENSOR_READING (R506) -/
  | getSensorReading (sensor : BitVec 16)
  /-- GET_STATE_SENSOR_READINGS (R506) -/
  | getStateSensorReadings (sensor : BitVec 16)
  /-- GET_PDR (R506) -/
  | getPdr (handle : Word)
  /-- QUERY_DEVICE_IDENTIFIERS (R509) -/
  | queryDeviceIdentifiers
  /-- GET_FIRMWARE_PARAMETERS (R509) -/
  | getFirmwareParameters
  /-- REQUEST_UPDATE (R509) -/
  | requestUpdate
  /-- PASS_COMPONENT_TABLE (R509) -/
  | passComponentTable (components : List (BitVec 16))
  /-- UPDATE_COMPONENT (R510) -/
  | updateComponent (component : BitVec 16) (size : Word)
  /-- FIRMWARE_DATA_RECEIVE (R510) -/
  | firmwareDataReceive (bytes : List Byte) (inB inA : SigVerdict)
  /-- ACTIVATE_FIRMWARE (R510) -/
  | activateFirmware
  /-- GET_STATUS (R509) -/
  | getStatus
  /-- CANCEL_UPDATE (R511) -/
  | cancelUpdate
  /-- BOOT_ROM (R494) -/
  | bootRom (v : BootVerdicts)
  /-- BOOT_STAGE2 (R495) -/
  | bootStage2 (v : BootVerdicts) (w : BootWork)
  /-- BOOT_READY (R497) -/
  | bootReady (tReady : BitVec 16)
  /-- HOST_PORT_RETRY (R497) -/
  | hostPortRetry (trained : Bool)
  /-- ROTATION_DUE (R442) -/
  | rotationDue (set : Fin 8)
  /-- TEST_CASE_RUN (R440) -/
  | testCaseRun (site : TestSite) (outcome : CaseOutcome)
  /-- TEST_CASE_LIMIT (R441) -/
  | testCaseLimit (site : TestSite)
  /-- TEST_END (R441) -/
  | testEnd (site : TestSite)
  /-- XLT_CTX_ROOT_WRITE (R230) -/
  | xltCtxRootWrite (p : Path) (v : Word)
  /-- CQT_RESERVED_TYPE (R372) -/
  | cqtReservedType (h : Hdr) (type : BitVec 4)
  /-- SVC_3V3_LOSS (R525) -/
  | svc3v3Loss
  /-- SVC_3V3_RETURN (R505) -/
  | svc3v3Return
  /-- CONTROL_SYMBOL_SEND (R316) -/
  | controlSymbolSend (port : Fin 6)
  /-- OPERATING_SECOND (R415) -/
  | operatingSecond (flashOk : Bool)
  /-- DYNAMIC_ADDRESS_ASSIGNMENT (R504) -/
  | dynamicAddressAssignment (addr : BitVec 7)
  deriving DecidableEq, Repr

end Sys2Proof
end

