-- ==== Sys2Proof/Decode.lean ====
section
/-!
DEFINITION. The command a table word spells: spec/opcode_table.json gives no row any bits, so no word spells one.
-/

namespace Sys2Proof

def decodeTableWord (_nbits _w : Nat) : Option Instr := none

end Sys2Proof
end

