-- ==== Sys2Proof/Machine/Codes.lean ====
section
/-!
DEFINITION. Error and event codes: the high byte is the class (00 R20).
-/

namespace Sys2Proof.Machine

/-- Not a code of the spec: the request is held until a retirement is done (08 R222). It reaches no message and no record. -/
def heldCode : Code := 0xFFFF
/-- E_NAN_TRAP -/
def eNanTrap : Code := 0x0101
/-- E_FMT_RESERVED -/
def eFmtReserved : Code := 0x0102
/-- E_FMT_MISMATCH -/
def eFmtMismatch : Code := 0x0103
/-- E_CVT_FIELD -/
def eCvtField : Code := 0x0104
/-- E_CLIP_BOUND -/
def eClipBound : Code := 0x0105
/-- E_FMT_ILLEGAL -/
def eFmtIllegal : Code := 0x0106
/-- E_ACC_TYPE -/
def eAccType : Code := 0x0107
/-- E_TILE_TYPE -/
def eTileType : Code := 0x0108
/-- E_SHAPE_OVER -/
def eShapeOver : Code := 0x0201
/-- E_ACC_CAPACITY -/
def eAccCapacity : Code := 0x0202
/-- E_ROW_SCALE_SPAN -/
def eRowScaleSpan : Code := 0x0203
/-- E_MANIFEST -/
def eManifest : Code := 0x0204
/-- E_ACC_MODE -/
def eAccMode : Code := 0x0205
/-- E_OPCODE -/
def eOpcode : Code := 0x0206
/-- E_DESC -/
def eDesc : Code := 0x0207
/-- E_TOKEN_USE -/
def eTokenUse : Code := 0x0208
/-- E_PROBLEM_RANGE -/
def eProblemRange : Code := 0x0209
/-- E_LOCAL_BOUND -/
def eLocalBound : Code := 0x020A
/-- E_TOKEN_OVER -/
def eTokenOver : Code := 0x020B
/-- E_BLOCK_SCALE_SPAN -/
def eBlockScaleSpan : Code := 0x020C
/-- E_CHAIN_OVERLAP -/
def eChainOverlap : Code := 0x020D
/-- E_ATTN_SHAPE -/
def eAttnShape : Code := 0x020E
/-- E_SEQ_LIST -/
def eSeqList : Code := 0x020F
/-- E_XLT_FAULT -/
def eXltFault : Code := 0x0301
/-- E_HBM_DETECT -/
def eHbmDetect : Code := 0x0302
/-- E_REARM_ACTIVE -/
def eRearmActive : Code := 0x0303
/-- E_HBM_SPARE_EXHAUST -/
def eHbmSpareExhaust : Code := 0x0304
/-- E_STM_OVERLAP -/
def eStmOverlap : Code := 0x0305
/-- E_KV_NO_PAGE -/
def eKvNoPage : Code := 0x0401
/-- E_PAGE_ABSENT -/
def ePageAbsent : Code := 0x0402
/-- EV_EXPORT_DROPPED -/
def evExportDropped : Code := 0x0403
/-- E_KV_UNFILLED -/
def eKvUnfilled : Code := 0x0404
/-- E_KV_LAYOUT -/
def eKvLayout : Code := 0x0405
/-- E_PFX_REQUEST -/
def ePfxRequest : Code := 0x0406
/-- E_EXPORT_OPEN -/
def eExportOpen : Code := 0x0407
/-- E_LINK_DOWN -/
def eLinkDown : Code := 0x0501
/-- E_BEAT_HOLD_LIMIT -/
def eBeatHoldLimit : Code := 0x0502
/-- E_COLL_MISMATCH -/
def eCollMismatch : Code := 0x0503
/-- E_COLL_TIMEOUT -/
def eCollTimeout : Code := 0x0504
/-- E_COLL_SHORT_BUFFER -/
def eCollShortBuffer : Code := 0x0505
/-- E_BEAT_ORDER -/
def eBeatOrder : Code := 0x0506
/-- E_WAIT_LIMIT -/
def eWaitLimit : Code := 0x0507
/-- E_FAB_WIRING -/
def eFabWiring : Code := 0x0508
/-- EV_LANE_SPARED -/
def evLaneSpared : Code := 0x0509
/-- E_SLOT -/
def eSlot : Code := 0x050A
/-- E_SCHED_IMAGE -/
def eSchedImage : Code := 0x050B
/-- E_SCHED_EPOCH -/
def eSchedEpoch : Code := 0x050C
/-- E_COLL_PEER -/
def eCollPeer : Code := 0x050D
/-- E_COLL_BUSY -/
def eCollBusy : Code := 0x050E
/-- E_COLL_OVERLAP -/
def eCollOverlap : Code := 0x050F
/-- E_BEAT_RANGE -/
def eBeatRange : Code := 0x0510
/-- E_QUEUE_OVERRUN -/
def eQueueOverrun : Code := 0x0601
/-- E_PRIV -/
def ePriv : Code := 0x0602
/-- E_CQT_MSG -/
def eCqtMsg : Code := 0x0603
/-- E_QUEUE_ERROR -/
def eQueueError : Code := 0x0604
/-- E_LAUNCH_ENDED -/
def eLaunchEnded : Code := 0x0605
/-- E_QUEUE_STATE -/
def eQueueState : Code := 0x0606
/-- E_ENDPOINT_LOST -/
def eEndpointLost : Code := 0x0607
/-- E_IMAGE_HANDLE -/
def eImageHandle : Code := 0x0608
/-- E_RESIDUE -/
def eResidue : Code := 0x0701
/-- E_PARITY -/
def eParity : Code := 0x0702
/-- E_SHADOW_MISMATCH -/
def eShadowMismatch : Code := 0x0703
/-- E_LOG_OVERFLOW -/
def eLogOverflow : Code := 0x0704
/-- E_DIGEST_MISMATCH -/
def eDigestMismatch : Code := 0x0705
/-- E_NO_SPARE -/
def eNoSpare : Code := 0x0706
/-- E_RECOVERY_FAULT -/
def eRecoveryFault : Code := 0x0707
/-- EV_CORE_FENCED -/
def evCoreFenced : Code := 0x0708
/-- EV_HISTORY_FAULT -/
def evHistoryFault : Code := 0x0709
/-- E_DRAINED -/
def eDrained : Code := 0x070A
/-- E_TEST_FAIL -/
def eTestFail : Code := 0x070B
/-- E_TEST_PACK -/
def eTestPack : Code := 0x070C
/-- E_TEST_REFUSED -/
def eTestRefused : Code := 0x070D
/-- EV_UNIT_REJOINED -/
def evUnitRejoined : Code := 0x070E
/-- E_CAP_FLOOR -/
def eCapFloor : Code := 0x0801
/-- E_THERMAL_TRIP -/
def eThermalTrip : Code := 0x0802
/-- EV_BUDGET_LIMIT -/
def evBudgetLimit : Code := 0x0803
/-- E_SIG_FAIL -/
def eSigFail : Code := 0x0901
/-- E_BOOT_FAIL -/
def eBootFail : Code := 0x0902
/-- E_FW_UPDATE -/
def eFwUpdate : Code := 0x0903

end Sys2Proof.Machine
end

