-- ==== Sys2Proof/Config.lean ====
section
/-!
DEFINITION. What an implementation fixes and the spec does not give: fused values, placement hashes, external
encodings, and the one free arithmetic choice. Every constant is opaque: nothing in Lean can evaluate it, so no
statement can rest on a value (entries 4, 11, 13 and 14 of the assumption log).
-/

namespace Sys2Proof.Config

/-- Module serial number, fused (19 R536). DESIGN CHOICE, entry 4: safe. -/
opaque serial : BitVec 64
/-- MAC address, fused (13 R403). -/
opaque mac : BitVec 48
/-- Die stepping, major and minor, fused (19 R536). -/
opaque stepping : BitVec 8
/-- ROM version (19 R536). -/
opaque romVersion : BitVec 16
/-- Vendor identifier of the service register access, fused (17 R513). -/
opaque vendorId : Word
/-- CORE_ARR_REPAIR of physical core 9s + p, fused (03 R96). -/
opaque arrRepair : Nat → Word
/-- Fused voltage in mV of point i of set s (16 R462, R485). -/
opaque setMillivolts : Nat → Nat → BitVec 12
/-- Guard-band step of set s, fused (16 R462). -/
opaque guardStep : Nat → BitVec 4
/-- Calibration offset, fused, in 0.1 W, signed (16 R467, R485). -/
opaque calOffset : BitVec 16
/-- Way that holds the spare role of slice s, fused (08 R250). -/
opaque spareWay : Nat → BitVec 4
/-- Home slice of a 128-byte line: a fixed hash (08 R225). Entry 13: safe. -/
opaque homeSlice : Nat → Fin 8
/-- Line set of a line inside its slice, modulo the 12,288 line sets (08 R225). Entry 13. -/
opaque lineSet : Nat → Nat
/-- Set of a translation in the shared TLB (context, page, log2 of its size): 8 ways, 512 sets (08 R235). Entry 13. -/
opaque tlbSet : Nat → Nat → Nat → Nat
/-- The place, in a full cache set's recency order, of the line it gives up: pseudo-LRU is named, not given (08 R225). The arguments are
slice, set and the ways in that order. Entry 13. -/
opaque cacheVictim : Nat → Nat → List Nat → Nat
/-- HBM stack that holds a 4 KiB granule (08 R218, R222). Entry 13. -/
opaque stackOf : Nat → Fin 4
/-- Which entry a full TLB or pointer cache gives up: no policy is given (08 R235, R236). Entry 13. -/
opaque victim : Nat → Nat
/-- Whether an element operation whose rounded magnitude exceeds max finite gives an infinity (true) or max finite:
07 R203 names no overflow mode for FADD, FSUB, FMUL, FMA and I2F. DESIGN CHOICE, entry 11: a free value, safe. -/
opaque elementOverflowInf : Bool
/-- Byte of a result block that cannot be read when its launch commits: 13 R384 names no outcome. A free value, entry 18: safe. -/
opaque lostResult : Nat → Byte
/-- Whether a power figure that its register cannot hold exactly is rounded up: 16 R465 and R467 name no rounding. The
argument says which figure. A free value, entry 18: safe. -/
opaque roundUp : Nat → Bool
/-- Gain (in 1/32,768) of a least-squares fit that the windows do not determine (16 R467). A free value, entry 18: safe. -/
opaque openGain : List (Nat × Nat) → Nat
/-- A member's share of a budget that is below 600 W each while none of them wants more: 16 R475 divides by 0. A free value, entry 46:
safe. -/
opaque openShare : Nat → Int
/-- The 16-byte report and the 8-byte allocation of 16 R474, whose layout the spec does not give (entry 14): device, held
boundaries, power, cap, serial. -/
opaque reportBytes : Nat → Nat → Nat → Nat → Nat → List Byte
opaque reportOf : List Byte → Option (Nat × Nat × Nat × Nat × Nat)
opaque allocationBytes : Nat → Nat → List Byte
/-- The data of a collective's control flit, whose encoding the spec does not give: job tag and contents (12 R347, entry 14). -/
opaque controlBytes : Word → CollCtl → List Byte
opaque controlOf : List Byte → Option (Word × CollCtl)
/-- Measured delay, in 1/16 fabric cycle, of a link of other devices: the leader's map does not carry it (11 R324, R325).
A free value, entry 18: safe. -/
opaque linkDelay : Nat → Nat → Nat
/-- The cause of E_TEST_REFUSED for a REJOIN in a set that has a spare: 15 R450 names none. A free value, entry 18: safe. -/
opaque rejoinRefusalCause : BitVec 8
/-- Measurement digest of the ROM and of the repair and core-map fuses (17 R501). -/
opaque romDigest : List Byte
opaque repairDigest : List Byte
/-- Bits of a record's detail that carry the shadow and arbiter cores: 14 R424 names no place for them but W6 [31]. Entry 14. -/
opaque shadowCores : Nat → Nat → BitVec 63
/-- Certificate chain of the prov area (17 R500). -/
opaque certChain : List Byte
/-- Signature of an SPDM response with the identity key, which never leaves the island (17 R500); the argument is the free-value
counter: the transcript that is signed is the standard's. A free value, entry 18: safe. -/
opaque spdmSignature : Nat → List Byte
/-- DMTF DSP0274 encoding of a response, which the spec names and does not give (17 R502, R503). Entry 14. -/
opaque spdmBytes : SpdmRsp → List Byte
/-- Measurement 6: the boot record of banks, fallback and causes of failed tries (17 R501). Entry 14. -/
opaque bootRecord : Bool → Bool → Bool → List Nat → List Byte
/-- The sensor PDR repository (17 R506, DSP0248). Entry 14. -/
opaque sensorPdr : Nat → List Byte

end Sys2Proof.Config
end

