-- ==== Sys2Proof/Machine/State.lean ====
section
/-!
DEFINITION. The state of one AZ-6400 module, as plain data, its reset, and the reasons a step can stop.
A field's default value is its value at reset. A sparse table reads as the default named beside it.
INVENTORY.md, State, names the rule of each field.
-/

namespace Sys2Proof.Machine

/-! ### Cores -/

/-- A unit instruction with every scalar, address and slot operand already read (04 R101). -/
inductive UOp where
  | mma (slot : BitVec 5) (line : BitVec 10) (prob : Word) (m n k : Option Word)
  | attn (slot : BitVec 5) (line : BitVec 10) (prob : Word) (m n k : Option Word)
  | epi (line : BitVec 10) (off : Word) (accBase accTiles : BitVec 3)
  | accinit (mask : BitVec 8) (i32 : Bool)
  | vprog (td ta tb : BitVec 6) (tp : Option (BitVec 6)) (line : BitVec 10)
  | vred (td ta : BitVec 6) (rop : RedOp) (axis : Bool)
  | vld (tv : BitVec 6) (fmt : BitVec 4) (uns : Bool) (off : Nat)
  | vst (tv : BitVec 6) (fmt : BitVec 4) (uns : Bool) (off : Nat)
  | vcvt (ta : BitVec 6) (cvt : Word) (off : Nat)
  | vaccr (tv : BitVec 6) (tile : BitVec 3) (rblk cblk : BitVec 2)
  | vaccw (tv : BitVec 6) (tile : BitVec 3) (rblk cblk : BitVec 2)
  | vmov (td ta : BitVec 6)
  | vfill (td : BitVec 6) (w : Word)
  | sarm (line : BitVec 10) (eng : Fin 4)
  | sexp (line : BitVec 10)
  | tsig (k : Fin 16) (n : BitVec 16)
  | twait (k : Fin 16) (n : BitVec 16)
  | waitbeat (m : Word)
  | beatmark (m : Word)
  | coll (line : BitVec 10)
  | lbar
  deriving DecidableEq, Repr

/-- An issued instruction: its issue number, its address and bits for the records of 02 R69, its operands, its wait
and signal, the beat boundaries its wait has counted (04 R115), whether an LBAR has joined, and its detections. -/
structure Issued where
  serial : Nat
  pc : BitVec 20
  bits : Dword
  op : UOp
  wt : Option (Fin 16)
  sg : Option (Fin 16)
  det : List Detection
  waited : Nat := 0
  joinedBar : Bool := false
  deriving DecidableEq, Repr

/-- Mask bits that a KV append sets when its instruction completes (10 R286), with the address that maps the page. -/
structure KvMark where
  pool : Fin 5
  page : Nat
  ctx : BitVec 8
  va : Nat
  kmask : BitVec 16
  vmask : BitVec 16
  deriving DecidableEq, Repr

/-- What a stop reports. A trap gives also kind, format, operand, row, column and loop indices of its NaN. -/
structure StopInfo where
  code : Code
  core : Option Nat := none
  pc : BitVec 20 := 0
  bits : Dword := 0
  problem : Nat := 0
  trapKind : Nat := 0
  fmt : Nat := 0
  operand : Nat := 0
  row : Nat := 0
  col : Nat := 0
  loops : List Nat := []
  source : BitVec 3 := 3
  cls : BitVec 2 := 0
  kind : BitVec 4 := 0
  unit : BitVec 12 := 0
  cause : BitVec 5 := 0
  detail : Dword := 0
  va : Dword := 0
  deriving DecidableEq, Repr

/-- A write of the live block whose conversion halted (06 R189): a converted element, or a new scale at its address. -/
inductive ConvWrite where
  | element (m n : Nat) (bits : Word)
  | scale (addr : Int) (bits : Word)
  deriving DecidableEq, Repr

/-- A begun instruction (04 R113): its unit, its flag word, its KV marks, and where it stands if it halted
(04 R133, 06 R189): the live block or the phase and place of an ATTN to go on from, the units of it already done and what they
wrote; and the first NaN it trapped, with its place in the order of 02 R68. -/
structure Flight where
  ins : Issued
  unit : CUnit
  flags : BitVec 5 := 0
  marks : List KvMark := []
  haltedAt : Option (Nat × Nat) := none
  redo : List ConvWrite := []
  trap : Option (List Nat × StopInfo) := none
  deriving DecidableEq, Repr

/-- A stream on an engine: its line, the flight it completes, its latched words, and its step start (08 R239-R245). -/
structure Stream where
  line : BitVec 10
  serial : Nat
  words : List Word
  logNo : Option (BitVec 16) := none
  stepStart : Word := 0
  started : Bool := false
  /-- source bytes that a remote stream has sent; its progress holds those that are acknowledged -/
  sent : Nat := 0
  /-- detections still to come after a takeover (14 R408) -/
  det : List Detection := []
  deriving DecidableEq, Repr

/-- An entry of the re-fetch log (14 R411). -/
structure LogEntry where
  serial : BitVec 16
  words : List Word
  ctx : BitVec 8
  deriving DecidableEq, Repr

/-- The architectural state of a logical core (04 R134). -/
structure Core where
  s : Sparse Word := []
  a : Sparse Dword := []
  tile : Sparse Word := []
  tileI32 : BitVec 64 := 0
  k : Sparse (BitVec 16) := []
  d : Sparse (BitVec 10) := []
  pc : BitVec 20 := 0
  ost : Sparse Byte := []
  dsc : Sparse Word := []
  acc : Sparse Word := []
  accI32 : BitVec 8 := 0
  sr : Sparse (BitVec 48) := []
  flags : BitVec 5 := 0
  obligation : Option Word := none
  qMxu : List Issued := []
  qVec : List Issued := []
  qStm : List Issued := []
  qSyn : List Issued := []
  flight : List Flight := []
  serialNo : Nat := 0
  ended : Bool := false
  joined : Nat := 0
  seqWait : Option (Fin 16) := none
  stopped : Bool := false
  streamLines : List (BitVec 10) := []
  collLines : List (BitVec 10) := []
  eng : Sparse (List Stream) := []
  refetch : List LogEntry := []
  serials : Sparse (BitVec 17) := []
  nextStream : BitVec 16 := 0
  strictN : Nat := 0
  deriving DecidableEq, Repr

/-- A physical core's role and its counters, which stay with it (03 R95-R98, 07 R216, 09 R279, 14 R434). -/
structure PCore where
  residueCnt : BitVec 16 := 0
  parityCnt : BitVec 16 := 0
  mxuBusy : Word := 0
  mxuStall : Word := 0
  vecBusy : Word := 0
  vecDefer : Word := 0
  attnSkipped : BitVec 16 := 0
  attnVisited : BitVec 16 := 0
  deriving DecidableEq, Repr

/-! ### Images, schedules, launches -/

/-- A shape entry (05 R164). -/
structure Shape where
  core : Nat
  line : Nat
  maxProb : Nat
  mMax : Nat
  nMax : Nat
  kMax : Nat
  deriving DecidableEq, Repr

/-- A core's part of an AZX image (04 R129, R538): code, entry, wait limit, slot table and descriptor lines 2 onward. -/
structure ImageCore where
  core : Nat
  code : List Dword
  entry : Nat
  waitLimit : Nat
  slots : List (BitVec 10)
  lines : List Word
  tokenUnits : List (BitVec 3)
  deriving DecidableEq, Repr

/-- A verified AZX image (13 R382). -/
structure Image where
  modelId : Dword
  cores : List ImageCore
  shapes : List Shape
  /-- declared buffers: core, offset, size (09 R263) -/
  bufs : List (Nat × Nat × Nat) := []
  deriving DecidableEq, Repr

/-- A slot entry of a schedule (11 R320): in use, share, hops and axis order. -/
structure SchedSlot where
  used : Bool
  share : Nat
  hops : Int × Int × Int
  order : BitVec 3
  deriving DecidableEq, Repr

/-- A schedule image (11 R318), with its box, its member map (box positions in member order) and its last use. -/
structure Sched where
  epoch : BitVec 16
  jobTag : Word
  box : Nat × Nat × Nat
  origin : Nat × Nat × Nat
  self : BitVec 12
  map : List (Nat × Nat × Nat)
  slots : List SchedSlot
  lastUse : Nat
  deriving DecidableEq, Repr

inductive LCond where
  | pending | resident | saved
  deriving DecidableEq, Repr

/-- Where an accepted launch stands: it has not joined its barrier, waits in it, waits for its start beat, runs, or is
halted (with the code of 04 R133). -/
inductive LRun where
  | fresh | barrier | starting | running | halted (code : Code)
  deriving DecidableEq, Repr

/-- An accepted launch (04 R135, 13 R383) with the values latched at acceptance (01 R30). -/
structure Launch where
  qid : BitVec 12
  cookie : Word
  handle : BitVec 4
  epoch : BitVec 16
  jobTag : Word
  lead : BitVec 12
  members : Nat
  deadline : Nat
  args : List Byte
  resVa : Dword
  resLen : Nat
  seed : Dword
  nanMode : BitVec 2
  ctx : BitVec 8
  strict : BitVec 3
  salt : Dword
  swapPeriod : BitVec 16
  swapPhase : BitVec 16
  cond : LCond := .pending
  run : LRun := .fresh
  /-- S -/
  start : Option Dword := none
  /-- the boundary at which a barrier that is complete lets it begin or go on -/
  goAt : Option Dword := none
  suspended : Option Dword := none
  detect : Dword := 0
  resumeOrder : Option Nat := none
  resumeEpoch : Option (BitVec 16) := none
  /-- its resume barrier is still to be joined, once it has been restored -/
  barrierDue : Bool := false
  saved : Sparse Core := []
  barPassed : Nat := 0
  /-- its endpoint was lost: its COMPLETION is discarded (13 R375) -/
  lost : Bool := false
  deriving DecidableEq, Repr

/-- The obligations of a stopped launch until its COMPLETION leaves (11 R330): each core with its launch beat. -/
structure HeldObls where
  key : Nat
  launch : Launch
  marks : List (Nat × Word)
  deriving DecidableEq, Repr

/-! ### HBM, cache, translation -/

/-- A write to a granule that is being retired, to be applied to the spare after the copy (08 R222): its physical address, its virtual
address (0: none), and whether it is to one of the device's own structures. -/
structure HeldWrite where
  pa : Nat
  va : Nat
  bytes : List Byte
  own : Bool
  deriving DecidableEq, Repr

/-- A retirement in progress: granule, spare (stack and index), and its held writes in their order. -/
structure Retiring where
  granule : BitVec 25
  spare : Nat
  held : List HeldWrite
  deriving DecidableEq, Repr

/-- A cached line: its slice, way and line set, its address bits [36:7], and whether it is dirty; the list stands most
recent first (08 R225). -/
structure CLine where
  slice : Fin 8
  way : Fin 16
  set : Nat
  line : Nat
  dirty : Bool
  deriving DecidableEq, Repr

/-- SET_CACHE_WAY (08 R250), as changes against the fused state: ways taken out, ways handed over. -/
structure Ways where
  out : BitVec 16 := 0
  spareUsed : Bool := false
  degraded : Bool := false
  deriving DecidableEq, Repr

structure Hbm where
  mem : Sparse Byte := []
  code : Sparse (BitVec 16) := []
  remap : Sparse Nat := []
  sparesUsed : Sparse Nat := []
  retiring : List Retiring := []
  rereadOk : BitVec 14 := 0
  lines : List CLine := []
  ways : Sparse Ways := []
  handover : List (Fin 8 × Fin 16) := []
  /-- a structure of the device that read poisoned: the device drains for it as the command ends (14 R409) -/
  ownedLost : Option Nat := none
  /-- failed reads of READ_MEM that have yet to reach it: burst, code, cause (08 R221, R227, 13 R386) -/
  failing : List (Nat × Code × Nat) := []
  deriving DecidableEq, Repr

/-- A KV region (08 R250, 10 R310). -/
structure Region where
  valid : Bool := false
  gran : BitVec 4 := 0
  base : BitVec 27 := 0
  len : BitVec 27 := 0
  lshift : BitVec 6 := 0
  deriving DecidableEq, Repr

structure Ctx where
  rootValid : Bool := false
  rootPfn : BitVec 25 := 0
  regions : Sparse Region := []
  deriving DecidableEq, Repr

/-- A translation held by a TLB (08 R235): page number at its size, frame, write permission. -/
structure Tlb where
  ctx : BitVec 8
  page : Nat
  log2 : Nat
  pa : Nat
  wr : Bool
  deriving DecidableEq, Repr

/-- A KV pool (10 R287, R310), with the reclaim queue's head and length (10 R303). -/
structure Pool where
  en : Bool := false
  busy : Bool := false
  heads : BitVec 4 := 0
  dim : BitVec 7 := 0
  frames : BitVec 25 := 0
  hdr : BitVec 31 := 0
  stack : BitVec 31 := 0
  recl : BitVec 31 := 0
  count : BitVec 24 := 0
  free : BitVec 24 := 0
  reclHead : Nat := 0
  reclLen : Nat := 0
  reclaimed : BitVec 16 := 0
  noPage : BitVec 16 := 0
  deriving DecidableEq, Repr

/-- A prepared range of a queue (10 R305, R306): pages (pool, index, context, VA) that may still be published. -/
structure PrepRange where
  qid : BitVec 12
  pages : List (Fin 5 × Nat × BitVec 8 × Nat)
  deriving DecidableEq, Repr

structure Xlt where
  ctxs : Sparse Ctx := []
  invBusy : Bool := false
  invScope : BitVec 2 := 0
  invCtx : BitVec 8 := 0
  coreTlb : Sparse (List Tlb) := []
  sharedTlb : List Tlb := []
  walkCache : List Tlb := []
  pools : Sparse Pool := []
  pfxBase : BitVec 31 := 0
  pfxEn : Bool := false
  pfxLog2 : BitVec 5 := 20
  pfxCollide : BitVec 16 := 0
  pfxInsFail : BitVec 16 := 0
  pfxLive : BitVec 25 := 0
  opVa : Dword := 0
  opCnt : Word := 0
  opBusy : Bool := false
  opResult : BitVec 3 := 0
  opKind : BitVec 2 := 0
  opCtx : BitVec 8 := 0
  ranges : List PrepRange := []
  deriving DecidableEq, Repr

/-- STM_CREDIT (08 R250) and the split that waits for the next boundary (08 R244). -/
structure Stm where
  read : BitVec 7 := 55
  write : BitVec 7 := 30
  remote : BitVec 7 := 15
  err : Bool := false
  next : Option (BitVec 7 × BitVec 7 × BitVec 7) := none
  deriving DecidableEq, Repr

/-! ### Fabric and beat -/

/-- Port states of FAB_PORT_STAT (11 R340). -/
inductive PortState where
  | down | training | standby | up | wiring | unused
  deriving DecidableEq, Repr

/-- A flit before it has its link sequence number (11 R313). -/
structure Flit where
  cls : BitVec 2
  dst : BitVec 12
  src : BitVec 12
  core : BitVec 6
  tag : BitVec 12
  chunk : BitVec 24
  data : List Byte
  deriving DecidableEq, Repr

/-- A torus port: its registers (11 R340) and its link layer (11 R314, R315). -/
structure Port where
  state : PortState := .down
  spareUsed : Bool := false
  failedLane : BitVec 4 := 0xF
  nbr : BitVec 12 := 0
  retries : BitVec 16 := 0
  downs : BitVec 8 := 0
  spared : BitVec 8 := 0
  delta : BitVec 16 := 0
  rxSeq : BitVec 12 := 0
  discarding : Bool := false
  txSeq : BitVec 12 := 0
  replay : List (BitVec 12 × Flit) := []
  /-- flits that wait for room in the replay buffer (11 R314, R317) -/
  backlog : List Flit := []
  tries : Nat := 0
  switch : Option (Fin 9 × BitVec 12) := none
  permanent : Option (Fin 9) := none
  childHold : Option (BitVec 12) := none
  deriving DecidableEq, Repr

/-- An announced boundary (11 R326, R331): number, countdown as received, marked link losses, handover. -/
structure Announced where
  k : Dword
  remaining : Nat
  loss : List LinkId
  handover : Option (BitVec 12)
  /-- lowest holder and length, in 10 ns, of the stretch that it ended (11 R328) -/
  stretch : Option (BitVec 12 × Nat) := none
  /-- its time has come and it has not passed (11 R327) -/
  due : Bool := false
  deriving DecidableEq, Repr

structure Fab where
  coord : Word := 0
  trained : Option Word := none
  retraining : Bool := false
  err : Bool := false
  ports : Sparse Port := []
  holdLimit : BitVec 24 := 0
  cnt : Dword := 0
  leader : BitVec 12 := 0
  isLeader : Bool := false
  live : Bool := false
  aLead : BitVec 12 := 0
  horizon : BitVec 12 := 0
  held : BitVec 16 := 0
  late : BitVec 16 := 0
  holdTime : Word := 0
  stretchHolder : BitVec 12 := 0
  stretchLen : BitVec 20 := 0
  skew : BitVec 8 := 0
  announced : List Announced := []
  /-- the last boundary whose check point has come (11 R326) -/
  checkedTo : Dword := 0
  holding : Bool := false
  /-- sets with a core that held a boundary to come, by its number (11 R328, 16 R469) -/
  heldSets : Sparse (BitVec 8) := []
  lastStretch : Option (BitVec 12 × Nat) := none
  /-- highest boundary announced or reported (11 R323) -/
  lastK : Dword := 0
  handoverNext : Option (BitVec 12) := none
  /-- lost links, those of them that no boundary has marked, and those that are in standby again (11 R331, R334) -/
  dead : List LinkId := []
  unmarked : List LinkId := []
  standby : List LinkId := []
  /-- links that training did not bring into service (11 R312) -/
  untrained : List LinkId := []
  liveIds : List (BitVec 12) := []
  /-- drained devices, whose fabric islands still pass symbols on (14 R427) -/
  drainedIds : List (BitVec 12) := []
  /-- a partition has cut this device off (11 R323) -/
  parted : Bool := false
  election : Option (BitVec 12 × Dword) := none
  mgmt : List (BitVec 12 × BitVec 4 × List Byte) := []
  deriving DecidableEq, Repr

/-! ### Collectives -/

/-- Phases of an unfinished collective (12 R343). -/
inductive CPhase where
  | count | data | halted
  deriving DecidableEq, Repr

/-- An unfinished collective, or the launch or resume barrier (id 0xFFF) (12 R343-R367): its latched line, its entries, the
boundaries counted, what it has done (elements written, chunks sent, next chunk to start, chunks received by axis and
kind), the chunks in engine buffers (axis, whether it is this member's own value, number, wire bytes), the arrival at
which it halted, a kept failure, whether its record is already DONE (12 R366), and the epoch it runs under. -/
structure Coll where
  jobTag : Word
  collId : BitVec 12
  core : Fin 64
  line : BitVec 10
  serial : Nat
  words : List Word
  entries : List CEntry := []
  phase : CPhase := .count
  counted : Nat := 0
  flags : BitVec 5 := 0
  written : Nat := 0
  sent : Nat := 0
  started : Nat := 0
  got : Sparse Nat := []
  parts : List (Axis × Bool × Nat × List Byte) := []
  stalled : Option (Axis × Bool × Nat × List Byte) := none
  failure : Option (Code × BitVec 12) := none
  galliard : Bool := false
  rerun : Bool := false
  epoch : BitVec 16 := 0
  deriving DecidableEq, Repr

structure ColBlk where
  galliardOnly : Bool := false
  testGalliard : Bool := false
  fenced : BitVec 6 := 0
  done : BitVec 16 := 0
  failed : BitVec 16 := 0
  lastCode : Code := 0
  lastCulprit : BitVec 12 := 0
  colls : List Coll := []
  /-- aborts that came before this member's own COLL began (12 R361) -/
  aborts : List (Word × BitVec 12 × Code × BitVec 12) := []
  /-- the end of the chain of waits that starts at a member, as its control flits say: job tag, id, member, end (12 R360) -/
  waits : List (Word × BitVec 12 × BitVec 12 × BitVec 12) := []
  /-- entries that came before this member's own COLL began (12 R346) -/
  early : List (Word × BitVec 12 × CEntry) := []
  /-- collectives of accepted launches that are DONE here (12 R366) -/
  finished : List Coll := []
  rejoined : BitVec 6 := 0
  deriving DecidableEq, Repr

/-! ### Host port -/

/-- A message a queue carries out (13 R372, R380). -/
inductive HostMsg where
  | submit (w0 : Word) (body : List Word) (sig : SigVerdict)
  | digest (body : List Word) (slip : Option (BitVec 128))
  | writeMem (body : List Word) (bytes : List Byte)
  | readMem (body : List Word)
  | regRead (body : List Word)
  | regWrite (body : List Word)
  | bad (type : BitVec 4)
  deriving DecidableEq, Repr

structure RxMsg where
  psn : Word
  cookie : Word
  overrun : Bool
  /-- the header's reserved bits are 0 and its length is the message's (13 R371, R372) -/
  formed : Bool
  /-- a QUEUE_CTL on its own queue that has acted already: its code and result (13 R381, R392) -/
  acted : Option (Code × List Word) := none
  msg : HostMsg
  deriving DecidableEq, Repr

/-- What a COMPLETION or an EVENT carries: the message words (13 R390, R391) and its data. -/
structure TxMsg where
  words : List Word
  data : List Byte
  /-- the obligations that clear when it leaves: the stopped launch's (11 R330) -/
  releases : Option Nat := none
  /-- the ring record this EVENT reports (14 R419) -/
  record : Option Word := none
  /-- the queue that this EVENT is about -/
  about : Option (BitVec 12) := none
  /-- the ring records whose EVENTs this COMPLETION follows (13 R392) -/
  after : List Word := []
  /-- the message this COMPLETION answers (13 R376) -/
  answers : Bool := false
  deriving DecidableEq, Repr

structure TxPkt where
  psn : Word
  msg : TxMsg
  tries : Nat
  /-- the first psn that was sent after this packet's last sending (13 R374) -/
  since : Word
  deriving DecidableEq, Repr

/-- The message in progress at the head of a queue's order, when it does not complete at once. -/
inductive InProgress where
  | launchWait (body : List Word)
  | launched
  | closing (seq : Word)
  | testing
  deriving DecidableEq, Repr

/-- A queue context entry (13 R387) and the queue's transport state (13 R373-R376). -/
structure Queue where
  valid : Bool := false
  priv : Bool := false
  nanMode : BitVec 2 := 0
  ctx : BitVec 8 := 0
  endpoint : BitVec 10 := 0
  depth : BitVec 8 := 0x0F
  seed : Dword := 0
  qstate : BitVec 4 := 0
  handle : BitVec 4 := 0
  epoch : BitVec 16 := 0
  jobTag : Word := 0
  energy : Dword := 0
  energyRem : Nat := 0
  fenceEpoch : Word := 0
  errCode : Code := 0
  err : Bool := false
  bktVa : Dword := 0
  bktWritten : Bool := false
  txPsn : Word := 0
  rxPsn : Word := 0
  hostCred : Word := 0
  devCred : Word := 0
  /-- messages whose COMPLETION the host has acknowledged (13 R376) -/
  freed : Word := 0
  lastEnergy : Dword := 0
  rxAhead : List RxMsg := []
  waiting : List RxMsg := []
  cur : Option (RxMsg × InProgress) := none
  sent : List TxPkt := []
  txWait : List TxMsg := []
  needAck : Bool := false
  /-- its next message reaches a granule under retirement, and waits (08 R222) -/
  blocked : Bool := false
  deriving DecidableEq, Repr

/-- An endpoint entry (13 R377). -/
structure Endpoint where
  valid : Bool := false
  ipv6 : Bool := false
  port : BitVec 16 := 0
  addr : BitVec 128 := 0
  mac : BitVec 48 := 0
  deriving DecidableEq, Repr

/-- The per-path selections and latches (19 R532). -/
structure PathRegs where
  ctx : BitVec 8 := 0
  ctxErr : Bool := false
  region : BitVec 3 := 0
  pool : BitVec 3 := 0
  poolErr : Bool := false
  ep : BitVec 10 := 0
  epErr : Bool := false
  epData : Sparse Word := []
  beatHi : Word := 0
  idleHi : Word := 0
  totalHi : Word := 0
  deriving DecidableEq, Repr

structure Qce where
  ipv4En : Bool := false
  ipv6En : Bool := false
  dscp : BitVec 6 := 0
  port : BitVec 16 := 0xBA5E
  ipv4 : BitVec 32 := 0
  ipv6 : Sparse Word := []
  evqEn : Bool := true
  evq : BitVec 12 := 0
  misses : BitVec 23 := 0
  dropFcs : BitVec 8 := 0
  dropOther : BitVec 8 := 0
  dropSource : BitVec 8 := 0
  dropOverrun : BitVec 8 := 0
  endpoints : Sparse Endpoint := []
  queues : Sparse Queue := []
  cached : List (BitVec 12) := []
  deriving DecidableEq, Repr

/-- A hand-off of one page to one subscriber (13 R398): pool, page, frame, page bytes, layer, index, first PSN once sent. -/
structure Handoff where
  pool : Fin 5
  page : Nat
  layer : BitVec 8
  index : Nat
  psn : Option (BitVec 24) := none
  deriving DecidableEq, Repr

/-- A subscriber slot (13 R396, R399). -/
structure Sub where
  isOpen : Bool := false
  cause : BitVec 8 := 0
  opened : Bool := false
  qid : BitVec 12 := 0
  ipv6 : Bool := false
  pmtu : BitVec 3 := 0
  lqpn : BitVec 24 := 0
  rqpn : BitVec 24 := 0
  /-- next PSN, and the first that is not acknowledged -/
  psn : BitVec 24 := 0
  una : BitVec 24 := 0
  raddr : BitVec 128 := 0
  sport : BitVec 16 := 0
  mac : BitVec 48 := 0
  rBase : Dword := 0
  rkey : Word := 0
  lstride : Word := 0
  tag : BitVec 11 := 0
  window : Nat := 0
  lagLimit : Nat := 0
  made : Nat := 0
  acked : Nat := 0
  queue : List Handoff := []
  /-- rate in 1/65536 of the port rate (13 R395) -/
  rate : Nat := 65536
  tries : Nat := 0
  rnrTries : Nat := 0
  rnrWait : Option Nat := none
  deriving DecidableEq, Repr

structure ExpSeq where
  handoffs : Nat := 0
  subs : Sparse Sub := []
  closing : Option (BitVec 12) := none
  deriving DecidableEq, Repr

structure Exp where
  seqs : Sparse ExpSeq := []
  /-- the local QPN that sent a page last (13 R395) -/
  lastTurn : BitVec 24 := 0
  dropped : BitVec 16 := 0
  /-- armed pages: pool, page, and the sequence and page index that their export descriptor gives (06 R186) -/
  armed : List (Fin 5 × Nat × Word × Nat) := []
  deriving DecidableEq, Repr

/-! ### Integrity -/

/-- A ring record (14 R418) with the marks of 14 R419. -/
structure Rec where
  code : Code
  source : BitVec 3
  cls : BitVec 2
  outcome : BitVec 3
  nested : Bool
  kind : BitVec 4
  unit : BitVec 12
  qid : Option (BitVec 12)
  core : Option (BitVec 6 × BitVec 20)
  cause : BitVec 5
  detail : Dword
  serial : Word
  beat : Dword
  handled : Bool
  acked : Bool
  deriving DecidableEq, Repr

/-- What a history entry records (14 R415, 15 R459). -/
inductive HKind where
  | transient | permanent | suspect | rejoin | pass (packSeq : Word) | testFail (cause : BitVec 5) | bootFail (cause : BitVec 4) | overflow
  deriving DecidableEq, Repr

structure Hist where
  kind : BitVec 4
  unit : Nat
  what : HKind
  second : Nat
  deriving DecidableEq, Repr

/-- Why a role moves (14 R413, 15 R444). -/
inductive MoveWhy where
  | fence | swap
  deriving DecidableEq, Repr

/-- A state copy in progress: the set, the core that gives the role and the core that takes it. -/
structure Takeover where
  set : Fin 8
  src : Fin 9
  dst : Fin 9
  why : MoveWhy
  deriving DecidableEq, Repr

/-- A shadow compare outstanding (14 R422, R423): the launch's queue, the primary core, 65536 times the number of its
instruction plus that of the tile, the instruction's address, and the tile's signature. -/
structure Shadow where
  qid : BitVec 12
  core : Fin 64
  pc : BitVec 20
  index : Nat
  sig : BitVec 64
  deriving DecidableEq, Repr

structure Err where
  hold : Bool := false
  err : Bool := false
  strict : BitVec 3 := 0
  /-- n of ERR_RING_RETIRE as last carried out -/
  retireN : BitVec 7 := 0
  ring : List Rec := []
  serial : Word := 0
  replays : BitVec 16 := 0
  failedReplays : BitVec 16 := 0
  fences : BitVec 16 := 0
  refetches : BitVec 16 := 0
  shadowTiles : Word := 0
  shadowMiss : BitVec 16 := 0
  drained : Bool := false
  flagged : Bool := false
  bootDrain : Bool := false
  cause : Code := 0
  opsec : Nat := 0
  history : List Hist := []
  heldHistory : List Hist := []
  /-- units (kind, number) of which an event is recorded in the present beat (14 R415) -/
  noted : List (BitVec 4 × Nat) := []
  salt : Dword := 0
  roles : Sparse (BitVec 4) := []
  takeovers : List Takeover := []
  shadows : List Shadow := []
  deriving DecidableEq, Repr

/-! ### Power -/

/-- A set's power domain (16 R463-R472, R477, R485). -/
structure PSet where
  point : BitVec 3 := 0
  ceiling : BitVec 3 := 7
  tripped : Bool := false
  droop : BitVec 13 := 0
  drooping : Bool := false
  tj : BitVec 8 := 0
  raising : Bool := false
  settled : Bool := false
  lowerDue : Bool := false
  /-- boundaries held, by interval of 10 us, the present one first (16 R469) -/
  held : List Nat := []
  est : Nat := 0
  floor : Nat := 0
  roof : Nat := 1000
  deriving DecidableEq, Repr

/-- A member's report at the coordinator (16 R474). -/
structure Report where
  held : Nat
  power : Nat
  cap : Nat
  serial : Nat
  deriving DecidableEq, Repr

/-- The switch of the input stage (16 R478, R480). -/
inductive Switch where
  | opened | charging | closed
  deriving DecidableEq, Repr

/-- The last switch opening, latched on the rack side (16 R480, 17 R506). -/
inductive Opening where
  | none | overcurrent | reverse | overvoltage | undervoltage
  deriving DecidableEq, Repr

structure Pwr where
  cap : BitVec 11 := 1600
  capErr : Bool := false
  grpEn : Bool := false
  grpErr : Bool := false
  coord : BitVec 12 := 0
  members : BitVec 12 := 0
  budget : BitVec 23 := 0
  limit : Nat := 1600
  reason : BitVec 3 := 0
  alloc : Nat := 0
  nextAlloc : Option Nat := none
  fallback : Bool := false
  /-- queues with an accepted launch during the present interval (16 R481) -/
  live : List (BitVec 12) := []
  estRaw : Nat := 0
  estCal : Nat := 0
  vin : Nat := 0
  pin : Nat := 0
  gain : Nat := 32768
  offset : Int := 0
  offsetFused : Bool := true
  ramp : BitVec 8 := 50
  temps : Sparse (BitVec 8) := []
  sets : Sparse PSet := []
  idle : Dword := 0
  idleRem : Nat := 0
  total : Dword := 0
  totalRem : Nat := 0
  lastTen : List Nat := []
  windows : List (Nat × Nat) := []
  windowRaw : Nat := 0
  pace : Nat := 16
  hbmTrip : Bool := false
  /-- intervals for which pacing has lasted (16 R470) -/
  paceTicks : Nat := 0
  ticks : Nat := 0
  lastFloor : Option Nat := none
  lastBudget : Option Nat := none
  heldMark : BitVec 16 := 0
  repSerial : Nat := 0
  reports : Sparse Report := []
  allocs : Sparse Nat := []
  lowPeriods : Sparse Nat := []
  switch : Switch := .closed
  latched : Bool := false
  opening : Opening := .none
  present : Bool := true
  guard : BitVec 4 := 0
  deriving DecidableEq, Repr

/-! ### Boot, security, service -/

/-- Negotiation state of an SPDM connection (17 R502): nothing, version, capabilities, algorithms. -/
inductive SpdmState where
  | fresh | version | capabilities | ready
  deriving DecidableEq, Repr

/-- A running firmware update (17 R509-R511): requested; with its component table; receiving a component. -/
inductive Update where
  | idle
  | started
  | ready (table : List (BitVec 16))
  | loading (table : List (BitVec 16)) (component : BitVec 16) (size : Nat) (got : List Byte)
  deriving DecidableEq, Repr

structure Sec where
  stage : BitVec 4 := 0
  cause : BitVec 4 := 0
  bankS1 : Bool := false
  bankS2 : Bool := false
  fallback : Bool := false
  /-- causes of the tries that failed at this boot, and the versions of the images that run (17 R492, R501) -/
  tries : List Nat := []
  ver1 : BitVec 24 := 0
  ver2 : BitVec 24 := 0
  tReady : BitVec 16 := 0
  svn : BitVec 8 := 0
  ecdsaRev : BitVec 4 := 0
  lmsRev : BitVec 4 := 0
  pendingFw : Bool := false
  spdmBusy : Bool := false
  spdmErr : Bool := false
  spdmLen : BitVec 13 := 0
  spdmReq : Sparse Word := []
  spdmRsp : Sparse Word := []
  /-- the response that the mailbox is about to return (17 R503) -/
  spdmOut : Option (List Byte) := none
  svcConn : SpdmState := .fresh
  boxConn : SpdmState := .fresh
  secretLocked : Bool := false
  historyLoaded : Bool := false
  cfgDone : Bool := false
  hostUp : Bool := false
  fabricDone : Bool := false
  meas : Sparse (List Byte) := []
  flashA : Sparse Byte := []
  flashB : Sparse Byte := []
  eid : BitVec 8 := 0
  dynAddr : BitVec 7 := 0
  svc3v3 : Bool := true
  update : Update := .idle
  powered : Bool := true
  deriving DecidableEq, Repr

/-! ### In-field test -/

/-- A case of a test pack (15 R436); `bytes` is its input. -/
structure TCase where
  port : Bool
  limit : Nat
  input : List Byte
  outLen : Nat
  expect : BitVec 128
  deriving DecidableEq, Repr

structure Pack where
  seq : Word
  cases : List TCase
  image : List Byte
  deriving DecidableEq, Repr

/-- Why a core is tested (15 R441, R448, R451). -/
inductive TestWhy where
  | swap | spare | fenced | rejoin (second : Bool)
  deriving DecidableEq, Repr

/-- How a test stands (15 R441). -/
inductive TestVerdict where
  | running | pass | detection | mismatch | limit | abandoned
  deriving DecidableEq, Repr

/-- A running test (15 R439-R441). -/
structure Test where
  pcore : Fin 9
  why : TestWhy
  pack : Pack
  case : Nat
  retried : Bool
  verdict : TestVerdict
  /-- the beat in which the case under way began -/
  began : Dword := 0
  deriving DecidableEq, Repr

/-- A waiting or served TEST_REQUEST (15 R448): its queue, its set and core, and whether its test runs. -/
structure TestReq where
  qid : BitVec 12
  rejoin : Bool
  set : Fin 8
  pcore : Fin 9
  served : Bool
  deriving DecidableEq, Repr

structure PortTest where
  qid : BitVec 12
  ports : BitVec 6
  pack : Pack
  /-- the case under way, counted over the selected engines and the pack's port cases -/
  case : Nat
  verdict : TestVerdict
  begun : Bool
  retried : Bool := false
  began : Dword := 0
  deriving DecidableEq, Repr

structure Tst where
  rotEn : Bool := false
  err : Bool := false
  interval : BitVec 20 := 0x384
  period : BitVec 16 := 0
  phase : BitVec 16 := 0
  act : Option Pack := none
  stg : Option Pack := none
  passes : BitVec 16 := 0
  fails : BitVec 8 := 0
  abandoned : BitVec 8 := 0
  last : Word := 0
  due : BitVec 8 := 0
  swaps : Word := 0
  slots : Sparse (Option Test) := []
  lastTested : Sparse (Fin 9) := []
  lastSwap : Sparse Nat := []
  requests : List TestReq := []
  /-- port tests, the one that runs or comes next first -/
  ports : List PortTest := []
  area : Sparse Byte := []
  deriving DecidableEq, Repr

/-! ### What leaves the module -/

/-- Sideband symbols the device sends (11 R317). -/
inductive Sym where
  | beat (b : BeatSym)
  | stretch (k : Dword) (holder : BitVec 12) (elapsed : Nat)
  | hold (on : Bool) (holder : BitVec 12)
  | limit (k : Dword)
  | elect (id : BitVec 12) (boundary : Dword)
  | link (m : LinkMsg)
  | lane (lane : Fin 9) (seq : BitVec 12)
  | ack (seq : BitVec 12)
  | nak (n : Nak)
  | mgmt (src dst : BitVec 12) (index total : BitVec 4) (bytes : List Byte)
  | idle
  deriving DecidableEq, Repr

/-- Service answers (17 R502-R511). -/
inductive Svc where
  | registers (bytes : List Byte)
  | control (ok : Bool)
  | sensor (value : Nat)
  | pldmError (code : BitVec 8)
  | pldm (command : BitVec 8) (code : BitVec 8) (data : List Nat)
  | pdr (bytes : List Byte)
  | spdm (r : SpdmRsp)
  deriving DecidableEq, Repr

/-- The network fields of a packet the device sends (13 R370): the rest of its frame, with the checksums, the FCS and the ICRC,
follows from these and what it carries (entry 49). -/
structure Net where
  ipv6 : Bool
  srcAddr : BitVec 128
  dstAddr : BitVec 128
  srcPort : BitVec 16
  dstPort : BitVec 16
  /-- the next hop's MAC address -/
  mac : BitVec 48
  dscp : BitVec 6
  /-- TTL or hop limit -/
  hops : BitVec 8 := 64
  deriving DecidableEq, Repr

/-- Opcodes of RDMA WRITE that a page uses (13 R394): only the last packet carries the immediate (13 R398). -/
inductive RdmaOp where
  | first | middle | lastImm | onlyImm
  deriving DecidableEq, Repr

/-- A packet of an RDMA WRITE: the remote address, key and length stand in its first packet, the immediate in its last. -/
structure RdmaPkt where
  op : RdmaOp
  psn : BitVec 24
  reth : Option (Dword × Word × Nat)
  imm : Option Word
  bytes : List Byte
  deriving DecidableEq, Repr

/-- Everything that leaves the module, in order (entry 10 of the assumption log). -/
inductive Out where
  | cqt (net : Net) (qid : BitVec 12) (psn : Word) (ackPsn sack cred : Word) (msg : TxMsg)
  | ack (net : Net) (qid : BitVec 12) (ackPsn : Word) (sack : Word) (cred : Word)
  | arp (target : BitVec 32) (mac : BitVec 48)
  | neighbor (target : BitVec 128) (mac : BitVec 48)
  | rdma (net : Net) (rqpn : BitVec 24) (p : RdmaPkt)
  | sym (port : Fin 6) (s : Sym)
  | flit (port : Fin 6) (bytes : List Byte)
  | coll (port : Fin 6) (jobTag : Word) (collId : BitVec 12) (axis : Axis) (result : Bool) (chunk : Nat) (bytes : List Byte)
  | control (port : Fin 6) (jobTag : Word) (collId : BitVec 12) (c : CollCtl)
  | remote (jobTag : Word) (slot : Nat) (dev core : Nat) (toMem : Bool) (addr : Dword) (bytes : List Byte) (last : Bool) (sig : Option (Fin 16)) (pos : Nat)
  | remoteAck (dev : BitVec 12) (count : Nat)
  | svc (s : Svc)
  | pwrGood (level : Bool)
  deriving DecidableEq, Repr

/-! ### The machine -/

structure State where
  pending : List Instr := []
  out : List Out := []
  fresh : Nat := 0
  scratch : Word := 0
  devidValid : Bool := false
  devid : BitVec 12 := 0
  cores : Sparse Core := []
  pcores : Sparse PCore := []
  launches : List Launch := []
  images : Sparse (Option Image) := []
  scheds : List Sched := []
  useClock : Nat := 0
  barPassed : Nat := 0
  /-- obligations of stopped launches whose COMPLETION has not left (11 R330) -/
  heldObls : List HeldObls := []
  saving : Option (BitVec 12) := none
  restoring : Option (BitVec 12) := none
  hbm : Hbm := {}
  xlt : Xlt := {}
  stm : Stm := {}
  fab : Fab := {}
  col : ColBlk := {}
  qce : Qce := {}
  pathQ : PathRegs := {}
  pathS : PathRegs := {}
  exp : Exp := {}
  err : Err := {}
  pwr : Pwr := {}
  sec : Sec := {}
  tst : Tst := {}
  deriving DecidableEq, Repr

/-- The module right after power-up, before the ROM has run (17 R494): every field at the reset value of INVENTORY.md;
queue 0 is valid and privileged (13 R378, R387). -/
def State.reset : State :=
  { qce := { queues := [(0, { valid := true, priv := true })] } }

/-- Why the model stops (safe: the hardware may go on, the model makes no claim). -/
inductive Fault where
  /-- An access to a physical address at or beyond the 96 GB of the stacks (08 R219). No command raises it: each such access has its
  answer (entry 15). Safe. -/
  | noSuchAddress (pa : Nat)
  deriving DecidableEq, Repr

/-- Why the model gives a command no meaning. -/
inductive Refusal where
  /-- A constructor whose meaning is not written. Raised by exec's arms only. Safe. -/
  | notModelled (mnemonic : String)
  /-- A core instruction whose fields the loader rejects (04 R130). No command raises it: each has its effect, or stops its queue (entry
  54). Safe. -/
  | illFormed (mnemonic : String)
  deriving DecidableEq, Repr

end Sys2Proof.Machine
end

