-- ==== Sys2Proof/Machine/Num.lean ====
section
/-!
DEFINITION. Number formats, exact values, the three rounding modes, the window sum and the accumulator-output
conversion's arithmetic (02, 03 R84-R87). Elements stand in a `Word`, short formats in its low bits.
-/

namespace Sys2Proof.Machine

/-! ### Flags (07 R209) -/

abbrev Flags := BitVec 5

def fInvalid : Flags := 1
def fOverflow : Flags := 2
def fUnderflow : Flags := 4
def fInexact : Flags := 8
def fAccSat : Flags := 16

/-- The flag if the condition holds. -/
def flagIf (c : Bool) (f : Flags) : Flags := if c then f else 0

/-! ### Formats (02 R38, R41, R42) -/

/-- A float format: mantissa bits, exponent bits, canonical NaN. The bias is 2^(eb - 1) - 1. -/
structure FFmt where
  m : Nat
  eb : Nat
  nan : Word
  deriving DecidableEq, Repr

def fmtF8A : FFmt := ⟨3, 4, 0x7C⟩
def fmtF8B : FFmt := ⟨2, 5, 0x7E⟩
def fmtF16H : FFmt := ⟨9, 6, 0x7F00⟩
def fmtF16L : FFmt := ⟨8, 7, 0x7FC0⟩
def fmtF32 : FFmt := ⟨23, 8, 0x7FC00000⟩

def FFmt.bias (f : FFmt) : Int := (2 ^ (f.eb - 1) : Nat) - 1
/-- All-ones exponent field. -/
def FFmt.emax (f : FFmt) : Nat := 2 ^ f.eb - 1
/-- Exponent of the minimum normal. -/
def FFmt.emin (f : FFmt) : Int := 1 - f.bias
/-- F32 flushes subnormals (02 R48). -/
def FFmt.flushes (f : FFmt) : Bool := f.m == 23
def FFmt.width (f : FFmt) : Nat := 1 + f.eb + f.m

/-- The float format of a code (02 R38); none for an integer or reserved code. -/
def floatFmt (c : Nat) : Option FFmt :=
  if c = 0 then some fmtF8A else if c = 1 then some fmtF8B else if c = 3 then some fmtF16H
  else if c = 4 then some fmtF16L else if c = 6 then some fmtF32 else none

/-- Width in bytes of a format (02 R38); 0 for a reserved code. -/
def fmtBytes (c : Nat) : Nat :=
  if c < 3 then 1 else if c < 6 then 2 else if c < 8 then 4 else 0

def fmtIsInt (c : Nat) : Bool := c == 2 || c == 5 || c == 7

/-! ### Exact values -/

/-- An exact value: NaN, an infinity, or ±man · 2^e. -/
inductive XR where
  | nan
  | inf (neg : Bool)
  | fin (neg : Bool) (man : Nat) (e : Int)
  deriving DecidableEq, Repr

def XR.isNan : XR → Bool | .nan => true | _ => false
def XR.isFin : XR → Bool | .fin .. => true | _ => false
def XR.isZero : XR → Bool | .fin _ m _ => m == 0 | _ => false

def XR.neg : XR → XR
  | .nan => .nan
  | .inf n => .inf (!n)
  | .fin n m e => .fin (!n) m e

def XR.abs : XR → XR
  | .nan => .nan
  | .inf _ => .inf false
  | .fin _ m e => .fin false m e

/-- IEEE 754 product, exact (02 R56, 07 R203). -/
def XR.mul : XR → XR → XR
  | .nan, _ => .nan
  | _, .nan => .nan
  | .inf a, .inf b => .inf (a != b)
  | .inf a, .fin b m _ => if m = 0 then .nan else .inf (a != b)
  | .fin a m _, .inf b => if m = 0 then .nan else .inf (a != b)
  | .fin a m e, .fin b n f => .fin (a != b) (m * n) (e + f)

/-- The signed integer of a finite value at scale 2^e0, for e0 no greater than its exponent. -/
def scaledInt (neg : Bool) (m : Nat) (e e0 : Int) : Int :=
  let v : Int := (m * 2 ^ (e - e0).toNat : Nat)
  if neg then -v else v

/-- IEEE 754 sum, exact; an exact zero from opposite signs is +0 (02 R46). -/
def XR.add : XR → XR → XR
  | .nan, _ => .nan
  | _, .nan => .nan
  | .inf a, .inf b => if a = b then .inf a else .nan
  | .inf a, .fin .. => .inf a
  | .fin .., .inf b => .inf b
  | .fin a m e, .fin b n f =>
    if m = 0 ∧ n = 0 then .fin (a && b) 0 0
    else
      let e0 := min e f
      let s := scaledInt a m e e0 + scaledInt b n f e0
      .fin (decide (s < 0)) s.natAbs e0

/-- Order of two finite or infinite values: -1, 0 or 1; none when a NaN is there (02 R46). -/
def XR.cmp : XR → XR → Option Int
  | .nan, _ => none
  | _, .nan => none
  | .inf a, .inf b => some (if a = b then 0 else if a then -1 else 1)
  | .inf a, .fin .. => some (if a then -1 else 1)
  | .fin .., .inf b => some (if b then 1 else -1)
  | .fin a m e, .fin b n f =>
    let e0 := min e f
    let d := scaledInt a m e e0 - scaledInt b n f e0
    some (if d < 0 then -1 else if d = 0 then 0 else 1)

def XR.signBit : XR → Bool
  | .nan => false
  | .inf n => n
  | .fin n _ _ => n

/-- IEEE 754-2019 maximum: NaN wins, +0 above -0 (02 R46). -/
def XR.max (a b : XR) : XR :=
  match XR.cmp a b with
  | none => .nan
  | some d => if d < 0 then b else if d > 0 then a else if a.signBit then b else a

/-- IEEE 754-2019 minimum. -/
def XR.min (a b : XR) : XR :=
  match XR.cmp a b with
  | none => .nan
  | some d => if d < 0 then a else if d > 0 then b else if a.signBit then a else b

def XR.ofInt (i : Int) : XR := .fin (decide (i < 0)) i.natAbs 0

/-! ### Reading elements -/

/-- Bits lo .. lo + n - 1 of a word. -/
def wbits (w : Word) (lo n : Nat) : Nat := (w.toNat >>> lo) % 2 ^ n

/-- The value of an encoding; F32 subnormals read as zeros of their sign (02 R41, R48). -/
def decodeF (f : FFmt) (w : Word) : XR :=
  let s := wbits w (f.eb + f.m) 1 == 1
  let e := wbits w f.m f.eb
  let m := wbits w 0 f.m
  if e = f.emax then (if m = 0 then .inf s else .nan)
  else if e = 0 then (if f.flushes then .fin s 0 0 else .fin s m (f.emin - f.m))
  else .fin s (2 ^ f.m + m) ((e : Int) - f.bias - f.m)

/-- Exponent e of an operand as the pass sum counts it: that of the minimum normal for a subnormal (03 R86). -/
def operandExp (f : FFmt) (w : Word) : Int :=
  let e := wbits w f.m f.eb
  if e = 0 then f.emin else (e : Int) - f.bias

/-- Two's complement or unsigned value of the low `bits` bits. -/
def decodeI (bits : Nat) (unsigned : Bool) (w : Word) : Int :=
  let v := w.toNat % 2 ^ bits
  if !unsigned && decide (v ≥ 2 ^ (bits - 1)) then (v : Int) - 2 ^ bits else v

/-- The value of an element of any format, under `unsigned` where the format is I8 or I16 (02 R43, R44). -/
def decodeAny (c : Nat) (unsigned : Bool) (w : Word) : XR :=
  match floatFmt c with
  | some f => decodeF f w
  | none => XR.ofInt (decodeI (8 * fmtBytes c) (unsigned && c != 7) w)

def f32 (w : Word) : XR := decodeF fmtF32 w
def i32 (w : Word) : Int := w.toInt

def isNan32 (w : Word) : Bool := (f32 w).isNan
def canonNan : Word := fmtF32.nan
/-- A stored F32 pattern read under R48 with NaNs made canonical (07 R199). -/
def canon32 (w : Word) : Word :=
  match f32 w with
  | .nan => canonNan
  | .fin n 0 _ => if n then 0x80000000 else 0
  | _ => w

/-! ### Rounding (02 R60, R61) -/

inductive Rnd where
  | rne
  | rtz
  | sr (b r : Nat)
  deriving DecidableEq, Repr

/-- Round num / den to a whole number; the second part says whether it was inexact. -/
def roundNat (rnd : Rnd) (num den : Nat) : Nat × Bool :=
  let q := num / den
  let r := num % den
  let up := match rnd with
    | .rne => decide (2 * r > den) || (decide (2 * r = den) && q % 2 == 1)
    | .rtz => false
    | .sr b x => decide (r * 2 ^ b / den + x ≥ 2 ^ b)
  (if up then q + 1 else q, r != 0)

/-- floor(log2(num / den)) for num, den > 0. -/
def log2Rat (num den : Nat) : Int :=
  let l : Int := (Nat.log2 num : Int) - Nat.log2 den
  let below := if l ≥ 0 then decide (num < den * 2 ^ l.toNat) else decide (num * 2 ^ (-l).toNat < den)
  if below then l - 1 else l

/-- A rounded result and what happened on the way. -/
structure Rounded where
  bits : Word
  overflow : Bool := false
  tiny : Bool := false
  flushed : Bool := false
  inexact : Bool := false
  invalid : Bool := false
  deriving DecidableEq, Repr

/-- Flags of a conversion (02 R52). -/
def Rounded.cvtFlags (r : Rounded) : Flags :=
  flagIf r.invalid fInvalid ||| flagIf r.overflow fOverflow ||| flagIf (r.tiny && r.inexact) fUnderflow |||
    flagIf r.inexact fInexact

def signBits (f : FFmt) (neg : Bool) : Nat := if neg then 2 ^ (f.eb + f.m) else 0

def infBits (f : FFmt) (neg : Bool) : Word := BitVec.ofNat 32 (signBits f neg + f.emax * 2 ^ f.m)
/-- Maximum finite of a sign. -/
def maxBits (f : FFmt) (neg : Bool) : Word := BitVec.ofNat 32 (signBits f neg + (f.emax * 2 ^ f.m - 1))
def zeroBits (f : FFmt) (neg : Bool) : Word := BitVec.ofNat 32 (signBits f neg)

/-- Round ±num/den · 2^e once to a float format (02 R50, R48, R60). Beyond max finite, RTZ gives max finite with inexact
alone: R50 says that its rounded magnitude never exceeds max finite. -/
def roundFloat (f : FFmt) (rnd : Rnd) (ovfInf : Bool) (neg : Bool) (num den : Nat) (e : Int) : Rounded :=
  if num = 0 then { bits := zeroBits f neg }
  else
    let ex := log2Rat num den + e
    let tiny := decide (ex < f.emin)
    let u := (if f.flushes then ex else max ex f.emin) - f.m
    let (q, inex) := if e - u ≥ 0 then roundNat rnd (num * 2 ^ (e - u).toNat) den
      else roundNat rnd num (den * 2 ^ (u - e).toNat)
    let carry := decide (q = 2 ^ (f.m + 1))
    let q' := if carry then 2 ^ f.m else q
    let u' := if carry then u + 1 else u
    let field : Int := u' + f.m + f.bias
    if field ≥ f.emax then
      if rnd = .rtz then { bits := maxBits f neg, inexact := true }
      else { bits := if ovfInf then infBits f neg else maxBits f neg, overflow := true, inexact := true }
    else if f.flushes && decide (field ≤ 0) then
      { bits := zeroBits f neg, tiny := true, flushed := true, inexact := true }
    else
      let normal := decide (q' ≥ 2 ^ f.m)
      let body := if normal then field.toNat * 2 ^ f.m + (q' - 2 ^ f.m) else q'
      { bits := BitVec.ofNat 32 (signBits f neg + body), tiny := tiny, inexact := inex }

/-- Limits of an integer format. -/
def intMin (bits : Nat) (unsigned : Bool) : Int := if unsigned then 0 else -(2 ^ (bits - 1) : Nat)
def intMax (bits : Nat) (unsigned : Bool) : Int := if unsigned then (2 ^ bits : Nat) - 1 else (2 ^ (bits - 1) : Nat) - 1

def intBits (bits : Nat) (v : Int) : Word := BitVec.ofNat 32 ((BitVec.ofInt bits v).toNat)

/-- Round to an integer destination and saturate (02 R51). -/
def roundInteger (bits : Nat) (unsigned : Bool) (rnd : Rnd) (neg : Bool) (num den : Nat) (e : Int) : Rounded :=
  let (q, inex) := if e ≥ 0 then roundNat rnd (num * 2 ^ e.toNat) den else roundNat rnd num (den * 2 ^ (-e).toNat)
  let v : Int := if neg then -(q : Int) else q
  if v < intMin bits unsigned then { bits := intBits bits (intMin bits unsigned), invalid := true, inexact := inex }
  else if v > intMax bits unsigned then { bits := intBits bits (intMax bits unsigned), invalid := true, inexact := inex }
  else { bits := intBits bits v, inexact := inex }

/-- Round ±num/den · 2^e to the format of a code (02 R50, R51). An integer result is never tiny (02 R52). -/
def roundRatTo (c : Nat) (unsigned ovfInf : Bool) (rnd : Rnd) (neg : Bool) (num den : Nat) (e : Int) : Rounded :=
  match floatFmt c with
  | some f => roundFloat f rnd ovfInf neg num den e
  | none => roundInteger (8 * fmtBytes c) (unsigned && c != 7) rnd neg num den e

/-- Round an exact value to the format of a code (02 R50, R51). -/
def roundTo (c : Nat) (unsigned ovfInf : Bool) (rnd : Rnd) (x : XR) : Rounded :=
  match x, floatFmt c with
  | .nan, some f => { bits := f.nan }
  | .inf n, some f => { bits := infBits f n }
  | .nan, none => { bits := 0, invalid := true }
  | .inf n, none =>
    let b := 8 * fmtBytes c
    { bits := intBits b (if n then intMin b (unsigned && c != 7) else intMax b (unsigned && c != 7)), invalid := true }
  | .fin n m e, _ => roundRatTo c unsigned ovfInf rnd n m 1 e

/-- Round an exact value to F32, RNE. -/
def rneF32 (ovfInf : Bool) (x : XR) : Rounded := roundTo 6 false ovfInf .rne x

/-! ### Stochastic rounding (02 R62) -/

def mix64 (x : BitVec 64) : BitVec 64 :=
  let x := x ^^^ (x >>> 29)
  let x := x * 0xC3A51E7B94D26F1B
  let x := x ^^^ (x >>> 31)
  let x := x * 0x8F2D6B49E5C71A37
  x ^^^ (x >>> 32)

/-- The top b bits of the generator's word. -/
def srRandom (seed : Dword) (core lane n b : Nat) : Nat :=
  let key := mix64 (seed ^^^ mix64 (BitVec.ofNat 64 (core * 65536 + lane)))
  (mix64 (key + BitVec.ofNat 64 n * 0x6C8E9CF570932BD5)).toNat >>> (64 - b)

/-! ### Pass sums and accumulation (03 R84-R87) -/

/-- A product of a pass: its exact value, its exponent e, and whether a NaN operand was read. -/
structure Prod where
  x : XR
  e : Int
  nanOperand : Bool
  deriving DecidableEq, Repr

def mkProd (fa : FFmt) (wa : Word) (fb : FFmt) (wb : Word) : Prod :=
  let a := decodeF fa wa
  let b := decodeF fb wb
  { x := a.mul b, e := operandExp fa wa + operandExp fb wb, nanOperand := a.isNan || b.isNan }

/-- Bring a finite product into the window with lowest weight 2^lo: magnitude bits below it are discarded. -/
def placeProd (lo : Int) : XR → Int
  | .fin n m e =>
    let v : Int := if e ≥ lo then (m * 2 ^ (e - lo).toNat : Nat) else (m / 2 ^ (lo - e).toNat : Nat)
    if n then -v else v
  | _ => 0

/-- The pass sum of float products; the second part says that a NaN was produced (03 R86). -/
def passSum (ps : List Prod) : XR × Bool :=
  if ps.any (·.nanOperand) then (.nan, false)
  else if ps.any (·.x.isNan) then (.nan, true)
  else
    let pInf := ps.any fun p => p.x == .inf false
    let nInf := ps.any fun p => p.x == .inf true
    if pInf && nInf then (.nan, true)
    else if pInf then (.inf false, false)
    else if nInf then (.inf true, false)
    else
      let nz := ps.filter fun p => !p.x.isZero
      match nz with
      | [] => (.fin (ps.all (·.x.signBit)) 0 0, false)
      | p :: rest =>
        let top := rest.foldl (fun m q => max m q.e) p.e
        let lo := top - 39
        let s := nz.foldl (fun a q => a + placeProd lo q.x) 0
        (.fin (decide (s < 0)) s.natAbs lo, false)

/-- acc + pass, rounded once to F32 (03 R87); the last part says that a NaN was produced here. -/
def accumulateF (acc : Word) (pass : XR) : Word × Flags × Bool :=
  let a := f32 acc
  let v := a.add pass
  let produced := v.isNan && !a.isNan && !pass.isNan
  let r := rneF32 true v
  (r.bits, flagIf produced fInvalid ||| flagIf r.overflow fOverflow ||| flagIf r.flushed (fUnderflow ||| fInexact), produced)

/-- Saturate to I32 (03 R87, 07 R203). -/
def satI32 (v : Int) : Word × Flags :=
  if v < -2147483648 then (0x80000000, fAccSat)
  else if v > 2147483647 then (0x7FFFFFFF, fAccSat)
  else (BitVec.ofInt 32 v, 0)

def accumulateI (acc : Word) (pass : Int) : Word × Flags := satI32 (i32 acc + pass)

/-- -0: the accumulator's start in overwrite mode (03 R87). -/
def negZero : Word := 0x80000000

end Sys2Proof.Machine
end

