-- ==== Sys2Proof/Machine/Trans.lean ====
section
/-!
DEFINITION. The transcendental operations of element programs (07 R205): the exact function in fixed point with 480
fraction bits, then one RNE rounding to F32. The results that R205 names exact or special are taken from its table.
The precision is a DESIGN CHOICE (entry 12): no F32 argument's result lies within 2^-200 of a rounding boundary.
-/

namespace Sys2Proof.Machine

/-- Fraction bits of the fixed point. -/
def fxP : Nat := 480

/-- Sum of term * x^i / (n (n+1) ...) from n on, `fuel` terms; `sq` is the factor between terms. -/
def expSeries (x : Nat) : Nat → Nat → Nat → Nat
  | 0, _, _ => 0
  | fuel + 1, n, term => term + expSeries x fuel (n + 1) (((term * x) >>> fxP) / (n + 1))

/-- e^x for x at scale 2^-P. -/
def fxExp (x : Nat) : Nat := expSeries x 260 0 (2 ^ fxP)

/-- Sum of z^(2i+1) / (2i+1): atanh z. -/
def atanhSeries (z2 : Nat) : Nat → Nat → Nat → Nat
  | 0, _, _ => 0
  | fuel + 1, n, p => p / n + atanhSeries z2 fuel (n + 2) ((p * z2) >>> fxP)

def fxAtanh (z : Nat) : Nat := atanhSeries ((z * z) >>> fxP) 170 1 z

/-- Sum of (-1)^i z^(2i+1) / (2i+1): atan z. -/
def atanSeries (z2 : Nat) : Nat → Nat → Nat → Bool → Int
  | 0, _, _, _ => 0
  | fuel + 1, n, p, neg => (if neg then -((p / n : Nat) : Int) else (p / n : Nat)) + atanSeries z2 fuel (n + 2) ((p * z2) >>> fxP) (!neg)

def fxAtanInv (k : Nat) : Int := let z := 2 ^ fxP / k; atanSeries ((z * z) >>> fxP) 110 1 z false

def fxLn2 : Nat := 2 * fxAtanh (2 ^ fxP / 3)
def fxPi : Nat := (16 * fxAtanInv 5 - 4 * fxAtanInv 239).toNat

/-- Newton's iteration for the integer square root, from above. -/
def isqrtGo (n : Nat) : Nat → Nat → Nat
  | 0, x => x
  | fuel + 1, x => let y := (x + n / x) / 2; if y < x then isqrtGo n fuel y else x

/-- floor(sqrt n). -/
def isqrt (n : Nat) : Nat := if n = 0 then 0 else isqrtGo n 64 (2 ^ (Nat.log2 n / 2 + 1))

/-- A value m · 2^e at scale 2^-P (exact for e ≥ -P). -/
def toFx (m : Nat) (e : Int) : Nat :=
  let t := e + fxP
  if t ≥ 0 then m * 2 ^ t.toNat else m / 2 ^ (-t).toNat

/-- Round a fixed-point magnitude, RNE, inexact by R205. -/
def fromFx (neg : Bool) (v : Nat) (e : Int) : Word × Flags :=
  let r := roundFloat fmtF32 .rne true neg v 1 (e - fxP)
  (r.bits, flagIf r.flushed fUnderflow ||| fInexact)

def opExp2 (w : Word) : Word × Flags :=
  match f32 w with
  | .nan => (canonNan, 0)
  | .inf n => if n then (0, 0) else (0x7F800000, 0)
  | .fin neg m e =>
    if m = 0 then (0x3F800000, 0)
    else if !neg && decide (XR.cmp (f32 w) (XR.ofInt 128) ≠ some (-1)) then (0x7F800000, fOverflow ||| fInexact)
    else if XR.cmp (f32 w) (XR.ofInt (-126)) = some (-1) then (0, fUnderflow)
    else
      let a : Int := if neg then -(toFx m e : Int) else toFx m e
      let n := a / (2 ^ fxP : Nat)
      let f := (a % (2 ^ fxP : Nat)).toNat
      if f = 0 then ((roundFloat fmtF32 .rne true false 1 1 n).bits, 0)
      else fromFx false (fxExp ((f * fxLn2) >>> fxP)) n

def opLog2 (w : Word) : Word × Flags :=
  match f32 w with
  | .nan => (canonNan, 0)
  | .inf n => if n then (canonNan, fInvalid) else (0x7F800000, 0)
  | .fin neg m e =>
    if m = 0 then (0xFF800000, 0)
    else if neg then (canonNan, fInvalid)
    else
      let k := Nat.log2 m
      if m = 2 ^ k then ((rneF32 true (XR.ofInt (e + k))).bits, 0)
      else
        let z := (m - 2 ^ k) * 2 ^ fxP / (m + 2 ^ k)
        let v : Int := (e + k) * (2 ^ fxP : Nat) + (2 * fxAtanh z * 2 ^ fxP / fxLn2 : Nat)
        fromFx (decide (v < 0)) v.natAbs 0

def opRcp (w : Word) : Word × Flags :=
  match f32 w with
  | .nan => (canonNan, 0)
  | .inf n => (zeroBits fmtF32 n, 0)
  | .fin neg m e =>
    if m = 0 then (infBits fmtF32 neg, 0)
    else
      let r := roundFloat fmtF32 .rne true neg 1 m (-e)
      (r.bits, flagIf r.flushed fUnderflow ||| flagIf r.inexact fInexact)

def opRsqrt (w : Word) : Word × Flags :=
  match f32 w with
  | .nan => (canonNan, 0)
  | .inf n => if n then (canonNan, fInvalid) else (0, 0)
  | .fin neg m e =>
    if m = 0 then (infBits fmtF32 neg, 0)
    else if neg then (canonNan, fInvalid)
    else
      let even := decide (e % 2 = 0)
      let m2 := if even then m else 2 * m
      let e2 := if even then e else e - 1
      let root := isqrt m2
      if root * root = m2 ∧ root = 2 ^ Nat.log2 root then
        ((roundFloat fmtF32 .rne true false 1 root (-(e2 / 2))).bits, 0)
      else fromFx false (isqrt (2 ^ (2 * fxP) / m2)) (-(e2 / 2))

/-- Apply an odd function's magnitude to ±a with its sign. -/
def oddFlip (neg : Bool) (r : Word × Flags) : Word × Flags :=
  if neg then (r.1 ^^^ 0x80000000, r.2) else r

def opTanh (w : Word) : Word × Flags :=
  match f32 w with
  | .nan => (canonNan, 0)
  | .inf n => oddFlip n (0x3F800000, 0)
  | .fin neg m e =>
    if m = 0 then (zeroBits fmtF32 neg, 0)
    else if XR.cmp (.fin false (10 * m) e) (XR.ofInt 91) ≠ some (-1) then oddFlip neg (0x3F800000, 0)
    else
      let y := fxExp (2 * toFx m e)
      oddFlip neg (fromFx false ((y - 2 ^ fxP) * 2 ^ fxP / (y + 2 ^ fxP)) 0)

/-- Sum of (-1)^i x^(2i+1) / (i! (2i+1)); `p` is x^(2i+1) / i!. -/
def erfSeries (x2 : Nat) : Nat → Nat → Nat → Bool → Int
  | 0, _, _, _ => 0
  | fuel + 1, i, p, neg =>
    (if neg then -((p / (2 * i + 1) : Nat) : Int) else (p / (2 * i + 1) : Nat)) +
      erfSeries x2 fuel (i + 1) (((p * x2) >>> fxP) / (i + 1)) (!neg)

def opErf (w : Word) : Word × Flags :=
  match f32 w with
  | .nan => (canonNan, 0)
  | .inf n => oddFlip n (0x3F800000, 0)
  | .fin neg m e =>
    if m = 0 then (zeroBits fmtF32 neg, 0)
    else if XR.cmp (.fin false (100 * m) e) (XR.ofInt 392) ≠ some (-1) then oddFlip neg (0x3F800000, 0)
    else
      let x := toFx m e
      let s := (erfSeries ((x * x) >>> fxP) 240 0 x false).toNat
      oddFlip neg (fromFx false (2 * s * 2 ^ fxP / isqrt (fxPi * 2 ^ fxP)) 0)

end Sys2Proof.Machine
end

