-- ==== Sys2Proof/Machine/Elem.lean ====
section
/-!
DEFINITION. Element programs (07 R201-R205), the cross-lane tree (07 R207, R208) and the conversion control word
(02 R53-R56).
-/

namespace Sys2Proof.Machine

/-- The intermediate formats imf of 06 R170 as format codes: F32, F16H, F16L, F8A, F8B. -/
def imfCode (imf : Nat) : Nat :=
  if imf = 0 then 6 else if imf = 1 then 3 else if imf = 2 then 4 else if imf = 3 then 0 else 1

/-! ### Operation words (07 R202, R203) -/

structure EOp where
  op : Nat
  dst : Nat
  sa : Nat
  sb : Nat
  sc : Nat
  sub : Nat
  rtz : Bool
  ovf : Bool
  deriving DecidableEq, Repr

/-- How many sources an operation uses; none for a reserved operation. -/
def eopSources (op : Nat) : Option Nat :=
  if op = 0 ∨ op = 7 ∨ op = 8 ∨ (0x10 ≤ op ∧ op ≤ 0x15) ∨ (0x30 ≤ op ∧ op ≤ 0x32) then some 1
  else if op = 4 ∨ op = 0x1A then some 3
  else if op ≤ 6 ∨ op = 0x18 ∨ op = 0x19 ∨ (0x20 ≤ op ∧ op ≤ 0x2A) then some 2
  else none

/-- Whether `sub` is a value the operation takes; 0 where it takes none. -/
def eopSubOk (op sub : Nat) : Bool :=
  if op = 0x18 then decide (sub ≤ 6) else if op = 0x19 then decide (sub ≤ 5)
  else if op = 0x32 then decide (sub ≤ 4) else sub == 0

/-- An operation word that breaks no rule of R202, R203, R214. -/
def parseEOp (w : Word) : Option EOp :=
  let o : EOp := { op := wbits w 26 6, dst := wbits w 23 3, sa := wbits w 19 4, sb := wbits w 15 4, sc := wbits w 11 4,
                   sub := wbits w 8 3, rtz := wbits w 7 1 == 1, ovf := wbits w 6 1 == 1 }
  match eopSources o.op with
  | none => none
  | some n =>
    if eopSubOk o.op o.sub && (decide (n ≥ 2) || o.sb == 0) && (decide (n ≥ 3) || o.sc == 0) &&
        (o.op == 0x30 || o.op == 0x32 || !o.rtz) && (o.op == 0x32 || !o.ovf) && wbits w 0 6 == 0
    then some o else none

/-- An element program (07 R201). -/
structure EProg where
  out : Nat
  outI32 : Bool
  taI32 : Bool
  tbI32 : Bool
  consts : List Word
  ops : List EOp
  deriving DecidableEq, Repr

/-- Parse the 48 words of an element-program descriptor; none is E_DESC (07 R214). -/
def parseElem (ws : List Word) : Option EProg :=
  let w0 := ws.getD 0 0
  let n := wbits w0 11 5 + 1
  let opw := (ws.drop 16).take n
  let ops := opw.filterMap parseEOp
  if wbits w0 28 4 = 9 ∧ wbits w0 16 12 = 3 ∧ wbits w0 0 5 = 0 ∧ ((ws.drop 9).take 7).all (· == 0) ∧
      ((ws.drop (16 + n)).take (32 - n)).all (· == 0) ∧ ops.length = n then
    some { out := wbits w0 8 3, outI32 := wbits w0 7 1 == 1, taI32 := wbits w0 6 1 == 1, tbI32 := wbits w0 5 1 == 1,
           consts := (ws.drop 1).take 8, ops := ops }
  else none

def EOp.reads (o : EOp) (h : Nat) : Bool :=
  match eopSources o.op with
  | some 1 => o.sa == h
  | some 2 => o.sa == h || o.sb == h
  | some _ => o.sa == h || o.sb == h || o.sc == h
  | none => false

/-- Some operation reads register h (07 R201). -/
def EProg.reads (p : EProg) (h : Nat) : Bool := p.ops.any (·.reads h)

/-- A float result of an element operation: rounded once, RNE, with the flags of R52. A magnitude beyond max finite has
no overflow mode in R203: `Config.elementOverflowInf` (entry 11). -/
def elemFloat (x : XR) (operandNan : Bool) : Word × Flags :=
  let r := rneF32 Config.elementOverflowInf x
  (r.bits, r.cvtFlags ||| flagIf (x.isNan && !operandNan) fInvalid)

/-- A comparison (07 R203); an unordered pair satisfies NE and UN only (02 R46). -/
def cmpHolds (sub : Nat) (c : Option Int) : Bool :=
  match c with
  | none => sub == 1 || sub == 6
  | some d =>
    if sub = 0 then decide (d = 0) else if sub = 1 then decide (d ≠ 0) else if sub = 2 then decide (d < 0)
    else if sub = 3 then decide (d ≤ 0) else if sub = 4 then decide (d > 0) else if sub = 5 then decide (d ≥ 0) else false

def boolWord (b : Bool) : Word := if b then 1 else 0

/-- One operation on its sources (07 R203, R205). -/
def evalEOp (o : EOp) (a b c : Word) : Word × Flags :=
  let x := f32 a
  let y := f32 b
  let i := i32 a
  let j := i32 b
  let sh := b.toNat % 32
  match o.op with
  | 0x00 => (a, 0)
  | 0x01 => elemFloat (x.add y) (x.isNan || y.isNan)
  | 0x02 => elemFloat (x.add y.neg) (x.isNan || y.isNan)
  | 0x03 => elemFloat (x.mul y) (x.isNan || y.isNan)
  | 0x04 => elemFloat ((x.mul y).add (f32 c)) (x.isNan || y.isNan || (f32 c).isNan)
  | 0x05 => ((rneF32 true (x.max y)).bits, 0)
  | 0x06 => ((rneF32 true (x.min y)).bits, 0)
  | 0x07 => ((rneF32 true x.abs).bits, 0)
  | 0x08 => ((rneF32 true x.neg).bits, 0)
  | 0x10 => opExp2 a
  | 0x11 => opLog2 a
  | 0x12 => opRcp a
  | 0x13 => opRsqrt a
  | 0x14 => opTanh a
  | 0x15 => opErf a
  | 0x18 => (boolWord (cmpHolds o.sub (x.cmp y)), 0)
  | 0x19 => (boolWord (cmpHolds o.sub (some (i - j))), 0)
  | 0x1A => (if c = 0 then b else a, 0)
  | 0x20 => satI32 (i + j)
  | 0x21 => satI32 (i - j)
  | 0x22 => satI32 (i * j)
  | 0x23 => (if i < j then b else a, 0)
  | 0x24 => (if i < j then a else b, 0)
  | 0x25 => (a &&& b, 0)
  | 0x26 => (a ||| b, 0)
  | 0x27 => (a ^^^ b, 0)
  | 0x28 => (a <<< sh, 0)
  | 0x29 => (a >>> sh, 0)
  | 0x2A => (a.sshiftRight sh, 0)
  | 0x30 => let r := roundTo 7 false false (if o.rtz then .rtz else .rne) x; (r.bits, r.cvtFlags)
  | 0x31 => let r := rneF32 Config.elementOverflowInf (XR.ofInt i); (r.bits, flagIf r.inexact fInexact)
  | 0x32 =>
    let f := imfCode o.sub
    let r := roundTo f false o.ovf (if o.rtz then .rtz else .rne) x
    ((rneF32 true (decodeAny f false r.bits)).bits, r.cvtFlags)
  | _ => (0, 0)

/-- Whether an operation's result and sources are floats, for the NaN trap (07 R211). -/
def eopIsFloat (op : Nat) : Bool := decide (1 ≤ op ∧ op ≤ 8) || decide (0x10 ≤ op ∧ op ≤ 0x15) || op == 0x32

/-- Running state of an element: h0-h7, flags, and whether an operation produced a NaN. -/
structure ElemSt where
  h : List Word
  flags : Flags := 0
  produced : Bool := false
  deriving DecidableEq, Repr

def elemSrc (p : EProg) (h : List Word) (i : Nat) : Word :=
  if i < 8 then h.getD i 0 else p.consts.getD (i - 8) 0

def elemStep (p : EProg) (st : ElemSt) (o : EOp) : ElemSt :=
  let a := elemSrc p st.h o.sa
  let b := elemSrc p st.h o.sb
  let c := elemSrc p st.h o.sc
  let r := evalEOp o a b c
  let n := (eopSources o.op).getD 0
  let nanIn := isNan32 a || (decide (n ≥ 2) && isNan32 b) || (decide (n ≥ 3) && isNan32 c)
  { h := st.h.set o.dst r.1, flags := st.flags ||| r.2,
    produced := st.produced || (eopIsFloat o.op && isNan32 r.1 && !nanIn) }

/-- Run an element program on one element (07 R204): result, flags, produced NaN. -/
def runElem (p : EProg) (h0 h1 h2 h3 : Word) : Word × Flags × Bool :=
  let st := p.ops.foldl (elemStep p) { h := [h0, h1, h2, h3, 0, 0, 0, 0] }
  (st.h.getD p.out 0, st.flags, st.produced)

/-- Number of transcendental operations (07 R212). -/
def EProg.trans (p : EProg) : Nat := (p.ops.filter fun o => decide (0x10 ≤ o.op ∧ o.op ≤ 0x15)).length

/-! ### Reductions (07 R207, R208) -/

/-- One level of the tree: neighbours combined in index order. -/
def treeLevel {α : Type} (op : α → α → α) : List α → List α
  | a :: b :: t => op a b :: treeLevel op t
  | l => l

def treeGo {α : Type} (op : α → α → α) : Nat → List α → List α
  | 0, l => l
  | fuel + 1, l => treeGo op fuel (treeLevel op l)

/-- The fixed tree over 32 values. -/
def tree32 {α : Type} (d : α) (op : α → α → α) (v : List α) : α := (treeGo op 5 v).headD d

/-- A partial reduction: value, flags, produced NaN. -/
abbrev RedVal := Word × Flags × Bool

def redSum (isI32 : Bool) (a b : RedVal) : RedVal :=
  if isI32 then
    let r := satI32 (i32 a.1 + i32 b.1)
    (r.1, a.2.1 ||| b.2.1 ||| r.2, false)
  else
    let x := f32 a.1
    let y := f32 b.1
    let r := elemFloat (x.add y) (x.isNan || y.isNan)
    (r.1, a.2.1 ||| b.2.1 ||| r.2, a.2.2 || b.2.2 || (isNan32 r.1 && !x.isNan && !y.isNan))

def redMax (isI32 isMin : Bool) (a b : RedVal) : RedVal :=
  if isI32 then (if decide (i32 a.1 < i32 b.1) != isMin then b else a)
  else
    let x := f32 a.1
    let y := f32 b.1
    ((rneF32 true (if isMin then x.min y else x.max y)).bits, 0, false)

/-- argmax prefers a NaN, then the greater value, then the lower index (07 R207). -/
def argBetter (isI32 : Bool) (a b : Word × Nat) : Word × Nat :=
  if isI32 then (if i32 a.1 < i32 b.1 then b else a)
  else if isNan32 a.1 then a
  else if isNan32 b.1 then b
  else if (f32 a.1).cmp (f32 b.1) = some (-1) then b else a

/-- Reduce 32 values: result, flags, produced NaN. -/
def vredLine (rop : RedOp) (isI32 : Bool) (vs : List Word) : RedVal :=
  let ws := vs.map fun w => (w, (0 : Flags), false)
  match rop with
  | .sum => tree32 (0, 0, false) (redSum isI32) ws
  | .max => tree32 (0, 0, false) (redMax isI32 false) ws
  | .min => tree32 (0, 0, false) (redMax isI32 true) ws
  | .argmax =>
    let r := tree32 (0, 0) (argBetter isI32) (vs.zip (List.range 32))
    (BitVec.ofNat 32 r.2, 0, false)

/-! ### The conversion control word (02 R53) -/

/-- Rounding selection of a control word. -/
inductive RndSel where
  | rne | rtz | sr (b : Nat)
  deriving DecidableEq, Repr

structure Cvt where
  dst : Nat
  uns : Bool
  rnd : RndSel
  ovf : Bool
  scale : Nat
  bias : Bool
  clip : Bool
  newScale : Nat
  deriving DecidableEq, Repr

/-- Read a control word, or the code that rejects it (02 R38, R54). -/
def parseCvt (w : Word) : Except Code Cvt :=
  let dst := wbits w 28 4
  let rnd := wbits w 25 2
  let sb := wbits w 21 4
  let c : Cvt := { dst := dst, uns := wbits w 27 1 == 1,
                   rnd := if rnd = 0 then .rne else if rnd = 1 then .rtz else .sr (if sb = 0 then 8 else sb),
                   ovf := wbits w 20 1 == 1, scale := wbits w 18 2, bias := wbits w 17 1 == 1,
                   clip := wbits w 16 1 == 1, newScale := wbits w 14 2 }
  if dst ≥ 8 then .error eFmtReserved
  else if rnd = 3 ∨ c.newScale = 3 ∨ sb ≥ 13 ∨ (sb ≠ 0 ∧ rnd ≠ 2) ∨ (c.uns = true ∧ dst ≠ 2 ∧ dst ≠ 5) ∨
      (c.ovf = true ∧ fmtIsInt dst = true) ∨ (c.newScale ≠ 0 ∧ dst ≠ 0 ∧ dst ≠ 1 ∧ dst ≠ 2) ∨
      (c.clip = true ∧ c.newScale ≠ 0) ∨ wbits w 0 14 ≠ 0 then .error eCvtField
  else .ok c

/-- The rounding of one element: SR draws the lane's next number (02 R62). -/
def RndSel.draw (r : RndSel) (seed : Dword) (core lane : Nat) (counter : BitVec 48) : Rnd :=
  match r with
  | .rne => .rne
  | .rtz => .rtz
  | .sr b => .sr b (srRandom seed core lane counter.toNat b)

def RndSel.isSr : RndSel → Bool | .sr _ => true | _ => false

/-- Clip bounds: neither NaN, lo ≤ hi, each exact in the destination (02 R55). -/
def clipOk (c : Cvt) (lo hi : Word) : Bool :=
  let ex (w : Word) : Bool :=
    let r := roundTo c.dst c.uns false .rne (f32 w)
    !(f32 w).isNan && !r.inexact && !r.overflow && !r.invalid
  ex lo && ex hi && (match (f32 lo).cmp (f32 hi) with | some d => decide (d ≤ 0) | none => false)

/-- Steps 2 to 4 of R56 on the exact value: bits and flags. `lo`, `hi` are used when clip_en is set. -/
def convertExact (c : Cvt) (rnd : Rnd) (v : XR) (lo hi : Word) : Word × Flags :=
  let r := roundTo c.dst c.uns c.ovf rnd v
  let cl (b : Word) : Word := (roundTo c.dst c.uns false .rne (f32 b)).bits
  let out :=
    if c.clip && !(decodeAny c.dst c.uns r.bits).isNan then
      if (decodeAny c.dst c.uns r.bits).cmp (f32 lo) = some (-1) then cl lo
      else if (decodeAny c.dst c.uns r.bits).cmp (f32 hi) = some 1 then cl hi
      else r.bits
    else r.bits
  (out, r.cvtFlags)

end Sys2Proof.Machine
end

