-- ==== Sys2Proof/Machine/Sparse.lean ====
section
/-!
DEFINITION. Sparse tables: a key that is not listed reads as the default; a write keeps the keys strictly rising and
lists no entry equal to the default, so that equal tables are equal data.
-/

namespace Sys2Proof.Machine

/-- The value at a key. -/
def sget {α : Type} (d : α) : Sparse α → Nat → α
  | [], _ => d
  | (j, v) :: t, k => if j = k then v else sget d t k

/-- Put a value at a key, in its place among rising keys. -/
def sput {α : Type} : Sparse α → Nat → α → Sparse α
  | [], k, v => [(k, v)]
  | (j, w) :: t, k, v => if k < j then (k, v) :: (j, w) :: t else if k = j then (k, v) :: t else (j, w) :: sput t k v

/-- Write the value at a key. Writing the default removes the entry. -/
def sset {α : Type} [DecidableEq α] (d : α) (t : Sparse α) (k : Nat) (v : α) : Sparse α :=
  if v = d then t.filter fun e => e.1 != k else sput t k v

/-- Change the value at a key. -/
def smod {α : Type} [DecidableEq α] (d : α) (t : Sparse α) (k : Nat) (f : α → α) : Sparse α :=
  sset d t k (f (sget d t k))

/-- Every key is at or above `lo` and the keys rise, and no value is the default. -/
def swfFrom {α : Type} [DecidableEq α] (d : α) : Nat → Sparse α → Bool
  | _, [] => true
  | lo, (j, v) :: t => decide (lo ≤ j) && decide (v ≠ d) && swfFrom d (j + 1) t

/-- The canonical form. -/
def swf {α : Type} [DecidableEq α] (d : α) (t : Sparse α) : Bool := swfFrom d 0 t

/-- `n` values from key `k`. -/
def sread {α : Type} (d : α) (t : Sparse α) (k n : Nat) : List α :=
  (List.range n).map fun i => sget d t (k + i)

/-- Write values from key `k` on. -/
def swrite {α : Type} [DecidableEq α] (d : α) : Sparse α → Nat → List α → Sparse α
  | t, _, [] => t
  | t, k, v :: vs => swrite d (sset d t k v) (k + 1) vs

/-- Put every key of a range back to the default. -/
def sclear {α : Type} (t : Sparse α) (k n : Nat) : Sparse α :=
  t.filter fun e => !(decide (k ≤ e.1) && decide (e.1 < k + n))

end Sys2Proof.Machine
end

