-- ==== Sys2Proof/Machine/Hash.lean ====
section
/-!
DEFINITION. The digests and cyclic codes that the spec names: SHA-256 and SHA-384 (FIPS 180-4: 10 R299, 15 R440, R454,
17 R501), the burst code (08 R220), CRC-32C (11 R313) and the shadow signature (14 R423). The constants of the SHA
functions and the bit order of CRC-32C come from their standards: PRESUMED, entry 17.
-/

namespace Sys2Proof.Machine

/-- Round constants of SHA-256. -/
def sha256K : List (BitVec 32) :=
  [0x428A2F98, 0x71374491, 0xB5C0FBCF, 0xE9B5DBA5, 0x3956C25B, 0x59F111F1, 0x923F82A4, 0xAB1C5ED5] ++
  [0xD807AA98, 0x12835B01, 0x243185BE, 0x550C7DC3, 0x72BE5D74, 0x80DEB1FE, 0x9BDC06A7, 0xC19BF174] ++
  [0xE49B69C1, 0xEFBE4786, 0x0FC19DC6, 0x240CA1CC, 0x2DE92C6F, 0x4A7484AA, 0x5CB0A9DC, 0x76F988DA] ++
  [0x983E5152, 0xA831C66D, 0xB00327C8, 0xBF597FC7, 0xC6E00BF3, 0xD5A79147, 0x06CA6351, 0x14292967] ++
  [0x27B70A85, 0x2E1B2138, 0x4D2C6DFC, 0x53380D13, 0x650A7354, 0x766A0ABB, 0x81C2C92E, 0x92722C85] ++
  [0xA2BFE8A1, 0xA81A664B, 0xC24B8B70, 0xC76C51A3, 0xD192E819, 0xD6990624, 0xF40E3585, 0x106AA070] ++
  [0x19A4C116, 0x1E376C08, 0x2748774C, 0x34B0BCB5, 0x391C0CB3, 0x4ED8AA4A, 0x5B9CCA4F, 0x682E6FF3] ++
  [0x748F82EE, 0x78A5636F, 0x84C87814, 0x8CC70208, 0x90BEFFFA, 0xA4506CEB, 0xBEF9A3F7, 0xC67178F2]

/-- Round constants of SHA-384. -/
def sha512K : List (BitVec 64) :=
  [0x428A2F98D728AE22, 0x7137449123EF65CD, 0xB5C0FBCFEC4D3B2F, 0xE9B5DBA58189DBBC, 0x3956C25BF348B538, 0x59F111F1B605D019, 0x923F82A4AF194F9B, 0xAB1C5ED5DA6D8118] ++
  [0xD807AA98A3030242, 0x12835B0145706FBE, 0x243185BE4EE4B28C, 0x550C7DC3D5FFB4E2, 0x72BE5D74F27B896F, 0x80DEB1FE3B1696B1, 0x9BDC06A725C71235, 0xC19BF174CF692694] ++
  [0xE49B69C19EF14AD2, 0xEFBE4786384F25E3, 0x0FC19DC68B8CD5B5, 0x240CA1CC77AC9C65, 0x2DE92C6F592B0275, 0x4A7484AA6EA6E483, 0x5CB0A9DCBD41FBD4, 0x76F988DA831153B5] ++
  [0x983E5152EE66DFAB, 0xA831C66D2DB43210, 0xB00327C898FB213F, 0xBF597FC7BEEF0EE4, 0xC6E00BF33DA88FC2, 0xD5A79147930AA725, 0x06CA6351E003826F, 0x142929670A0E6E70] ++
  [0x27B70A8546D22FFC, 0x2E1B21385C26C926, 0x4D2C6DFC5AC42AED, 0x53380D139D95B3DF, 0x650A73548BAF63DE, 0x766A0ABB3C77B2A8, 0x81C2C92E47EDAEE6, 0x92722C851482353B] ++
  [0xA2BFE8A14CF10364, 0xA81A664BBC423001, 0xC24B8B70D0F89791, 0xC76C51A30654BE30, 0xD192E819D6EF5218, 0xD69906245565A910, 0xF40E35855771202A, 0x106AA07032BBD1B8] ++
  [0x19A4C116B8D2D0C8, 0x1E376C085141AB53, 0x2748774CDF8EEB99, 0x34B0BCB5E19B48A8, 0x391C0CB3C5C95A63, 0x4ED8AA4AE3418ACB, 0x5B9CCA4F7763E373, 0x682E6FF3D6B2B8A3] ++
  [0x748F82EE5DEFB2FC, 0x78A5636F43172F60, 0x84C87814A1F0AB72, 0x8CC702081A6439EC, 0x90BEFFFA23631E28, 0xA4506CEBDE82BDE9, 0xBEF9A3F7B2C67915, 0xC67178F2E372532B] ++
  [0xCA273ECEEA26619C, 0xD186B8C721C0C207, 0xEADA7DD6CDE0EB1E, 0xF57D4F7FEE6ED178, 0x06F067AA72176FBA, 0x0A637DC5A2C898A6, 0x113F9804BEF90DAE, 0x1B710B35131C471B] ++
  [0x28DB77F523047D84, 0x32CAAB7B40C72493, 0x3C9EBE0A15C9BEBC, 0x431D67C49C100D4C, 0x4CC5D4BECB3E42B6, 0x597F299CFC657E2A, 0x5FCB6FAB3AD6FAEC, 0x6C44198C4A475817]

/-- Initial hash value of SHA-256. -/
def sha256H : List (BitVec 32) :=
  [0x6A09E667, 0xBB67AE85, 0x3C6EF372, 0xA54FF53A, 0x510E527F, 0x9B05688C, 0x1F83D9AB, 0x5BE0CD19]

/-- Initial hash value of SHA-384. -/
def sha384H : List (BitVec 64) :=
  [0xCBBB9D5DC1059ED8, 0x629A292A367CD507, 0x9159015A3070DD17, 0x152FECD8F70E5939, 0x67332667FFC00B31, 0x8EB44A8768581511, 0xDB0C2E0D64F98FA7, 0x47B5481DBEFA4FA4]

/-- The rotation and shift amounts of one SHA-2 function: two big sigmas and two small ones (the last is a shift). -/
structure ShaAmounts where
  s0 : Nat × Nat × Nat
  s1 : Nat × Nat × Nat
  g0 : Nat × Nat × Nat
  g1 : Nat × Nat × Nat

def sha256Amounts : ShaAmounts := ⟨(2, 13, 22), (6, 11, 25), (7, 18, 3), (17, 19, 10)⟩
def sha512Amounts : ShaAmounts := ⟨(28, 34, 39), (14, 18, 41), (1, 8, 7), (19, 61, 6)⟩

def rot3 {w : Nat} (x : BitVec w) (r : Nat × Nat × Nat) : BitVec w :=
  x.rotateRight r.1 ^^^ x.rotateRight r.2.1 ^^^ x.rotateRight r.2.2

def rotShift {w : Nat} (x : BitVec w) (r : Nat × Nat × Nat) : BitVec w :=
  x.rotateRight r.1 ^^^ x.rotateRight r.2.1 ^^^ (x >>> r.2.2)

/-- Extend the message schedule: the window holds the last 16 words, oldest first. -/
def shaSchedule {w : Nat} (am : ShaAmounts) : Nat → List (BitVec w) → List (BitVec w)
  | 0, _ => []
  | n + 1, win =>
    match win with
    | [] => []
    | x :: rest =>
      let y := rotShift (win.getD 14 0) am.g1 + win.getD 9 0 + rotShift (win.getD 1 0) am.g0 + x
      x :: shaSchedule am n (rest ++ [y])

structure ShaRegs (w : Nat) where
  a : BitVec w
  b : BitVec w
  c : BitVec w
  d : BitVec w
  e : BitVec w
  f : BitVec w
  g : BitVec w
  h : BitVec w

def shaRound {w : Nat} (am : ShaAmounts) (r : ShaRegs w) (kw : BitVec w × BitVec w) : ShaRegs w :=
  let t1 := r.h + rot3 r.e am.s1 + ((r.e &&& r.f) ^^^ (~~~r.e &&& r.g)) + kw.1 + kw.2
  let t2 := rot3 r.a am.s0 + ((r.a &&& r.b) ^^^ (r.a &&& r.c) ^^^ (r.b &&& r.c))
  { a := t1 + t2, b := r.a, c := r.b, d := r.c, e := r.d + t1, f := r.e, g := r.f, h := r.g }

def shaRegsOf {w : Nat} (l : List (BitVec w)) : ShaRegs w :=
  { a := l.getD 0 0, b := l.getD 1 0, c := l.getD 2 0, d := l.getD 3 0, e := l.getD 4 0, f := l.getD 5 0,
    g := l.getD 6 0, h := l.getD 7 0 }

def ShaRegs.toList {w : Nat} (r : ShaRegs w) : List (BitVec w) := [r.a, r.b, r.c, r.d, r.e, r.f, r.g, r.h]

/-- Fold one block of 16 words into the hash. -/
def shaBlock {w : Nat} (am : ShaAmounts) (ks : List (BitVec w)) (h : List (BitVec w)) (block : List (BitVec w)) : List (BitVec w) :=
  let ws := shaSchedule am ks.length block
  let r := (ks.zip ws).foldl (shaRound am) (shaRegsOf h)
  (h.zip r.toList).map fun p => p.1 + p.2

/-- Big-endian words of `n` bytes each. -/
def beWords (w n : Nat) : Nat → List Byte → List (BitVec w)
  | 0, _ => []
  | fuel + 1, bs =>
    match bs with
    | [] => []
    | _ => BitVec.ofNat w ((bs.take n).foldl (fun a b => a * 256 + b.toNat) 0) :: beWords w n fuel (bs.drop n)

def beBytes (n v : Nat) : List Byte := (List.range n).map fun i => BitVec.ofNat 8 (v >>> (8 * (n - 1 - i)))

/-- FIPS 180-4 padding to blocks of `blk` bytes with a length field of `lenBytes`. -/
def shaPad (blk lenBytes : Nat) (msg : List Byte) : List Byte :=
  let l := msg.length
  let z := (blk - (l + 1 + lenBytes) % blk) % blk
  msg ++ [0x80] ++ List.replicate z 0 ++ beBytes lenBytes (8 * l)

def shaBlocks {w : Nat} (am : ShaAmounts) (ks : List (BitVec w)) : Nat → List (BitVec w) → List (BitVec w) → List (BitVec w)
  | 0, h, _ => h
  | fuel + 1, h, ws =>
    match ws with
    | [] => h
    | _ => shaBlocks am ks fuel (shaBlock am ks h (ws.take 16)) (ws.drop 16)

def sha256 (msg : List Byte) : List Byte :=
  let p := shaPad 64 8 msg
  let ws := beWords 32 4 p.length p
  ((shaBlocks sha256Amounts sha256K ws.length sha256H ws).map fun x => beBytes 4 x.toNat).flatten

def sha384 (msg : List Byte) : List Byte :=
  let p := shaPad 128 16 msg
  let ws := beWords 64 8 p.length p
  (((shaBlocks sha512Amounts sha512K ws.length sha384H ws).take 6).map fun x => beBytes 8 x.toNat).flatten

/-- One bit of a cyclic code of width w, most significant bit first. -/
def crcBit {w : Nat} (poly : BitVec w) (c : BitVec w) : BitVec w :=
  if c.msb then (c <<< 1) ^^^ poly else c <<< 1

def crcByte {w : Nat} (poly : BitVec w) (c : BitVec w) (b : Byte) : BitVec w :=
  (List.range 8).foldl (fun c _ => crcBit poly c) (c ^^^ (b.setWidth w <<< (w - 8)))

/-- The burst code over 32 data bytes and physical-address bits [36:5], big-endian (08 R220). -/
def burstCrc (data : List Byte) (burst : Nat) : BitVec 16 :=
  (data ++ beBytes 4 burst).foldl (crcByte 0x1021) 0xFFFF

/-- CRC-64 of the shadow signature (14 R423). -/
def crc64 (data : List Byte) : BitVec 64 := data.foldl (crcByte 0x42F0E1EBA9EA3693) 0

def crc32cByte (c : BitVec 32) (b : Byte) : BitVec 32 :=
  (List.range 8).foldl (fun c _ => if c.getLsbD 0 then (c >>> 1) ^^^ 0x82F63B78 else c >>> 1) (c ^^^ b.setWidth 32)

/-- CRC-32C (11 R313, 17 R488), bit-reflected as its standard has it. -/
def crc32c (data : List Byte) : BitVec 32 := (data.foldl crc32cByte 0xFFFFFFFF) ^^^ 0xFFFFFFFF

end Sys2Proof.Machine
end

