-- ==== Sys2Proof/Machine/Mem.lean ====
section
/-!
DEFINITION. Physical memory: bytes and words of HBM with poison (08 R218-R223), page headers, free stacks, reclaim
queues and the prefix table (10 R284-R289, R301-R303, R307).
-/

namespace Sys2Proof.Machine

/-! ### Bytes and words -/

/-- Little-endian bytes of a number. -/
def leBytes (n v : Nat) : List Byte := (List.range n).map fun i => BitVec.ofNat 8 (v >>> (8 * i))

/-- The number of little-endian bytes. -/
def leNat : List Byte → Nat
  | [] => 0
  | b :: t => b.toNat + 256 * leNat t

/-- The little-endian words of bytes; `n` words. -/
def leWords (n : Nat) (bs : List Byte) : List Word :=
  (List.range n).map fun i => BitVec.ofNat 32 (leNat ((bs.drop (4 * i)).take 4))

def wordBytes (ws : List Word) : List Byte := (ws.map fun w => leBytes 4 w.toNat).flatten

/-- Word i of a list; 0 beyond its end. -/
def wAt (ws : List Word) (i : Nat) : Word := ws.getD i 0

/-- The 64-bit value of words i and i + 1. -/
def dAt (ws : List Word) (i : Nat) : Dword := (wAt ws (i + 1)) ++ (wAt ws i)

def lo32 (d : Dword) : Word := d.setWidth 32
def hi32 (d : Dword) : Word := (d >>> 32).setWidth 32

/-- Saturating increment of a count of `w` bits. -/
def satInc {w : Nat} (x : BitVec w) : BitVec w := if x = BitVec.allOnes w then x else x + 1

/-- Allocatable bytes (08 R219). -/
def allocBytes : Nat := 44822 * 2097152
/-- All bytes of the four stacks (08 R219). -/
def hbmBytes : Nat := 96000000000

/-- What an unlisted byte of HBM reads as (entry 1). -/
def hbmDefault : Byte := 0

/-- The burst's stored code is the complement of its correct code (08 R223). -/
def Hbm.poisoned (h : Hbm) (burst : Nat) : Bool := sget 0 h.code burst == 0xFFFF

/-- `n` bytes at physical address `pa`. -/
def Hbm.read (h : Hbm) (pa n : Nat) : List Byte := sread hbmDefault h.mem pa n

/-- The first poisoned burst that a range of `n` bytes at `pa` touches. -/
def Hbm.poisonIn (h : Hbm) (pa n : Nat) : Option Nat :=
  if n = 0 then none
  else (h.code.find? fun e => decide (pa / 32 ≤ e.1) && decide (e.1 ≤ (pa + n - 1) / 32) && e.2 == 0xFFFF).map (·.1)

/-- Write bytes within one burst: a part of a poisoned burst takes no effect; a full burst clears the poison (08 R220, R223). -/
def Hbm.writeBurst (h : Hbm) (pa : Nat) (bs : List Byte) : Hbm × Bool :=
  if h.poisoned (pa / 32) && decide (bs.length < 32) then (h, false)
  else ({ h with mem := swrite hbmDefault h.mem pa bs, code := sset 0 h.code (pa / 32) 0 }, true)

/-- Write bytes burst by burst; the second part is the first burst whose merged write met poison. -/
def Hbm.writeGo : Nat → Hbm → Nat → List Byte → Option Nat → Hbm × Option Nat
  | 0, h, _, _, bad => (h, bad)
  | fuel + 1, h, pa, bs, bad =>
    match bs with
    | [] => (h, bad)
    | _ =>
      let n := 32 - pa % 32
      let r := h.writeBurst pa (bs.take n)
      Hbm.writeGo fuel r.1 (pa + n) (bs.drop n) (if r.2 then bad else bad.or (some (pa / 32)))

def Hbm.write (h : Hbm) (pa : Nat) (bs : List Byte) : Hbm × Option Nat := Hbm.writeGo (bs.length / 32 + 2) h pa bs none

def Hbm.word (h : Hbm) (pa : Nat) : Word := BitVec.ofNat 32 (leNat (h.read pa 4))

/-- Ranges of physical bytes that overlap. -/
def rangesMeet (a an b bn : Nat) : Bool := decide (a < b + bn) && decide (b < a + an) && decide (an ≠ 0) && decide (bn ≠ 0)

/-- Writes to a granule that is being retired are also held for its spare (08 R222). -/
def holdWrite (own : Bool) (va pa : Nat) (bs : List Byte) (r : Retiring) : Retiring :=
  let lo := max pa (r.granule.toNat * 4096)
  let hi := min (pa + bs.length) (r.granule.toNat * 4096 + 4096)
  if lo < hi then { r with held := r.held ++ [{ pa := lo, va := va + (lo - pa), bytes := (bs.drop (lo - pa)).take (hi - lo), own := own }] } else r

/-- Write bytes to physical memory: the first burst whose merged write met poison. -/
def State.pwriteAs (s : State) (own : Bool) (va pa : Nat) (bs : List Byte) : State × Option Nat :=
  let r := s.hbm.write pa bs
  ({ s with hbm := { r.1 with retiring := r.1.retiring.map (holdWrite own va pa bs) } }, r.2)
def State.pwrite (s : State) (pa : Nat) (bs : List Byte) : State × Option Nat := s.pwriteAs false 0 pa bs

/-! ### The device's own structures (10 R285, 14 R409) -/

/-- An access to a structure of the device met a poisoned burst. -/
def State.loseOwned (s : State) (burst : Nat) : State := { s with hbm := { s.hbm with ownedLost := s.hbm.ownedLost.or (some (32 * burst)) } }

/-- Read such a structure for a state that goes on: a poisoned burst is noted. -/
def State.ownRead (s : State) (pa n : Nat) : State := match s.hbm.poisonIn pa n with | some b => s.loseOwned b | none => s

/-- Write such a structure, as any write: a full burst with its code, a part of one merged (08 R220, R223). -/
def State.ownWrite (s : State) (pa : Nat) (bs : List Byte) : State :=
  let r := s.pwriteAs true 0 pa bs
  match r.2 with | some b => r.1.loseOwned b | none => r.1
def State.ownWord (s : State) (pa : Nat) (w : Word) : State := s.ownWrite pa (leBytes 4 w.toNat)

/-- The canonical form of the HBM: its bytes and its code differences are canonical tables. -/
def Memory.wf (h : Hbm) : Bool := swf hbmDefault h.mem && swf 0 h.code

/-! ### Page headers (10 R284) -/

structure KHdr where
  fmt : BitVec 4 := 0
  layer : BitVec 8 := 0
  fill : BitVec 5 := 0
  pstate : BitVec 2 := 0
  pubReq : Bool := false
  armed : Bool := false
  sent : Bool := false
  pend : BitVec 4 := 0
  kmask : BitVec 16 := 0
  vmask : BitVec 16 := 0
  refcount : BitVec 16 := 0
  rgen : BitVec 16 := 0
  hash : BitVec 96 := 0
  tokens : BitVec 320 := 0
  deriving DecidableEq, Repr

def b2n (b : Bool) : Nat := if b then 1 else 0

def KHdr.bytes (h : KHdr) : List Byte :=
  leBytes 4 (h.fmt.toNat * 2 ^ 28 + h.layer.toNat * 2 ^ 20 + h.fill.toNat * 2 ^ 15 + h.pstate.toNat * 2 ^ 13 +
      b2n h.pubReq * 2 ^ 12 + b2n h.armed * 2 ^ 11 + b2n h.sent * 2 ^ 10 + h.pend.toNat * 2 ^ 6) ++
    leBytes 4 (h.kmask.toNat * 65536 + h.vmask.toNat) ++ leBytes 4 (h.refcount.toNat * 65536 + h.rgen.toNat) ++
    leBytes 12 h.hash.toNat ++ leBytes 40 h.tokens.toNat

def parseKHdr (bs : List Byte) : KHdr :=
  let v := leNat bs
  let f (lo n : Nat) : Nat := (v >>> lo) % 2 ^ n
  { fmt := .ofNat 4 (f 28 4), layer := .ofNat 8 (f 20 8), fill := .ofNat 5 (f 15 5), pstate := .ofNat 2 (f 13 2),
    pubReq := f 12 1 == 1, armed := f 11 1 == 1, sent := f 10 1 == 1, pend := .ofNat 4 (f 6 4),
    kmask := .ofNat 16 (f 48 16), vmask := .ofNat 16 (f 32 16), refcount := .ofNat 16 (f 80 16),
    rgen := .ofNat 16 (f 64 16), hash := .ofNat 96 (f 96 96), tokens := .ofNat 320 (f 192 320) }

/-! ### Pools -/

def State.pool (s : State) (q : Nat) : Pool := sget {} s.xlt.pools q

def State.modPool (s : State) (q : Nat) (f : Pool → Pool) : State :=
  { s with xlt := { s.xlt with pools := smod {} s.xlt.pools q f } }

def State.modHbm (s : State) (f : Hbm → Hbm) : State := { s with hbm := f s.hbm }

/-- Physical address of a page's header. -/
def Pool.hdrPa (p : Pool) (x : Nat) : Nat := p.hdr.toNat * 64 + 64 * x

/-- Page bytes of a pool (10 R287). -/
def granOf (q : Nat) : Nat := 2 ^ (12 + q)

/-- Physical address of a page's frame. -/
def Pool.framePa (p : Pool) (q x : Nat) : Nat := p.frames.toNat * 4096 + x * granOf q

def State.khdr (s : State) (q x : Nat) : KHdr := parseKHdr (s.hbm.read ((s.pool q).hdrPa x) 64)

/-- A page's header is lost: the poisoned burst of it. -/
def State.hdrLost (s : State) (q x : Nat) : Option Nat := s.hbm.poisonIn ((s.pool q).hdrPa x) 64

/-- Write a page's header anew (10 R289, R291, R303). -/
def State.newKhdr (s : State) (q x : Nat) (h : KHdr) : State := s.ownWrite ((s.pool q).hdrPa x) h.bytes

/-- An update of a header: a read, a change and a write (10 R285); a header that is lost stays as it is. -/
def State.setKhdr (s : State) (q x : Nat) (h : KHdr) : State :=
  match s.hdrLost q x with
  | some b => s.loseOwned b
  | none => s.newKhdr q x h

/-- Pages X of a pool (10 R287). -/
def Pool.pages (p : Pool) : Nat := p.count.toNat

/-- The page index that a frame of an enabled pool names (08 R233, cause 0x04). -/
def Pool.pageOf (p : Pool) (q pa : Nat) : Option Nat :=
  let b := p.frames.toNat * 4096
  if p.en && !p.busy && decide (b ≤ pa) && decide (pa < b + p.pages * granOf q) && (pa - b) % granOf q == 0
  then some ((pa - b) / granOf q) else none

/-- Push a page on the free stack and zero its header (10 R289). -/
def State.freePage (s : State) (q x : Nat) : State :=
  let p := s.pool q
  let s := (s.newKhdr q x {}).ownWord (p.stack.toNat * 64 + 4 * p.free.toNat) (.ofNat 32 x)
  s.modPool q fun p => { p with free := p.free + 1 }

/-- Pop the top of the free stack. -/
def State.popPage (s : State) (q : Nat) : Option (Nat × State) :=
  let p := s.pool q
  if p.free = 0 then none
  else
    let at' := p.stack.toNat * 64 + 4 * (p.free.toNat - 1)
    some ((s.hbm.word at').toNat, (s.ownRead at' 4).modPool q fun p => { p with free := p.free - 1 })

/-! ### The prefix table (10 R301, R302) -/

structure PfxEntry where
  hash : BitVec 96 := 0
  state : BitVec 2 := 0
  layer : BitVec 8 := 0
  pool : BitVec 3 := 0
  page : BitVec 24 := 0
  stamp : Word := 0
  deriving DecidableEq, Repr

def PfxEntry.bytes (e : PfxEntry) : List Byte :=
  leBytes 12 e.hash.toNat ++ leBytes 4 (e.state.toNat * 2 ^ 30 + e.layer.toNat * 2 ^ 22 + e.pool.toNat * 2 ^ 19) ++
    leBytes 4 e.page.toNat ++ leBytes 4 e.stamp.toNat ++ leBytes 8 0

def parsePfx (bs : List Byte) : PfxEntry :=
  let v := leNat bs
  let f (lo n : Nat) : Nat := (v >>> lo) % 2 ^ n
  { hash := .ofNat 96 (f 0 96), state := .ofNat 2 (f 126 2), layer := .ofNat 8 (f 118 8), pool := .ofNat 3 (f 115 3),
    page := .ofNat 24 (f 128 24), stamp := .ofNat 32 (f 160 32) }

/-- Index of probe k (10 R302). -/
def probeAt (t : Nat) (hash : BitVec 96) (layer pool k : Nat) : Nat :=
  (hash.toNat % 2 ^ 32 + 0x01000193 * layer + pool + k) % 2 ^ t

def State.pfxPa (s : State) (j : Nat) : Nat := s.xlt.pfxBase.toNat * 64 + 32 * j

def State.pfxEntry (s : State) (j : Nat) : PfxEntry := parsePfx (s.hbm.read (s.pfxPa j) 32)

/-- What a lookup meets: the live entry with the key, and the first empty entry or tombstone. -/
def pfxSearch (s : State) (hash : BitVec 96) (layer pool : Nat) : Nat → Nat → Option Nat → Option Nat × Option Nat
  | 0, _, hole => (none, hole)
  | fuel + 1, k, hole =>
    let j := probeAt s.xlt.pfxLog2.toNat hash layer pool k
    let e := s.pfxEntry j
    if e.state = 0 then (none, hole.or (some j))
    else if e.state = 1 ∧ e.hash = hash ∧ e.layer.toNat = layer ∧ e.pool.toNat = pool then (some j, hole)
    else pfxSearch s hash layer pool fuel (k + 1) (if e.state = 2 then hole.or (some j) else hole)

def State.pfxLookup (s : State) (hash : BitVec 96) (layer pool : Nat) : Option Nat × Option Nat :=
  pfxSearch s hash layer pool 64 0 none

/-- The first poisoned entry that a lookup examines. -/
def pfxLost (s : State) (hash : BitVec 96) (layer pool : Nat) : Nat → Nat → Option Nat
  | 0, _ => none
  | fuel + 1, k =>
    let j := probeAt s.xlt.pfxLog2.toNat hash layer pool k
    let e := s.pfxEntry j
    match s.hbm.poisonIn (s.pfxPa j) 32 with
    | some b => some b
    | none =>
      if e.state = 0 ∨ (e.state = 1 ∧ e.hash = hash ∧ e.layer.toNat = layer ∧ e.pool.toNat = pool) then none
      else pfxLost s hash layer pool fuel (k + 1)

/-- Note a poisoned entry that a lookup examines. -/
def State.pfxRead (s : State) (hash : BitVec 96) (layer pool : Nat) : State :=
  match pfxLost s hash layer pool 64 0 with | some b => s.loseOwned b | none => s

def State.setPfx (s : State) (j : Nat) (e : PfxEntry) : State := s.ownWrite (s.pfxPa j) e.bytes

/-- Turn the matching entry into a tombstone (10 R302). -/
def State.pfxRemove (s : State) (hash : BitVec 96) (layer pool : Nat) : State :=
  match (s.pfxLookup hash layer pool).1 with
  | some j =>
    let s' := (s.pfxRead hash layer pool).setPfx j { s.pfxEntry j with state := 2 }
    { s' with xlt := { s'.xlt with pfxLive := s'.xlt.pfxLive - 1 } }
  | none => s.pfxRead hash layer pool

/-- Insert a key; true on success (10 R302). -/
def State.pfxInsert (s : State) (hash : BitVec 96) (layer pool page : Nat) : State × Bool :=
  let s := s.pfxRead hash layer pool
  match s.pfxLookup hash layer pool with
  | (some _, _) => (s, false)
  | (none, some j) =>
    let s' := s.setPfx j { hash := hash, state := 1, layer := .ofNat 8 layer, pool := .ofNat 3 pool,
                           page := .ofNat 24 page, stamp := lo32 s.fab.cnt }
    ({ s' with xlt := { s'.xlt with pfxLive := s'.xlt.pfxLive + 1 } }, true)
  | (none, none) => ({ s with xlt := { s.xlt with pfxInsFail := satInc s.xlt.pfxInsFail } }, false)

/-! ### Reclaim (10 R303) -/

def Pool.reclPa (p : Pool) (i : Nat) : Nat := p.recl.toNat * 64 + 16 * (i % (2 * p.pages))

/-- A reclaim entry is valid while its page is published, unmapped and of its generation. -/
def State.reclValid (s : State) (q x : Nat) (gen : BitVec 16) : Bool :=
  let h := s.khdr q x
  h.pstate == 2 && h.refcount == 0 && h.rgen == gen

def State.reclEntry (s : State) (q i : Nat) : Nat × BitVec 16 :=
  let v := leNat (s.hbm.read ((s.pool q).reclPa i) 16)
  (v % 2 ^ 32, .ofNat 16 (v >>> 32))

/-- Note a poisoned reclaim entry, or header of its page. -/
def State.reclRead (s : State) (q i : Nat) : State :=
  (s.ownRead ((s.pool q).reclPa i) 16).ownRead ((s.pool q).hdrPa (s.reclEntry q i).1) 64

/-- Remove every entry that is not valid, keeping the order of the rest. -/
def State.reclCompact (s : State) (q : Nat) : State :=
  let p := s.pool q
  let es := (List.range p.reclLen).map fun i => s.reclEntry q (p.reclHead + i)
  let keep := es.filter fun e => s.reclValid q e.1 e.2
  let bytes := (keep.map fun e => leBytes 4 e.1 ++ leBytes 4 e.2.toNat ++ leBytes 8 0).flatten
  let s := ((List.range p.reclLen).foldl (fun s i => s.reclRead q (p.reclHead + i)) s).ownWrite (p.recl.toNat * 64) bytes
  s.modPool q fun p => { p with reclHead := 0, reclLen := keep.length }

/-- Add a page at the tail. -/
def State.reclAdd (s : State) (q x : Nat) (gen : BitVec 16) : State :=
  let s := if (s.pool q).reclLen ≥ 2 * (s.pool q).pages then s.reclCompact q else s
  let p := s.pool q
  let s := s.ownWrite (p.reclPa (p.reclHead + p.reclLen)) (leBytes 4 x ++ leBytes 4 gen.toNat ++ leBytes 8 0)
  s.modPool q fun p => { p with reclLen := p.reclLen + 1 }

/-- Take entries from the head until a valid one is found (R303 steps 1 to 4). -/
def reclTake : Nat → State → Nat → Option (Nat × State)
  | 0, _, _ => none
  | fuel + 1, s, q =>
    let p := s.pool q
    if p.reclLen = 0 then none
    else
      let e := s.reclEntry q p.reclHead
      let s' := (s.reclRead q p.reclHead).modPool q fun p => { p with reclHead := (p.reclHead + 1) % (2 * p.pages), reclLen := p.reclLen - 1 }
      if s'.reclValid q e.1 e.2 then
        let h := s'.khdr q e.1
        let s' := (s'.pfxRemove h.hash h.layer.toNat q).newKhdr q e.1 {}
        some (e.1, s'.modPool q fun p => { p with reclaimed := satInc p.reclaimed })
      else reclTake fuel s' q

/-- A page from the free stack, or else by reclaim (10 R291 steps 1 and 2). -/
def State.takePage (s : State) (q : Nat) : Option (Nat × State) :=
  match s.popPage q with
  | some r => some r
  | none => reclTake ((s.pool q).reclLen + 1) s q

/-- One mapping fewer: at 0, a published page enters the reclaim queue and a page in use is freed; a pinned one only when its last
pend bit clears (10 R295, R307, R308; entry 38). -/
def State.unmapPage (s : State) (q x : Nat) : State :=
  let h := s.khdr q x
  let h := { h with refcount := h.refcount - 1 }
  if h.refcount ≠ 0 then s.setKhdr q x h
  else if h.pstate = 2 then
    let h := { h with rgen := h.rgen + 1 }
    if h.pend = 0 then (s.setKhdr q x h).reclAdd q x h.rgen else s.setKhdr q x h
  else
    let h := { h with pubReq := false }
    if h.pend = 0 then s.freePage q x else s.setKhdr q x h

/-- Subscriber u no longer waits on a page (10 R308, 13 R399): a page that nothing holds is freed, or enters the reclaim queue if it is
published. -/
def State.clearPend (s : State) (q x u : Nat) : State :=
  let old : BitVec 4 := (s.khdr q x).pend
  let h : KHdr := { s.khdr q x with pend := old &&& ~~~(1#4 <<< u) }
  if h.pend = 0 ∧ h.refcount = 0 ∧ h.pstate = 1 then s.freePage q x
  else if h.pend = 0 ∧ old ≠ 0#4 ∧ h.refcount = 0 ∧ h.pstate = 2 then (s.setKhdr q x h).reclAdd q x h.rgen
  else s.setKhdr q x h

end Sys2Proof.Machine
end

