-- ==== Sys2Proof/Machine/Nest.lean ====
section
/-!
DEFINITION. Loop nests: fields, order, demand, coverage, split (05 R140-R160), and the matrix descriptor and offset
block that go with them (04 R125, R126). Each reads words and knows no core.
-/

namespace Sys2Proof.Machine

/-- A failing check: the code it stops or rejects with. -/
abbrev Chk := Except Code Unit

/-- The check passes when the condition holds. -/
def need (ok : Bool) (code : Code) : Chk := if ok then .ok () else .error code

def ceilDiv (a b : Nat) : Nat := (a + b - 1) / b

def bit1 (w : Word) (i : Nat) : Bool := wbits w i 1 == 1

/-! ### Loop nests -/

/-- A dimension of a level (05 R143): 0 M, 1 N, 2 K. -/
structure Level where
  dim : Nat
  bound : Nat
  sa : Int
  sb : Int
  sd : Int
  deriving DecidableEq, Repr

structure Nest where
  explicit : Bool
  tm : Nat
  tn : Nat
  tk : Nat
  c0 : Nat
  split : Nat
  pitchA : Nat
  pitchB : Nat
  pitchD : Nat
  padM : Nat
  padN : Nat
  padK : Nat
  levels : List Level
  deriving DecidableEq, Repr

/-- The level at words W(8 + 4i) (05 R143, R144). -/
def parseLevel (ws : List Word) (i : Nat) : Option Level :=
  let a := wAt ws (8 + 4 * i)
  let b := wAt ws (9 + 4 * i)
  let c := wAt ws (10 + 4 * i)
  let d := wAt ws (11 + 4 * i)
  let dim := wbits a 30 2
  if dim ≠ 3 ∧ wbits a 24 6 = 0 ∧ wbits a 0 24 ≠ 0 ∧ b.toNat % 64 = 0 ∧ c.toNat % 64 = 0 ∧ d.toNat % 64 = 0 ∧
      (dim = 0 → c = 0) ∧ (dim = 1 → b = 0) ∧ (dim = 2 → d = 0) then
    some { dim := dim, bound := wbits a 0 24, sa := b.toInt, sb := c.toInt, sd := d.toInt }
  else none

/-- Parse the 32 words of a loop nest against the rules that hold under every use (05 R142-R145, R159). -/
def parseNest (ws : List Word) : Option Nest :=
  let w0 := wAt ws 0
  let w1 := wAt ws 1
  let w2 := wAt ws 2
  let w3 := wAt ws 3
  let nlev := wbits w0 12 3
  let levels := (List.range nlev).filterMap (parseLevel ws)
  if wbits w0 28 4 = 1 ∧ wbits w0 16 12 = 2 ∧ wbits w0 0 12 = 0 ∧ nlev ≤ 6 ∧ wbits w1 0 5 = 0 ∧ wbits w2 22 4 = 0 ∧
      wbits w2 0 22 % 64 = 0 ∧ wbits w3 25 7 ≤ 64 ∧ wbits w3 22 3 = 0 ∧ wbits w3 0 22 % 64 = 0 ∧ (wAt ws 4).toNat % 64 = 0 ∧
      levels.length = nlev ∧ ((ws.drop (8 + 4 * nlev)).take (24 - 4 * nlev)).all (· == 0) ∧
      wbits w2 26 6 + wbits w3 25 7 ≤ 64 then
    some { explicit := bit1 w0 15, tm := wbits w1 22 10 + 1, tn := wbits w1 12 10 + 1, tk := wbits w1 5 7 + 1,
           c0 := wbits w2 26 6, split := wbits w3 25 7, pitchA := wbits w2 0 22, pitchB := wbits w3 0 22,
           pitchD := (wAt ws 4).toNat, padM := (wAt ws 5).toNat, padN := (wAt ws 6).toNat, padK := (wAt ws 7).toNat,
           levels := levels }
  else none

def Nest.tile (n : Nest) (dim : Nat) : Nat := if dim = 0 then n.tm else if dim = 1 then n.tn else n.tk

/-- Level numbers in visiting order, outermost first (05 R146). `flow`: 0 WS, 1 IS, 2 OS. -/
def Nest.order (n : Nest) (flow : Nat) : List Nat :=
  let all := List.range n.levels.length
  let ofDim (d : Nat) : List Nat := all.filter fun i => (n.levels.map (·.dim)).getD i 3 == d
  if n.explicit then all
  else if flow = 1 then ofDim 1 ++ ofDim 0 ++ ofDim 2
  else ofDim 0 ++ ofDim 1 ++ ofDim 2

def Nest.level (n : Nest) (i : Nat) : Level := n.levels.getD i ⟨3, 1, 0, 0, 0⟩

/-- Product of the bounds of the levels of dimension `d` after level `i` in the list: tiles that one iteration spans
(05 R144). -/
def Nest.inner (n : Nest) (d i : Nat) : Nat :=
  (n.levels.drop (i + 1)).foldl (fun a v => if v.dim == d then a * v.bound else a) 1

/-- Tiles of a dimension that its levels can count. -/
def Nest.tiles (n : Nest) (d : Nat) : Nat := n.levels.foldl (fun a v => if v.dim == d then a * v.bound else a) 1

/-- Index of level i when its dimension stands at tile t (05 R144). -/
def Nest.digit (n : Nest) (i t : Nat) : Nat :=
  let v := n.level i
  t / n.inner v.dim i % v.bound

/-- Sum of index times stride over the levels, at tiles (mt, nt, kt) (05 R141). -/
def Nest.offset (n : Nest) (f : Level → Int) (mt nt kt : Nat) : Int :=
  (List.range n.levels.length).foldl (fun a i =>
    let v := n.level i
    let t := if v.dim = 0 then mt else if v.dim = 1 then nt else kt
    a + (n.digit i t : Int) * f v) 0

/-- Rules that depend on the dataflow (05 R140, R147). -/
def Nest.flowOk (n : Nest) (flow : Nat) : Bool :=
  let sizes := match flow with
    | 0 => decide (n.tn ≤ 128)
    | 1 => decide (n.tm ≤ 128)
    | _ => decide (n.tm ≤ 128) && decide (n.tn ≤ 128)
  let dims := (n.order flow).map fun i => (n.level i).dim
  let kIn := (dims.dropWhile (· != 2)).all (· == 2)
  sizes && (flow != 2 || kIn)

/-- The rule of R150 for a retaining chain. -/
def Nest.retainOk (n : Nest) : Bool := n.pitchD == 0 && n.levels.all fun v => v.sd == 0

/-- The t_k rule of R145. -/
def Nest.tkOk (n : Nest) (kMax : Nat) : Bool := !(n.levels.any fun v => v.dim == 2) || decide (n.tk ≤ kMax)

/-- Exact coverage of one planned maximum (05 R154). -/
def Nest.covers (n : Nest) (d xMax : Nat) : Bool :=
  match n.levels.filter fun v => v.dim == d with
  | [] => decide (xMax ≤ n.tile d)
  | v :: rest =>
    let r := n.tile d * rest.foldl (fun a u => a * u.bound) 1
    decide (r * v.bound ≥ xMax) && decide (r * (v.bound - 1) < xMax)

/-- Iterations of level i that visit a tile below `tiles` tiles of its dimension. -/
def Nest.cap (n : Nest) (i tiles : Nat) : Nat :=
  let v := n.level i
  min v.bound (ceilDiv tiles (n.inner v.dim i))

/-- Position in the visiting order of k*: the outermost K level with two or more iterations that the K extent visits;
the length of the order when there is none (05 R149). -/
def Nest.kStar (n : Nest) (flow kExt : Nat) : Nat :=
  let o := n.order flow
  (o.findIdx? fun i => (n.level i).dim == 2 && decide (n.cap i (ceilDiv kExt n.tk) ≥ 2)).getD o.length

/-- Rows and columns of the live block at planned maxima; `share` is the core's rows (05 R149, R160): under a split the M levels give
no more tiles than the core's share has (DESIGN CHOICE, entry 35). -/
def Nest.live (n : Nest) (flow share nMax kMax : Nat) (retain : Bool) : Nat × Nat :=
  if retain then (share, nMax)
  else
    let inside := (n.order flow).drop (n.kStar flow kMax + 1)
    let prod (d : Nat) : Nat := inside.foldl (fun a i => if (n.level i).dim == d then a * (n.level i).bound else a) 1
    (n.tm * (if n.split = 0 then prod 0 else min (prod 0) (ceilDiv share n.tm)), n.tn * prod 1)

/-- Accumulator demand (05 R149). -/
def Nest.demand (n : Nest) (flow share nMax kMax : Nat) (retain : Bool) : Nat :=
  let b := n.live flow share nMax kMax retain
  ceilDiv b.1 128 * ceilDiv b.2 128

/-- Row-scale and block-scale spans (05 R153). -/
def Nest.spans (n : Nest) (flow share nMax kMax newScale : Nat) : Chk :=
  let ln := (n.live flow share nMax kMax false).2
  let outside := (n.order flow).take (n.kStar flow kMax + 1)
  if newScale = 2 then need (!(outside.any fun i => (n.level i).dim == 1) && decide (ln ≥ nMax)) eRowScaleSpan
  else if newScale = 1 then need (ln % 64 == 0 || decide (ln ≥ nMax)) eBlockScaleSpan
  else .ok ()

/-- M tiles [lo, hi) of a core (05 R159); none when the core is outside the split. -/
def Nest.range (n : Nest) (core m : Nat) : Option (Nat × Nat) :=
  let t := ceilDiv m n.tm
  if n.split = 0 then some (0, t)
  else if core < n.c0 ∨ core ≥ n.c0 + n.split then none
  else
    let r := ceilDiv t n.split
    let j := core - n.c0
    some (j * r, min ((j + 1) * r) t)

/-- The core's share of rows at M_max (05 R160). -/
def Nest.share (n : Nest) (mMax : Nat) : Nat :=
  if n.split = 0 then mMax else ceilDiv (ceilDiv mMax n.tm) n.split * n.tm

/-! ### What is visited (05 R146, R149, R157) -/

/-- Index vectors of nested counts, in ascending order. -/
def counts : List Nat → List (List Nat)
  | [] => [[]]
  | c :: cs => ((List.range c).map fun i => (counts cs).map fun t => i :: t).flatten

/-- A visited output tile: its M and N tile, and its passes: the K tile and the loop indices. -/
structure VTile where
  mt : Nat
  nt : Nat
  passes : List (Nat × List Nat)
  deriving DecidableEq, Repr

/-- A live block: the indices outside k* and its tiles, both in visiting order. -/
structure VBlock where
  key : List Nat
  tiles : List VTile
  deriving DecidableEq, Repr

def addTile (mt nt : Nat) (p : Nat × List Nat) : List VTile → List VTile
  | [] => [{ mt := mt, nt := nt, passes := [p] }]
  | t :: ts => if t.mt = mt ∧ t.nt = nt then { t with passes := t.passes ++ [p] } :: ts else t :: addTile mt nt p ts

def addVisit (key : List Nat) (mt nt : Nat) (p : Nat × List Nat) : List VBlock → List VBlock
  | [] => [{ key := key, tiles := addTile mt nt p [] }]
  | b :: bs => if b.key = key then { b with tiles := addTile mt nt p b.tiles } :: bs else b :: addVisit key mt nt p bs

/-- The live blocks of a core at runtime extents, with M tiles in [lo, hi). -/
def Nest.visit (n : Nest) (flow lo hi nExt kExt : Nat) (retain : Bool) : List VBlock :=
  let o := n.order flow
  let tilesOf (d : Nat) : Nat := if d = 0 then hi else if d = 1 then ceilDiv nExt n.tn else ceilDiv kExt n.tk
  let caps := o.map fun i => n.cap i (tilesOf (n.level i).dim)
  let pos := if retain then 0 else n.kStar flow kExt
  (counts caps).foldl (fun bs ix =>
    let tileOf (d : Nat) : Nat := (o.zip ix).foldl (fun a e => if (n.level e.1).dim == d then a + e.2 * n.inner d e.1 else a) 0
    let mt := tileOf 0
    let nt := tileOf 1
    let kt := tileOf 2
    if lo ≤ mt ∧ mt < hi ∧ nt * n.tn < nExt ∧ kt * n.tk < kExt then addVisit (ix.take pos) mt nt (kt, ix) bs else bs) []

/-! ### The matrix descriptor (04 R125) -/

structure Mat where
  fmtA : Nat
  fmtB : Nat
  unsA : Bool
  unsB : Bool
  flow : Nat
  accumulate : Bool
  nest : Nat
  chain : Nat
  accBase : Nat
  accTiles : Nat
  ob : Nat
  baseA : Nat
  baseB : Nat
  deriving DecidableEq, Repr

def parseMat (ws : List Word) : Option Mat :=
  let w0 := wAt ws 0
  let w1 := wAt ws 1
  let flow := wbits w0 4 2
  if wbits w0 28 4 = 2 ∧ wbits w0 16 12 = 1 ∧ flow ≠ 3 ∧ wbits w0 0 2 = 0 ∧ (flow = 2 → bit1 w0 3 = false) ∧
      wbits w1 22 10 ≠ 0 ∧ wbits w1 12 10 ≠ 0 ∧ wbits w1 9 3 + wbits w1 6 3 ≤ 7 ∧ wbits w1 0 6 = 0 ∧
      wbits (wAt ws 2) 0 22 = 0 ∧ wbits (wAt ws 3) 22 10 = 0 ∧ wbits (wAt ws 4) 22 10 = 0 ∧
      wbits (wAt ws 3) 0 6 = 0 ∧ wbits (wAt ws 4) 0 6 = 0 ∧ (ws.drop 5).all (· == 0) ∧
      (bit1 w0 7 = true → (floatFmt (wbits w0 12 4)).isNone) ∧ (bit1 w0 6 = true → (floatFmt (wbits w0 8 4)).isNone) then
    some { fmtA := wbits w0 12 4, fmtB := wbits w0 8 4, unsA := bit1 w0 7, unsB := bit1 w0 6, flow := flow,
           accumulate := bit1 w0 2, nest := wbits w1 22 10, chain := wbits w1 12 10, accBase := wbits w1 9 3,
           accTiles := wbits w1 6 3, ob := wbits (wAt ws 2) 22 10, baseA := wbits (wAt ws 3) 0 22, baseB := wbits (wAt ws 4) 0 22 }
  else none

/-- Formats an operand of the matrix array may have (02 R38, R39). -/
def operandFmt (c : Nat) : Chk :=
  if c ≥ 8 then .error eFmtReserved else need (decide (c ≤ 5)) eFmtIllegal

/-- Formats and mode of a matrix instruction: entry formats are those after a prologue (02 R38-R40, 03 R78, 06 R178). -/
def Mat.formats (d : Mat) (proFmt : Option Nat) : Chk := do
  operandFmt d.fmtA
  operandFmt d.fmtB
  let ea := if d.flow = 1 then d.fmtA else proFmt.getD d.fmtA
  let eb := if d.flow = 1 then proFmt.getD d.fmtB else d.fmtB
  need (fmtIsInt ea == fmtIsInt eb) eFmtIllegal
  need (!(d.flow == 2 && d.accumulate)) eAccMode

/-! ### Offset blocks (04 R126) -/

structure Offs where
  a : Int := 0
  b : Int := 0
  c : Int := 0
  aux : Int := 0
  m : Nat := 0
  n : Nat := 0
  k : Nat := 0
  valid : Bool := false
  deriving DecidableEq, Repr

/-- The header of an offset block at `line`: its entry count. -/
def parseOffHeader (line : Nat) (ws : List Word) : Option Nat :=
  let w0 := wAt ws 0
  let n := wbits w0 0 16
  if wbits w0 28 4 = 8 ∧ 1 ≤ n ∧ n ≤ 1021 ∧ wbits w0 16 12 = n + 1 ∧ line ≥ 2 ∧ line + n + 1 ≤ 1024 then some n else none

def parseOffs (ws : List Word) : Option Offs :=
  if wbits (wAt ws 11) 1 31 = 0 ∧ (ws.drop 12).all (· == 0) then
    some { a := (dAt ws 0).toInt, b := (dAt ws 2).toInt, c := (dAt ws 4).toInt, aux := (dAt ws 6).toInt,
           m := (wAt ws 8).toNat, n := (wAt ws 9).toNat, k := (wAt ws 10).toNat, valid := bit1 (wAt ws 11) 0 }
  else none

end Sys2Proof.Machine
end

