-- ==== Sys2Proof/Machine/Chain.lean ====
section
/-!
DEFINITION. Chain descriptors: fields, order, formats, and what each stage computes (06 R169-R180).
-/

namespace Sys2Proof.Machine

/-- A stage entry (06 R170, R171). -/
structure Stage where
  ty : Nat
  imf : Nat
  ovf : Bool
  uns : Bool
  mem : Bool
  mode : Nat
  fmt : Nat
  w1 : Word
  w2 : Word
  w3 : Word
  deriving DecidableEq, Repr

structure Chain where
  retain : Bool
  proFmt : Nat
  proRtz : Bool
  proOvf : Bool
  space : Nat
  dst : Dword
  pitch : Nat
  blkM : Nat
  blkN : Nat
  nsAddr : Dword
  nsPitch : Nat
  clipLo : Word
  clipHi : Word
  csPitch : Nat
  pro : List Stage
  epi : List Stage
  deriving DecidableEq, Repr

/-- Number of modes a stage type lists (06 R171); 0 for a reserved type. -/
def stageModes (ty : Nat) : Nat :=
  match ty with
  | 1 => 3 | 2 => 2 | 3 => 1 | 4 => 1 | 8 => 2 | 9 => 1 | 0xA => 1 | 0xB => 4 | 0xC => 1 | 0xD => 1 | 0xE => 1 | 0xF => 1
  | _ => 0

/-- Bits above [21] are 0: an operand-store offset. -/
def isOffset (w : Word) : Bool := wbits w 22 10 == 0

/-- The words of a stage hold what R171 lets its type hold. -/
def stageWordsOk (ty mode : Nat) (mem : Bool) (w1 w2 w3 : Word) : Bool :=
  match ty with
  | 1 => w2 == 0 && w3 == 0 && (mode == 0 || isOffset w1)
  | 2 => w2 == 0 && w3 == 0 && (mode == 0 || isOffset w1)
  | 3 => isOffset w1 && wbits w2 10 22 == 0 && w3.toNat % 64 == 0
  | 4 => isOffset w1 && w2 == 0 && w3.toNat % 4 == 0
  | 8 => w2 == 0 && w3 == 0 && (mode == 1 || isOffset w1)
  | 9 => w1 == 0 && wbits w2 10 22 == 0 && w3 == 0
  | 0xA => w3.toNat % 64 == 0 && (mem || (isOffset w1 && w2 == 0))
  | 0xB => w2 == 0 && (mode == 0 || isOffset w1) && (if mode = 2 then w3.toNat % 4 == 0 else w3 == 0)
  | 0xC => w3 == 0
  | 0xD => (decide (wbits w1 18 2 < 2) || isOffset w2) && (!bit1 w1 17 || isOffset w3)
  | 0xE => wbits w3 24 7 == 0
  | 0xF => wbits w1 10 22 == 0 && w2 == 0 && w3 == 0
  | _ => false

def parseStage (ws : List Word) : Option Stage :=
  let w0 := wAt ws 0
  let s : Stage := { ty := wbits w0 28 4, imf := wbits w0 25 3, ovf := bit1 w0 24, uns := bit1 w0 23, mem := bit1 w0 22,
                     mode := wbits w0 20 2, fmt := wbits w0 16 4, w1 := wAt ws 1, w2 := wAt ws 2, w3 := wAt ws 3 }
  let operand := s.ty == 3 || s.ty == 0xA
  if s.mode < stageModes s.ty ∧ s.imf ≤ 4 ∧ wbits w0 0 16 = 0 ∧ (s.mem = true → s.ty = 0xA) ∧
      (operand = false → s.fmt = 0 ∧ s.uns = false) ∧ (s.uns = true → s.fmt = 2 ∨ s.fmt = 5 ∨ s.fmt ≥ 8) ∧
      (s.ty ≥ 0xD → s.imf = 0 ∧ s.ovf = false) ∧ stageWordsOk s.ty s.mode s.mem s.w1 s.w2 s.w3 = true then some s
  else none

def isArith (ty : Nat) : Bool := decide (8 ≤ ty ∧ ty ≤ 0xC)

/-- The order of stages (06 R172). -/
def stagesOk (retain : Bool) (space : Nat) (pro epi : List Stage) : Bool :=
  let p := pro.map (·.ty)
  let e := epi.map (·.ty)
  let tail := e.dropWhile isArith
  p.all (fun t => decide (1 ≤ t ∧ t ≤ 4)) && decide p.Nodup && !((p.drop 1).contains 4) &&
    (if retain then e.isEmpty && space == 0
     else (tail == [0xD] || tail == [0xD, 0xE] || tail == [0xD, 0xE, 0xF]) && (space != 0 || e.contains 0xE))

/-- Lines of a chain with `n` stages. -/
def chainLen (n : Nat) : Nat := 1 + ceilDiv n 4

/-- Parse a chain descriptor (06 R169-R172); the rules of a use are `Chain.useOk`. -/
def parseChain (ws : List Word) : Option Chain :=
  let w0 := wAt ws 0
  let w1 := wAt ws 1
  let npro := wbits w0 13 3
  let nepi := wbits w0 9 4
  let space := wbits w1 24 2
  let n := npro + nepi
  let stages := (List.range n).filterMap fun i => parseStage ((ws.drop (16 + 4 * i)).take 4)
  let hi22 (d : Dword) : Bool := d.toNat / 2 ^ 22 == 0
  if wbits w0 28 4 = 3 ∧ npro ≤ 4 ∧ nepi ≤ 8 ∧ wbits w0 16 12 = chainLen n ∧ wbits w0 0 8 = 0 ∧ wbits w1 0 24 = 0 ∧
      (npro = 0 → wbits w1 28 4 = 0) ∧ space ≠ 3 ∧ (space = 1 → hi22 (dAt ws 2) = true ∧ hi22 (dAt ws 6) = true) ∧
      (wAt ws 8).toNat % 4 = 0 ∧ (wAt ws 11).toNat % 4 = 0 ∧ ((ws.drop 12).take 4).all (· == 0) ∧
      ((ws.drop (16 + 4 * n)).take (16 * chainLen n - (16 + 4 * n))).all (· == 0) ∧ stages.length = n ∧
      stagesOk (bit1 w0 8) space (stages.take npro) (stages.drop npro) = true then
    some { retain := bit1 w0 8, proFmt := wbits w1 28 4, proRtz := bit1 w1 27, proOvf := bit1 w1 26, space := space,
           dst := dAt ws 2, pitch := (wAt ws 4).toNat, blkM := wbits (wAt ws 5) 16 16, blkN := wbits (wAt ws 5) 0 16,
           nsAddr := dAt ws 6, nsPitch := (wAt ws 8).toNat, clipLo := wAt ws 9, clipHi := wAt ws 10,
           csPitch := (wAt ws 11).toNat, pro := stages.take npro, epi := stages.drop npro }
  else none

def Chain.stage (c : Chain) (ty : Nat) : Option Stage := c.epi.find? fun s => s.ty == ty
def Chain.convStage (c : Chain) : Option Stage := c.stage 0xD
/-- Width in bytes of the destination. -/
def Chain.dstFmt (c : Chain) : Nat := match c.convStage with | some s => wbits s.w1 28 4 | none => 6
def Chain.kvapp (c : Chain) : Option Stage := c.stage 0xE
def Chain.newScale (c : Chain) : Nat := match c.convStage with | some s => wbits s.w1 14 2 | none => 0

/-- Who uses a chain (06 R173). -/
inductive ChainUse where
  | any | mma | epi | attn
  deriving DecidableEq, Repr

/-- Rules of a use that are rejected with E_DESC (06 R169, R172, R173, 09 R254). -/
def Chain.useOk (c : Chain) (u : ChainUse) : Bool :=
  (c.newScale == 0 || (c.space != 0 && c.kvapp.isNone)) &&
    (match u with
     | .any | .mma => true
     | .epi => c.pro.isEmpty && !c.retain && c.pitch % 64 == 0 && decide (1 ≤ c.blkM ∧ c.blkM ≤ 1024) && decide (1 ≤ c.blkN ∧ c.blkN ≤ 1024)
     | .attn => c.pro.isEmpty && !c.retain && c.kvapp.isNone)

/-- Element programs that the chain names, with their lines. -/
def Chain.elemLines (c : Chain) : List Nat :=
  (c.pro ++ c.epi).filterMap fun s => if s.ty = 3 ∨ s.ty = 9 then some (wbits s.w2 0 10) else none

/-- The element program of a stage (07 R201, R214). -/
def stageProg (line : Nat → List Word) (s : Stage) : Option EProg :=
  let ln := wbits s.w2 0 10
  if ln < 2 ∨ ln + 3 > 1024 then none
  else match parseElem (line ln) with
    | some p => if p.outI32 || p.taI32 || p.tbI32 then none else some p
    | none => none

/-- Element programs are there (06 R173). `line` gives 48 words from a line. -/
def Chain.elemsOk (c : Chain) (line : Nat → List Word) : Bool :=
  (c.pro ++ c.epi).all fun s => !(s.ty == 3 || s.ty == 9) || (stageProg line s).isSome

/-- Formats, control word and clip bounds (06 R173, 02 R38, R39, R54, R55). `moving` is the stored moving operand's
format, where the use has one. -/
def Chain.formats (c : Chain) (moving : Option Nat) : Chk := do
  if !c.pro.isEmpty then
    need (decide (c.proFmt < 8)) eFmtReserved
    need (c.proFmt == 0 || c.proFmt == 1 || c.proFmt == 3 || c.proFmt == 4) eFmtIllegal
  match moving with
  | some f => need (!(c.pro.any fun s => s.ty == 4) || decide (f < 3)) eFmtIllegal
  | none => .ok ()
  need ((c.pro ++ c.epi).all fun s => !(s.ty == 3 || s.ty == 0xA) || decide (s.fmt < 8)) eFmtReserved
  match c.convStage with
  | none => .ok ()
  | some s =>
    let cv ← parseCvt s.w1
    need (!cv.clip || clipOk cv c.clipLo c.clipHi) eClipBound
  need (c.epi.all fun s => s.ty != 0xC ||
    clipOk { dst := imfCode s.imf, uns := false, rnd := .rne, ovf := false, scale := 0, bias := false, clip := true, newScale := 0 } s.w1 s.w2)
    eClipBound

/-! ### Operands of stages -/

/-- A place of the operand store, modulo 2^22 (04 R126). -/
def ostAddr (x : Int) : Nat := (x % 4194304).toNat

/-- What the stages of one instruction read: its operand store, its lines, its offsets (06 R176). -/
structure ChainEnv where
  ost : Sparse Byte
  line : Nat → List Word
  aux : Int
  /-- off_a, or off_b in IS: where G lies -/
  g : Int

def ChainEnv.bytes (e : ChainEnv) (off : Int) (n : Nat) : List Byte := sread 0 e.ost (ostAddr off) n
def ChainEnv.f32 (e : ChainEnv) (off : Int) : Word := .ofNat 32 (leNat (e.bytes off 4))
def elemWord (bs : List Byte) : Word := .ofNat 32 (leNat bs)

/-- A NaN that a stage meets (06 R177): produced or consumed, its format and its operand code. -/
structure NanNote where
  produced : Bool
  fmt : Nat
  operand : Nat
  row : Nat
  col : Nat
  deriving DecidableEq, Repr

/-- What a stage leaves: the exact value, flags, and the NaNs it met. -/
structure StageOut where
  x : XR
  flags : Flags := 0
  nans : List NanNote := []
  deriving DecidableEq, Repr

/-- Round once, RNE, to the stage's imf (06 R174). -/
def Stage.round (s : Stage) (y : XR) : XR × Flags :=
  let f := imfCode s.imf
  let r := roundTo f false s.ovf .rne y
  (decodeAny f false r.bits, r.cvtFlags)

/-- x op y, rounded to imf; `code` is the operand code of a NaN in y and `pcode` that of a produced one. -/
def Stage.apply (s : Stage) (op : XR → XR → XR) (x y : XR) (yfmt code pcode row col : Nat) : StageOut :=
  let v := op x y
  let produced := v.isNan && !x.isNan && !y.isNan
  let r := s.round v
  { x := r.1, flags := r.2 ||| flagIf produced fInvalid,
    nans := (if y.isNan then [⟨false, yfmt, code, row, col⟩] else []) ++ (if produced then [⟨true, imfCode s.imf, pcode, row, col⟩] else []) }

/-- x through an element program with tb = y (06 R175, 07 R204): h2 and h3 hold 0. -/
def Stage.program (s : Stage) (p : EProg) (x y : XR) (pcode row col : Nat) : StageOut :=
  let a := rneF32 true x
  let b := rneF32 true y
  let r := runElem p a.bits b.bits 0 0
  let z := s.round (f32 r.1)
  { x := z.1, flags := a.cvtFlags ||| b.cvtFlags ||| r.2.1 ||| z.2,
    nans := if r.2.2 then [⟨true, imfCode s.imf, pcode, row, col⟩] else [] }

/-- x clamped; NaN passes (06 R175). -/
def clampXR (x : XR) (lo hi : Word) : XR :=
  if x.cmp (f32 lo) = some (-1) then f32 lo else if x.cmp (f32 hi) = some 1 then f32 hi else x

/-- A prologue stage on moving element (v, k); `pc` is the moving operand's code (06 R175-R178). A NaN of G is consumed if the program
reads h1 (07 R211). -/
def proStage (e : ChainEnv) (pc v k : Nat) (s : Stage) (x : XR) : StageOut :=
  match s.ty with
  | 1 => s.apply XR.mul x (f32 (if s.mode = 0 then s.w1 else e.f32 (s.w1.toNat + e.aux + 4 * (if s.mode = 1 then k else v : Nat)))) 6 6 pc v k
  | 2 => s.apply XR.add x (f32 (if s.mode = 0 then s.w1 else e.f32 (s.w1.toNat + e.aux + 4 * k))) 6 5 pc v k
  | 4 => s.apply XR.mul x (f32 (e.f32 (s.w1.toNat + e.aux + (v * s.w3.toNat + 4 * (k / 64) : Nat)))) 6 6 pc v k
  | _ =>
    let w := fmtBytes s.fmt
    let gv := decodeAny s.fmt s.uns (elemWord (e.bytes (s.w1.toNat + e.g + (v * s.w3.toNat + k * w : Nat)) w))
    match stageProg e.line s with
    | some p =>
      let o := s.program p x gv pc v k
      { o with nans := (if gv.isNan && p.reads 1 then [⟨false, s.fmt, pc, v, k⟩] else []) ++ o.nans }
    | none => { x := x }

/-- Chain a stage's outcome after another's. -/
def StageOut.next (o : StageOut) (f : XR → StageOut) : StageOut :=
  let r := f o.x
  { x := r.x, flags := o.flags ||| r.flags, nans := o.nans ++ r.nans }

/-- The entry word of a moving element under a prologue (06 R178): its encoding in pro_fmt. -/
def Chain.entry (c : Chain) (e : ChainEnv) (pc v k : Nat) (stored : XR) : Word × Flags × List NanNote :=
  let o := c.pro.foldl (fun (o : StageOut) s => o.next (proStage e pc v k s)) { x := stored }
  let r := roundTo c.proFmt false c.proOvf (if c.proRtz then .rtz else .rne) o.x
  (r.bits, o.flags ||| r.cvtFlags, o.nans)

/-- Address of the residual element (m, n) (06 R176). -/
def Stage.residAt (s : Stage) (aux : Int) (m n : Nat) : Int :=
  ((s.w2 ++ s.w1).toNat : Int) + aux + (m * s.w3.toNat + n * fmtBytes s.fmt : Nat)

/-- An arithmetic epilogue stage on element (m, n); CLIP raises no flag (06 R175). `mem` gives the residual word of a memory RESID. -/
def epiStage (e : ChainEnv) (m n : Nat) (mem : Word) (s : Stage) (x : XR) : StageOut :=
  match s.ty with
  | 8 => s.apply XR.add x (f32 (if s.mode = 1 then s.w1 else e.f32 (s.w1.toNat + e.aux + (4 * n : Nat)))) 6 5 0 m n
  | 9 =>
    match stageProg e.line s with
    | some p =>
      let o := s.program p x (.fin false 0 0) 0 m n
      { o with nans := (if x.isNan && p.reads 0 then [⟨false, 6, 4, m, n⟩] else []) ++ o.nans }
    | none => { x := x }
  | 0xA =>
    let w := if s.mem then mem else elemWord (e.bytes (s.residAt e.aux m n) (fmtBytes s.fmt))
    s.apply XR.add x (decodeAny s.fmt s.uns w) s.fmt 7 0 m n
  | 0xB =>
    let y := match s.mode with
      | 0 => s.w1
      | 1 => e.f32 (s.w1.toNat + e.aux + (4 * n : Nat))
      | 2 => e.f32 (s.w1.toNat + e.aux + (m * s.w3.toNat + 4 * (n / 64) : Nat))
      | _ => e.f32 (s.w1.toNat + e.aux + (4 * m : Nat))
    s.apply XR.mul x (f32 y) 6 6 0 m n
  | 0xC => { x := (s.round (clampXR x s.w1 s.w2)).1 }
  | _ => { x := x }

/-- The arithmetic stages on one element, then step 1 of R56: the exact value v that CONV rounds. `mem` gives the word of
the i-th stage's memory residual. -/
def Chain.value (c : Chain) (e : ChainEnv) (m n : Nat) (mem : Nat → Word) (x0 : XR) : StageOut :=
  let o := (c.epi.zip (List.range c.epi.length)).foldl
    (fun (o : StageOut) s => if isArith s.1.ty then o.next (epiStage e m n (mem s.2) s.1) else o) { x := x0 }
  match c.convStage with
  | none => o
  | some s =>
    let scale := match wbits s.w1 18 2 with
      | 0 => none
      | 1 => some s.w2
      | 2 => some (e.f32 (s.w2.toNat + e.aux + (4 * n : Nat)))
      | _ => some (e.f32 (s.w2.toNat + e.aux + (m * c.csPitch + 4 * (n / 64) : Nat)))
    let bias := if bit1 s.w1 17 then some (e.f32 (s.w3.toNat + e.aux + (4 * n : Nat))) else none
    let sx := scale.map f32
    let bx := bias.map f32
    let isN (v : Option XR) : Bool := match v with | some y => y.isNan | none => false
    let v1 := match sx with | some y => o.x.mul y | none => o.x
    let v2 := match bx with | some y => v1.add y | none => v1
    let produced := v2.isNan && !o.x.isNan && !isN sx && !isN bx
    { x := v2, flags := o.flags ||| flagIf produced fInvalid,
      nans := o.nans ++ (if isN sx then [⟨false, 6, 6, m, n⟩] else []) ++ (if isN bx then [⟨false, 6, 5, m, n⟩] else []) ++
        (if produced then [⟨true, 6, 0, m, n⟩] else []) }

/-! ### New scales (02 R57, R58) -/

/-- Q of a destination (02 R57). -/
def scaleQ (dst : Nat) (uns : Bool) : Nat := if dst = 0 then 240 else if dst = 1 then 57344 else if uns then 255 else 127

/-- |a| < |b| for finite values. -/
def magLt (a b : XR) : Bool := a.abs.cmp b.abs == some (-1)

/-- The scale of a group from its exact values, and whether it is the NaN of R57 step 2. Where amax / Q exceeds every F32 value the
spec does not say what s is: the free value of entry 11, and every element of the group is then v / Inf = 0 where it is Inf. -/
def groupScale (dst : Nat) (uns : Bool) (vs : List XR) : Word × Bool :=
  if vs.any fun v => !v.isFin then (canonNan, true)
  else
    let amax := vs.foldl (fun a v => if magLt a v then v.abs else a) (.fin false 0 0)
    match amax with
    | .fin _ m e =>
      if m = 0 then (0x3F800000, false)
      else
        let s := roundRatTo 6 false Config.elementOverflowInf .rne false m (scaleQ dst uns) e
        -- below 2^-126 the scale is 2^-126
        (if s.flushed || (f32 s.bits).cmp (.fin false 1 (-126)) == some (-1) then 0x00800000 else s.bits, false)
    | _ => (canonNan, true)

/-- round(v / s) to the destination (02 R57 step 4), for a finite v and a scale s. -/
def quotTo (cv : Cvt) (rnd : Rnd) (v : XR) (s : Word) : Rounded :=
  match v, f32 s with
  | .fin n m e, .fin _ d f => roundRatTo cv.dst cv.uns cv.ovf rnd n m d (e - f)
  | .fin n _ _, .inf _ => roundTo cv.dst cv.uns cv.ovf rnd (.fin n 0 0)
  | _, _ => roundTo cv.dst cv.uns cv.ovf rnd .nan

end Sys2Proof.Machine
end

