-- ==== Sys2Proof/Machine/Link.lean ====
section
/-!
DEFINITION. What leaves a port: launches and their schedules, boxes and rings (11 R318, 12 R341), slot routes (11 R320), flits (11 R313, R314,
R317), and the control flits of collectives (12 R347).
-/

namespace Sys2Proof.Machine

def State.emit (s : State) (o : Out) : State := { s with out := s.out ++ [o] }
def State.emitAll (s : State) (o : List Out) : State := { s with out := s.out ++ o }


/-! ### Launches -/

def State.launchOf (s : State) (q : BitVec 12) : Option Launch := s.launches.find? fun l => l.qid == q
def State.resident (s : State) : Option Launch := s.launches.find? fun l => l.cond == .resident
def State.modLaunch (s : State) (q : BitVec 12) (f : Launch → Launch) : State :=
  { s with launches := s.launches.map fun l => if l.qid == q then f l else l }

/-- The resident launch while it runs (04 R135). -/
def State.running (s : State) : Option Launch :=
  match s.resident with
  | some l => if l.run == .running && s.saving == none && s.restoring == none then some l else none
  | none => none

def State.sched (s : State) (jobTag : Word) (epoch : BitVec 16) : Option Sched :=
  s.scheds.find? fun x => x.jobTag == jobTag && x.epoch == epoch


/-! ### Ports (11 R311, R334) -/

def State.port (s : State) (p : Fin 6) : Port := sget {} s.fab.ports p.val
def State.modPort (s : State) (p : Fin 6) (f : Port → Port) : State := { s with fab := { s.fab with ports := smod {} s.fab.ports p.val f } }

def allPorts : List (Fin 6) := [0, 1, 2, 3, 4, 5]
def State.portUp (s : State) (p : Fin 6) : Bool := (s.port p).state == .up
/-- Ports that carry a LINK symbol: in service, or in standby (11 R334). -/
def State.linkPorts (s : State) : List (Fin 6) := allPorts.filter fun p => s.portUp p || (s.port p).state == .standby
def State.upPorts (s : State) : List (Fin 6) := allPorts.filter s.portUp

def State.symOn (s : State) (ps : List (Fin 6)) (y : Sym) : State := s.emitAll (ps.map fun p => .sym p y)

/-! ### Boxes, groups and rings (11 R311, R318, 12 R341, R342, R347) -/

/-- Index of a member map's position. -/
def Sched.memberAt (x : Sched) (p : Nat × Nat × Nat) : Option Nat := x.map.findIdx? fun q => q == p
/-- Box position of a member. -/
def Sched.pos (x : Sched) (m : Nat) : Nat × Nat × Nat := x.map.getD m (0, 0, 0)

def axisNo : Axis → Nat
  | .x => 0 | .y => 1 | .z => 2
def axisOf (b : Nat × Nat × Nat) : Axis → Nat
  | .x => b.1 | .y => b.2.1 | .z => b.2.2

/-- Sides of the system as trained (11 R312). -/
def State.sysDim (s : State) (a : Axis) : Nat :=
  let t := (s.fab.trained.getD s.fab.coord).toNat
  (match a with | .x => t >>> 28 | .y => t >>> 24 | .z => t >>> 20) % 16 + 1

/-- Device id of a box position: the box may wrap around the system's axes (00 R7, 11 R318). -/
def State.devAt (s : State) (x : Sched) (p : Nat × Nat × Nat) : Nat :=
  (x.origin.1 + p.1) % s.sysDim .x + 16 * ((x.origin.2.1 + p.2.1) % s.sysDim .y) + 256 * ((x.origin.2.2 + p.2.2) % s.sysDim .z)

def devCoord (d : Nat) (a : Axis) : Nat := (d >>> (4 * axisNo a)) % 16
def setDevCoord (d : Nat) (a : Axis) (v : Nat) : Nat := d - devCoord d a * 16 ^ axisNo a + v * 16 ^ axisNo a

/-- The port of the device at coordinate `i` of an axis toward + or -: on an axis of length 2 one link carries both (11 R311). -/
def hopPort (a : Axis) (n i : Nat) (plus : Bool) : Fin 6 :=
  let p := if n = 2 then i == 0 else plus
  ⟨2 * axisNo a + (if p then 0 else 1), by cases a <;> simp [axisNo] <;> split <;> omega⟩

/-- This device's port toward + or - on an axis. -/
def State.portTo (s : State) (a : Axis) (plus : Bool) : Fin 6 := hopPort a (s.sysDim a) (devCoord s.devid.toNat a) plus

/-- A group: its origin in the box and its sides (12 R341). -/
structure Group where
  o : Nat × Nat × Nat
  sides : Nat × Nat × Nat
  deriving DecidableEq, Repr

/-- The place of a box position on an axis of the group. -/
def Group.place (g : Group) (p : Nat × Nat × Nat) (a : Axis) : Nat := axisOf p a - axisOf g.o a
def Group.has (g : Group) (p : Nat × Nat × Nat) : Bool :=
  [Axis.x, .y, .z].all fun a => decide (axisOf g.o a ≤ axisOf p a) && decide (axisOf p a < axisOf g.o a + axisOf g.sides a)

/-- Three 4-bit fields, X first. -/
def nib3 (v : BitVec 12) : Nat × Nat × Nat := (v.toNat / 256, v.toNat / 16 % 16, v.toNat % 16)
def toNib3 (p : Nat × Nat × Nat) : BitVec 12 := .ofNat 12 (p.1 % 16 * 256 + p.2.1 % 16 * 16 + p.2.2 % 16)
/-- Group of an origin and sides minus 1. -/
def groupOf (origin sides : BitVec 12) : Group :=
  let s := nib3 sides
  { o := nib3 origin, sides := (s.1 + 1, s.2.1 + 1, s.2.2 + 1) }

/-- A ring closes when the group spans the whole system axis and that axis is longer than 2 (12 R342). -/
def State.ringClosed (s : State) (g : Group) (a : Axis) : Bool := decide (axisOf g.sides a = s.sysDim a ∧ axisOf g.sides a > 2)

/-- Data or an entry from place `src` goes on from place `i` of a ring of `n`: on a closed ring ceil((n - 1)/2) places in the +
direction and the rest in the - direction, on an open ring to both ends (12 R347, R353). -/
def goesOn (closed : Bool) (n src i : Nat) (plus : Bool) : Bool :=
  if closed then (if plus then decide ((i + n - src) % n < n / 2) else decide ((src + n - i) % n < (n - 1) / 2))
  else if plus then decide (i + 1 < n) else decide (0 < i)

/-- The axes and directions in which a place starts a ring of its own. -/
def State.ringStarts (s : State) (g : Group) (p : Nat × Nat × Nat) (axes : List Axis) : List (Axis × Bool) :=
  (axes.map fun a => [true, false].filterMap fun plus =>
    if goesOn (s.ringClosed g a) (axisOf g.sides a) (g.place p a) (g.place p a) plus then some (a, plus) else none).flatten

def axesAfter : Axis → List Axis
  | .x => [.y, .z] | .y => [.z] | .z => []

/-- The axis of a port, and whether what arrives on it moves in the + direction. -/
def portAxis (p : Fin 6) : Axis := if p.val < 2 then .x else if p.val < 4 then .y else .z
def movesPlus (p : Fin 6) : Bool := p.val % 2 == 1

def Coll.isBarrier (c : Coll) : Bool := c.collId == 0xFFF
def Coll.group (c : Coll) (x : Sched) : Group :=
  if c.isBarrier then { o := (0, 0, 0), sides := x.box }
  else let w := c.words.getD 2 0; groupOf (.ofNat 12 (w.toNat >>> 20)) (.ofNat 12 (w.toNat >>> 8 % 4096))

/-- The epoch a launch runs under (11 R322). -/
def Launch.ep (l : Launch) : BitVec 16 := l.resumeEpoch.getD l.epoch
def State.schedOf (s : State) (l : Launch) : Option Sched := s.sched l.jobTag l.ep


/-- Member at a group place. -/
def memberAtPlace (x : Sched) (g : Group) (p : Nat × Nat × Nat) : Option Nat :=
  x.memberAt (g.o.1 + p.1, g.o.2.1 + p.2.1, g.o.2.2 + p.2.2)

def setAxis (p : Nat × Nat × Nat) (a : Axis) (v : Nat) : Nat × Nat × Nat :=
  match a with
  | .x => (v, p.2.1, p.2.2)
  | .y => (p.1, v, p.2.2)
  | .z => (p.1, p.2.1, v)


/-! ### Slot routes (11 R320, R321) -/

/-- The place on an axis that `h` hops lead to from place `p` of a box side of `n`: around the ring where the box spans a system axis
longer than 2 (00 R8); none when a route leaves the box or would use an unused port (11 R320). -/
def hopEnd (sys n p : Nat) (h : Int) : Option Nat :=
  let v := (p : Int) + h
  if n = sys ∧ sys > 2 then some (v % (n : Int)).toNat
  else if v < 0 ∨ v ≥ n then none else some v.toNat

/-- A slot's hops in its axis order: axis, direction and count (11 R320). -/
def SchedSlot.legs (t : SchedSlot) : List (Axis × Bool × Nat) :=
  let hops (a : Axis) : Int := match a with | .x => t.hops.1 | .y => t.hops.2.1 | .z => t.hops.2.2
  let order : List Axis :=
    match t.order.toNat with
    | 0 => [.x, .y, .z] | 1 => [.x, .z, .y] | 2 => [.y, .x, .z] | 3 => [.y, .z, .x] | 4 => [.z, .x, .y] | _ => [.z, .y, .x]
  (order.filter fun a => hops a != 0).map fun a => (a, decide (hops a > 0), (hops a).natAbs)

/-- Its first hop: axis and direction. -/
def SchedSlot.firstHop (t : SchedSlot) : Option (Axis × Bool) := t.legs.head?.map fun g => (g.1, g.2.1)

/-- Where a slot's route ends. -/
def State.routeEnd (s : State) (x : Sched) (t : SchedSlot) : Option Nat :=
  let p := x.pos x.self.toNat
  match hopEnd (s.sysDim .x) x.box.1 p.1 t.hops.1, hopEnd (s.sysDim .y) x.box.2.1 p.2.1 t.hops.2.1,
      hopEnd (s.sysDim .z) x.box.2.2 p.2.2 t.hops.2.2 with
  | some a, some b, some c => some (s.devAt x (a, b, c))
  | _, _, _ => none

/-! ### Flits (11 R313, R314, R317) -/

/-- The bytes of a flit with its link sequence number (11 R313). -/
def Flit.bytes (f : Flit) (seq : BitVec 12) : List Byte :=
  let b := leBytes 4 (f.cls.toNat * 2 ^ 30 + f.dst.toNat * 2 ^ 18 + f.src.toNat * 2 ^ 6 + f.core.toNat) ++
    leBytes 4 (f.tag.toNat * 2 ^ 20 + seq.toNat * 2 ^ 8) ++ leBytes 4 (f.chunk.toNat * 2 ^ 8) ++ (f.data ++ List.replicate 256 0).take 256
  b ++ leBytes 4 (crc32c b).toNat

/-- A flit and its link sequence number; none unless it is intact (11 R313). -/
def readFlit (bs : List Byte) : Option (Flit × BitVec 12) :=
  let w (i : Nat) : Nat := leNat ((bs.drop (4 * i)).take 4)
  if bs.length ≠ 272 ∨ w 0 / 2 ^ 30 = 3 ∨ leNat (bs.drop 268) ≠ (crc32c (bs.take 268)).toNat then none
  else
    some ({ cls := .ofNat 2 (w 0 / 2 ^ 30), dst := .ofNat 12 (w 0 / 2 ^ 18), src := .ofNat 12 (w 0 / 2 ^ 6), core := .ofNat 6 (w 0), tag := .ofNat 12 (w 1 / 2 ^ 20),
            chunk := .ofNat 24 (w 2 / 2 ^ 8), data := (bs.drop 12).take 256 }, .ofNat 12 (w 1 / 2 ^ 8))

/-- The next flit to leave: collective before stream (11 R317). -/
def nextFlit (l : List Flit) : Option Flit := (l.find? fun f => f.cls == 1).or l.head?

/-- Flits that wait leave a port while its replay buffer of 512 has room (11 R314). -/
def drainGo (p : Fin 6) : Nat → State → State
  | 0, s => s
  | fuel + 1, s =>
    let q := s.port p
    match nextFlit q.backlog with
    | some f =>
      if q.replay.length ≥ 512 then s
      else drainGo p fuel ((s.modPort p fun q => { q with txSeq := q.txSeq + 1, replay := q.replay ++ [(q.txSeq, f)], backlog := q.backlog.erase f }).emit
        (.flit p (f.bytes q.txSeq)))
    | none => s
def State.drainPort (s : State) (p : Fin 6) : State := drainGo p (s.port p).backlog.length s

/-- A flit goes to a port. One that is not in service carries none (11 R312, R331). -/
def State.pushFlit (s : State) (p : Fin 6) (f : Flit) : State :=
  if s.portUp p then (s.modPort p fun q => { q with backlog := q.backlog ++ [f] }).drainPort p else s

/-- A flit of this device's own: a drained device originates none (14 R427). -/
def State.sendFlit (s : State) (p : Fin 6) (cls : BitVec 2) (dst : Nat) (core : BitVec 6) (tag : BitVec 12) (chunk : Nat) (data : List Byte) : State :=
  if s.fab.drainedIds.contains s.devid then s
  else s.pushFlit p { cls := cls, dst := .ofNat 12 dst, src := s.devid, core := core, tag := tag, chunk := .ofNat 24 chunk, data := data }

/-! ### Ring neighbours (12 R342) -/

/-- The device one ring place on. -/
def State.ringNext (s : State) (x : Sched) (g : Group) (d : Axis × Bool) : Nat :=
  let me := x.pos x.self.toNat
  let n := axisOf g.sides d.1
  let i := g.place me d.1
  s.devAt x (setAxis me d.1 (axisOf g.o d.1 + (if d.2 then (i + 1) % n else (i + n - 1) % n)))

/-- The port by which a flit goes to a ring neighbour: that of its link or, while that is out of service, the first of a slot route of the
epoch that ends there (11 R322, 12 R342, entry 56). -/
def State.hopTo (s : State) (x : Sched) (g : Group) (d : Axis × Bool) : Fin 6 :=
  let p := s.portTo d.1 d.2
  if s.portUp p then p
  else
    match (x.slots.find? fun t => t.used && s.routeEnd x t == some (s.ringNext x g d)).bind (·.firstHop) with
    | some h => s.portTo h.1 h.2
    | none => p

/-- Send a control flit of a collective to ring neighbours (12 R347). -/
def State.sendControl (s : State) (x : Sched) (g : Group) (jobTag : Word) (id : BitVec 12) (dirs : List (Axis × Bool)) (c : CollCtl) : State :=
  dirs.foldl (fun s d =>
    let p := s.hopTo x g d
    (if s.portUp p then s.emit (.control p jobTag id c) else s).sendFlit p 1 (s.ringNext x g d) 0 id 0xFFFFFF (Config.controlBytes jobTag c)) s

end Sys2Proof.Machine
end

