-- ==== Sys2Proof/Machine/Ops.lean ====
section
/-!
DEFINITION. The named operations that the meanings share: cores and queues, messages that leave (13 R374-R376, R390,
R391), the error log ring (14 R417-R419), stops, halts and drains (04 R132, R133, 14 R425-R427), subscribers.
-/

namespace Sys2Proof.Machine

/-- A meaning that answers a next state. -/
abbrev Res := Host.Outcome State Fault Refusal

/-! ### Accessors -/

def State.core (s : State) (c : Nat) : Core := sget {} s.cores c
def State.setCore (s : State) (c : Nat) (k : Core) : State := { s with cores := sset {} s.cores c k }
def State.modCore (s : State) (c : Nat) (f : Core → Core) : State := s.setCore c (f (s.core c))

def State.queue (s : State) (q : BitVec 12) : Queue := sget {} s.qce.queues q.toNat
def State.modQueue (s : State) (q : BitVec 12) (f : Queue → Queue) : State :=
  { s with qce := { s.qce with queues := smod {} s.qce.queues q.toNat f } }

def State.ctxOf (s : State) (c : BitVec 8) : Ctx := sget {} s.xlt.ctxs c.toNat

/-- Scalar register: s0 reads 0 (04 R102). -/
def Core.rs (k : Core) (r : BitVec 5) : Word := if r = 0 then 0 else sget 0 k.s r.toNat
/-- A write to s0 is ignored (04 R102). -/
def Core.setS (k : Core) (r : BitVec 5) (v : Word) : Core := if r = 0 then k else { k with s := sset 0 k.s r.toNat v }
def Core.ra (k : Core) (r : BitVec 4) : Dword := sget 0 k.a r.toNat
def Core.setA (k : Core) (r : BitVec 4) (v : Dword) : Core := { k with a := sset 0 k.a r.toNat v }
def Core.tok (k : Core) (i : Fin 16) : BitVec 16 := sget 0 k.k i.val
def Core.setTok (k : Core) (i : Fin 16) (v : BitVec 16) : Core := { k with k := sset 0 k.k i.val v }
def Core.slot (k : Core) (d : BitVec 5) : BitVec 10 := sget 0 k.d d.toNat

/-- Words of the descriptor store from line `line`. -/
def Core.lineWords (k : Core) (line n : Nat) : List Word := sread 0 k.dsc (16 * line) n
def Core.dw (k : Core) (line w : Nat) : Word := sget 0 k.dsc (16 * line + w)
def Core.setDw (k : Core) (line w : Nat) (v : Word) : Core := { k with dsc := sset 0 k.dsc (16 * line + w) v }

/-- Operand-store size (03 R70). -/
def ostSize : Nat := 3 * 1048576

def Core.ostRead (k : Core) (off n : Nat) : List Byte := sread 0 k.ost off n
/-- Mark granules as unlogged, or with the serial of a logged stream (14 R411): 0 is unlogged, serial + 1 is logged. -/
def markGranules (t : Sparse (BitVec 17)) (off n : Nat) (v : BitVec 17) : Sparse (BitVec 17) :=
  if n = 0 then t else (List.range ((off + n - 1) / 64 - off / 64 + 1)).foldl (fun t i => sset 0 t (off / 64 + i) v) t
def Core.ostWriteAs (k : Core) (off : Nat) (bs : List Byte) (serial : BitVec 17) : Core :=
  { k with ost := swrite 0 k.ost off bs, serials := markGranules k.serials off bs.length serial }
/-- A write that is not a logged stream's. -/
def Core.ostWrite (k : Core) (off : Nat) (bs : List Byte) : Core := k.ostWriteAs off bs 0

/-- The launch beat L (04 R116). -/
def Launch.beat (l : Launch) (cnt : Dword) : Word := lo32 (cnt - l.start.getD 0)

/-- Physical core of a role in set `set`: the core-map entry that holds it (14 R434). Unlisted entries are those of a fresh
module: role p for p < 8, spare for p = 8 (entry 3). -/
def State.role (s : State) (set p : Nat) : BitVec 4 :=
  match s.err.roles.find? fun e => e.1 == 9 * set + p with
  | some e => e.2
  | none => .ofNat 4 p
def State.setRole (s : State) (set p : Nat) (r : BitVec 4) : State :=
  { s with err := { s.err with roles := sset (.ofNat 4 p) s.err.roles (9 * set + p) r } }
/-- Index 9s + p of the physical core that holds logical core c; none while no core of the set does. -/
def State.physOf (s : State) (c : Nat) : Option Nat :=
  ((List.range 9).find? fun p => s.role (c / 8) p == .ofNat 4 (c % 8)).map fun p => 9 * (c / 8) + p
/-- The physical core of a set with a role; none if there is none. -/
def State.coreWith (s : State) (set : Nat) (r : BitVec 4) : Option Nat := (List.range 9).find? fun p => s.role set p == r

def State.modPcore (s : State) (i : Nat) (f : PCore → PCore) : State := { s with pcores := smod {} s.pcores i f }

/-- Change the counters of the physical core that holds logical core c (03 R98, 07 R216). -/
def State.countOn (s : State) (c : Nat) (f : PCore → PCore) : State :=
  match s.physOf c with
  | some i => s.modPcore i f
  | none => s

/-! ### Messages that leave -/

/-- The obligations of a stopped launch clear (11 R330). -/
def State.clearObligations (s : State) (key : Option Nat) : State :=
  { s with heldObls := s.heldObls.filter fun h => some h.key != key }

/-- The receive window's acknowledgement: bit i is set when psn ack_psn + 2 + i is held (13 R371). -/
def Queue.sack (q : Queue) : Word :=
  (List.range 32).foldl (fun a i =>
    if q.rxAhead.any fun m => m.psn == q.rxPsn + 1 + .ofNat 32 i then a ||| (1#32 <<< i) else a) 0

/-- The highest psn that the host may send: depth messages beyond those whose COMPLETION it acknowledged (13 R376). -/
def Queue.limit (q : Queue) : Word := q.freed + q.depth.setWidth 32

/-- The host's credit allows the next psn (13 R376). -/
def Queue.canSend (q : Queue) : Bool := decide ((q.hostCred - q.txPsn).toInt ≥ 0)

/-- An EVENT about its launch still waits: a COMPLETION follows it (13 R392). -/
def State.eventWaits (s : State) (m : TxMsg) : Bool :=
  m.after.any fun r => s.qce.queues.any fun e => e.2.txWait.any fun x => x.record == some r

def State.ipv6Addr (s : State) : BitVec 128 := sget 0 s.qce.ipv6 0 ++ sget 0 s.qce.ipv6 1 ++ sget 0 s.qce.ipv6 2 ++ sget 0 s.qce.ipv6 3

/-- The device's own address of an IP version. -/
def State.ownAddr (s : State) (ipv6 : Bool) : BitVec 128 := if ipv6 then s.ipv6Addr else s.qce.ipv4.setWidth 128

/-- The network fields of a CQT packet of a queue: its endpoint's entry at the time of sending (13 R370, R377). -/
def State.cqtNet (s : State) (qid : BitVec 12) : Net :=
  let e := sget ({} : Endpoint) s.qce.endpoints (s.queue qid).endpoint.toNat
  { ipv6 := e.ipv6, srcAddr := s.ownAddr e.ipv6, dstAddr := if e.ipv6 then e.addr else (e.addr.setWidth 32).setWidth 128,
    srcPort := s.qce.port, dstPort := e.port, mac := e.mac, dscp := s.qce.dscp }

/-- Send waiting messages while credit remains (13 R376). -/
def flushGo : Nat → BitVec 12 → State → State
  | 0, _, s => s
  | fuel + 1, qid, s =>
    let q := s.queue qid
    match q.txWait with
    | [] => s
    | m :: rest =>
      if q.canSend && !s.eventWaits m then
        let s' := s.modQueue qid fun q => { q with txWait := rest, txPsn := q.txPsn + 1, needAck := false,
                                                   sent := q.sent ++ [{ psn := q.txPsn, msg := m, tries := 1, since := q.txPsn + 1 }] }
        let s' := (s'.modQueue qid fun q => { q with devCred := q.limit }).emit (.cqt (s.cqtNet qid) qid q.txPsn (q.rxPsn - 1) q.sack q.limit m)
        flushGo fuel qid (s'.clearObligations m.releases)
      else s

/-- Queues whose first waiting message is a COMPLETION that follows EVENTs. -/
def State.heldQueues (s : State) : List (BitVec 12) :=
  (s.qce.queues.filter fun e => match e.2.txWait with | m :: _ => !m.after.isEmpty | [] => false).map fun e => .ofNat 12 e.1

/-- COMPLETIONs that waited for EVENTs go on. -/
def State.flushHeld (s : State) : State :=
  s.heldQueues.foldl (fun s _ => s.heldQueues.foldl (fun s q => flushGo (s.queue q).txWait.length q s) s) s

def State.flushTx (s : State) (qid : BitVec 12) : State := (flushGo (s.queue qid).txWait.length qid s).flushHeld

/-- Queue a message for the host and send what credit allows. -/
def State.sendMsg (s : State) (qid : BitVec 12) (m : TxMsg) : State :=
  (s.modQueue qid fun q => { q with txWait := q.txWait ++ [m] }).flushTx qid

def padWords (n : Nat) (ws : List Word) : List Word := (ws ++ List.replicate n 0).take n

/-- The words of a COMPLETION (13 R390). -/
def completionWords (cmd type : Nat) (code : Code) (cookie fence : Word) (energy beat : Dword) (result : List Word) : List Word :=
  [.ofNat 32 (cmd * 2 ^ 24 + type * 2 ^ 16 + code.toNat), cookie, fence, 0, lo32 energy, hi32 energy, lo32 beat, hi32 beat] ++
    padWords 16 result ++ List.replicate 8 0

/-- What a COMPLETION says of its message. -/
structure Answer where
  cmd : Nat
  type : Nat
  code : Code := 0
  result : List Word := []
  data : List Byte := []
  /-- the COMPLETION of a launch that stopped: its obligations clear when it leaves -/
  releases : Option Nat := none
  /-- the COMPLETION of a launch: it follows the EVENTs about it (13 R392) -/
  launch : Bool := false
  /-- the endpoint was lost while the launch ran: it is discarded (13 R375) -/
  lost : Bool := false
  deriving DecidableEq, Repr

/-- Records whose EVENTs about a queue still wait. -/
def State.eventsAbout (s : State) (qid : BitVec 12) : List Word :=
  (s.qce.queues.map fun e => e.2.txWait.filterMap fun m => if m.about == some qid then m.record else none).flatten

/-- Create a COMPLETION: it latches the energy since the last one (01 R33), the fence epoch and the beat. -/
def State.complete (s : State) (qid : BitVec 12) (cookie : Word) (a : Answer) : State :=
  let q := s.queue qid
  let words := completionWords a.cmd a.type a.code cookie q.fenceEpoch (q.energy - q.lastEnergy) s.fab.cnt a.result
  let s := s.modQueue qid fun q => { q with lastEnergy := q.energy }
  if a.lost then s.clearObligations a.releases
  else s.sendMsg qid { words := words, data := a.data, releases := a.releases, answers := true, after := if a.launch then s.eventsAbout qid else [] }

/-- Fields of an EVENT (13 R391). -/
structure EvInfo where
  code : Code
  cause : Nat := 0
  core : Nat := 0
  pool : Nat := 0
  port : Nat := 0
  ctx : Nat := 0
  inst : Nat := 0
  line : Nat := 0
  sub : Nat := 0
  va : Dword := 0
  seq : Word := 0
  /-- the device named, if not this one -/
  dev : Option (BitVec 12) := none
  deriving DecidableEq, Repr

def State.eventWords (s : State) (e : EvInfo) : List Word :=
  padWords 16 [.ofNat 32 (e.code.toNat * 65536 + e.cause * 256 + e.core),
    .ofNat 32 ((e.dev.getD s.devid).toNat * 2 ^ 20 + e.pool * 2 ^ 17 + e.port * 2 ^ 14 + e.ctx), .ofNat 32 e.inst,
    .ofNat 32 (e.line * 2 ^ 22 + e.sub), lo32 e.va, hi32 e.va, lo32 s.fab.cnt, hi32 s.fab.cnt, e.seq]

/-- Send an EVENT on a queue (13 R391). -/
def State.event (s : State) (qid : BitVec 12) (e : EvInfo) : State := s.sendMsg qid { words := s.eventWords e, data := [] }

/-! ### The error log ring (14 R417-R419) -/

/-- What a record says; serial and beat are given when it is appended. -/
structure RecInfo where
  code : Code
  source : BitVec 3 := 3
  cls : BitVec 2 := 0
  outcome : BitVec 3 := 0
  nested : Bool := false
  kind : BitVec 4 := 0
  unit : BitVec 12 := 0
  qid : Option (BitVec 12) := none
  core : Option (BitVec 6 × BitVec 20) := none
  cause : BitVec 5 := 0
  detail : Dword := 0
  /-- the virtual address of the failing access, for the EVENT (13 R391) -/
  va : Dword := 0
  deriving DecidableEq, Repr

def Rec.words (r : Rec) : List Word :=
  [.ofNat 32 (r.code.toNat * 65536 + r.source.toNat * 2 ^ 13 + r.cls.toNat * 2 ^ 11 + r.outcome.toNat * 2 ^ 8 + b2n r.nested * 2 ^ 7),
   .ofNat 32 (r.kind.toNat * 2 ^ 28 + r.unit.toNat * 2 ^ 16 + (match r.qid with | some q => 2 ^ 15 + q.toNat | none => 0)),
   .ofNat 32 ((match r.core with | some c => 2 ^ 31 + c.1.toNat * 2 ^ 25 + c.2.toNat | none => 0) + r.cause.toNat * 2 ^ 20),
   r.serial, lo32 r.beat, hi32 r.beat, lo32 r.detail, hi32 r.detail]

/-- Retire from the oldest on, while firmware has handled the record and its EVENT is acknowledged (hold = 0). -/
def retireAcked : List Rec → List Rec
  | [] => []
  | r :: t => if r.handled && r.acked then retireAcked t else r :: t

def State.retire (s : State) : State :=
  if s.err.hold then s else { s with err := { s.err with ring := retireAcked s.err.ring } }

/-- Address context of a record's queue: the launch's, else the queue's (13 R391). -/
def State.recCtx (s : State) (qid : Option (BitVec 12)) : BitVec 8 :=
  match qid with
  | some q => ((s.launchOf q).map (·.ctx)).getD (s.queue q).ctx
  | none => 0

/-- Append a record and send its EVENT; true when the ring was full and the record is lost (14 R419). -/
def State.pushRec (s : State) (i : RecInfo) : State × Bool :=
  if s.err.ring.length ≥ 64 then (s, true)
  else
    let r : Rec := { code := i.code, source := i.source, cls := i.cls, outcome := i.outcome, nested := i.nested, kind := i.kind,
                     unit := i.unit, qid := i.qid, core := i.core, cause := i.cause, detail := i.detail,
                     serial := s.err.serial, beat := s.fab.cnt, handled := true, acked := !s.qce.evqEn }
    let s := { s with err := { s.err with ring := s.err.ring ++ [r], serial := s.err.serial + 1 } }
    let s :=
      if s.qce.evqEn && (s.queue s.qce.evq).valid then
        s.sendMsg s.qce.evq
          { words := s.eventWords { code := i.code, cause := i.cause.toNat, core := (i.core.map (·.1.toNat)).getD 0,
                                    inst := (i.core.map (·.2.toNat)).getD 0, ctx := (s.recCtx i.qid).toNat, va := i.va },
            data := [], record := some r.serial, about := i.qid }
      else s
    (s.retire, false)

/-! ### The history (14 R415, R416) -/

/-- Make room in a full copy of 32,768 entries: the oldest entry of a unit without an event for 10^6 operating seconds goes. -/
def trimHistory (h : List Hist) (now : Nat) : List Hist :=
  if h.length < 32768 then h
  else h.eraseP fun e => !(h.any fun x => x.kind == e.kind && x.unit == e.unit && decide (now ≤ x.second + 1000000))

/-- Write an entry to the flash history, in both copies. -/
def State.history (s : State) (kind : BitVec 4) (unit : Nat) (what : HKind) : State :=
  { s with err := { s.err with history := trimHistory s.err.history s.err.opsec ++
                                            [{ kind := kind, unit := unit, what := what, second := s.err.opsec }] } }

/-- Transient events of a unit within the last 10^6 operating seconds. -/
def State.eventsOf (s : State) (kind : BitVec 4) (unit : Nat) : Nat :=
  ((s.err.history ++ s.err.heldHistory).filter fun h =>
    h.kind == kind && h.unit == unit && h.what == .transient && decide (s.err.opsec ≤ h.second + 1000000)).length

/-- An event of this unit is already recorded in this beat: at most one a beat (14 R415). -/
def State.eventThisBeat (s : State) (kind : BitVec 4) (unit : Nat) : Bool :=
  s.err.noted.contains (kind, unit)

/-- Write the event of a unit: its only one in this beat. -/
def State.event1 (s : State) (kind : BitVec 4) (unit : Nat) (what : HKind) : State :=
  let s := s.history kind unit what
  { s with err := { s.err with noted := s.err.noted ++ [(kind, unit)] } }

/-- The unit has rejoined within the last 10^6 operating seconds: its first event makes it permanent again (15 R451, R452). -/
def State.lateRejoin (s : State) (kind : BitVec 4) (unit : Nat) : Bool :=
  (s.err.history ++ s.err.heldHistory).any fun h => h.kind == kind && h.unit == unit && h.what == .rejoin && decide (s.err.opsec ≤ h.second + 1000000)

/-- Record a detection of a unit; true when it makes the unit permanent: the third within the span, or the first after a rejoin (14 R416,
15 R451). -/
def State.noteEvent (s : State) (kind : BitVec 4) (unit : Nat) : State × Bool :=
  if s.eventThisBeat kind unit then (s, false)
  else
    let perm := decide (s.eventsOf kind unit ≥ 2) || s.lateRejoin kind unit
    (s.event1 kind unit (if perm then .permanent else .transient), perm)

/-- The last entry of a unit becomes permanent; none when it has no entry there. -/
def makePermanent (kind : BitVec 4) (unit : Nat) : List Hist → Option (List Hist)
  | [] => none
  | h :: t =>
    match makePermanent kind unit t with
    | some t => some (h :: t)
    | none => if h.kind = kind ∧ h.unit = unit then some ({ h with what := .permanent } :: t) else none

/-- A failed replay, or a detection in a recovery path: the unit is permanent (14 R408, R416, R421). The event recorded in this beat, if
there is one, becomes the permanent one (14 R415, entry 31). -/
def State.notePermanent (s : State) (kind : BitVec 4) (unit : Nat) : State :=
  if s.eventThisBeat kind unit then
    match makePermanent kind unit s.err.history with
    | some h => { s with err := { s.err with history := h } }
    | none => { s with err := { s.err with heldHistory := (makePermanent kind unit s.err.heldHistory).getD s.err.heldHistory } }
  else s.event1 kind unit .permanent

/-! ### Collectives of a job (12 R361-R363) -/

/-- Send an abort around this member's rings, in the manner of entries (12 R361). -/
def State.sendAbort (s : State) (l : Launch) (c : Coll) (code : Code) (culprit : BitVec 12) : State :=
  match s.schedOf l with
  | some x =>
    let g := c.group x
    s.sendControl x g l.jobTag c.collId (s.ringStarts g (x.pos x.self.toNat) [.x, .y, .z])
      (.abort { code := code, culprit := culprit, sender := x.self, origin := toNib3 g.o, sides := toNib3 (g.sides.1 - 1, g.sides.2.1 - 1, g.sides.2.2 - 1) })
  | none => s

/-- Words W11 to W14 of a collective line (12 R343). -/
def collRecord (state : Nat) (valid : Bool) (code : Code) (culprit : BitVec 12) (flags : Flags) (written : Nat) (beat : Dword) : List Word :=
  [.ofNat 32 (state * 2 ^ 28 + b2n valid * 2 ^ 27 + code.toNat), .ofNat 32 (culprit.toNat * 2 ^ 20 + flags.toNat), .ofNat 32 written, lo32 beat]

def Core.setWords (k : Core) (line w : Nat) (vs : List Word) : Core := { k with dsc := swrite 0 k.dsc (16 * line + w) vs }

/-- Write a FAILED record and count it (12 R361, R369). -/
def State.recordFailure (s : State) (c : Coll) (code : Code) (culprit : BitVec 12) : State :=
  let s := s.modCore c.core.val fun k => k.setWords c.line.toNat 11 (collRecord 5 false code culprit c.flags c.written s.fab.cnt)
  { s with col := { s.col with failed := satInc s.col.failed, lastCode := code, lastCulprit := culprit } }

/-- A job's collectives leave with its launch; entries and aborts that have come early for the barrier of its next launch stay (12 R346). -/
def ColBlk.leave (b : ColBlk) (jobTag : Word) : ColBlk :=
  { b with colls := b.colls.filter fun c => c.jobTag != jobTag, finished := b.finished.filter fun c => c.jobTag != jobTag,
           aborts := b.aborts.filter fun a => a.1 != jobTag || a.2.1 == 0xFFF, early := b.early.filter fun e => e.1 != jobTag || e.2.1 == 0xFFF,
           waits := b.waits.filter fun w => w.1 != jobTag }

/-- The unfinished collectives of a launch that ends fail: with a failure that was kept (R367), else with E_COLL_PEER, which an abort that
names this member says to the others (12 R363). -/
def State.abortColls (s : State) (l : Launch) : State :=
  let me : BitVec 12 := ((s.schedOf l).map (·.self)).getD 0
  let s := (s.col.colls.filter fun c => c.jobTag == l.jobTag).foldl (fun s c =>
    let f := c.failure.getD (eCollPeer, me)
    let s := if c.isBarrier then s else s.recordFailure c f.1 f.2
    if c.failure.isSome then s else s.sendAbort l c eCollPeer me) s
  { s with col := s.col.leave l.jobTag }

/-! ### Stops (04 R132, 02 R67-R69) -/

/-- The 16 words of a stop record; a trap names its core in detect_mask and the beat (02 R69). -/
def StopInfo.words (i : StopInfo) (beat : Dword) : List Word :=
  let c := i.core.getD 0
  let trap := decide (i.trapKind ≠ 0)
  let mask : Nat := if trap then 2 ^ c else 0
  [.ofNat 32 (i.code.toNat * 65536 + i.trapKind * 2 ^ 14 + c * 256 + i.fmt * 16 + i.operand), .ofNat 32 i.pc.toNat,
   hi32 i.bits, lo32 i.bits, .ofNat 32 i.row, .ofNat 32 i.col] ++ padWords 6 (i.loops.map fun n => .ofNat 32 n) ++
  [.ofNat 32 (i.problem % 65536), .ofNat 32 mask, .ofNat 32 (mask / 2 ^ 32), if trap then lo32 beat else 0]

/-- Stream state in W1 [31:28] (08 R239, R240). -/
def Core.setStreamState (k : Core) (line : Nat) (st : Nat) : Core :=
  k.setDw line 1 (BitVec.ofNat 32 ((k.dw line 1).toNat % 2 ^ 28 + st * 2 ^ 28))

/-- A stopped core: streams ABORTED, units and flights discarded (04 R132, 08 R240). -/
def Core.stop (k : Core) : Core :=
  let lines := (k.eng.map fun e => e.2.map fun st => st.line.toNat).flatten
  let k := lines.foldl (fun k ln => k.setStreamState ln 5) k
  { k with eng := [], qMxu := [], qVec := [], qStm := [], qSyn := [], flight := [], seqWait := none, stopped := true, obligation := none }

def State.mapCores (s : State) (f : Core → Core) : State :=
  { s with cores := (List.range 64).foldl (fun t c => smod ({} : Core) t c f) s.cores }

/-- The message that a queue's order waits on has completed: the next may begin. -/
def State.clearCur (s : State) (qid : BitVec 12) : State := s.modQueue qid fun q => { q with cur := none }

/-- Prepared ranges with no pending page leave the queue; a stopped launch leaves them for the next commit (10 R306). -/
def State.idleQueue (s : State) (qid : BitVec 12) : State :=
  s.modQueue qid fun q => { q with qstate := 0, cur := none }

/-- The last use of a launch's schedule image ends now (11 R319). -/
def State.endUse (s : State) (l : Launch) : State :=
  { s with useClock := s.useClock + 1,
           scheds := s.scheds.map fun x => if x.jobTag == l.jobTag && x.epoch == l.ep then { x with lastUse := s.useClock + 1 } else x }

/-- The obligations of a launch that stops stand until its COMPLETION leaves; those of a launch that is suspended or saved hold
nothing (11 R330, R332). -/
def State.keepObligations (s : State) (l : Launch) : State :=
  let marks := (List.range 64).filterMap fun c => (s.core c).obligation.map fun m => (c, m)
  if l.cond = .resident ∧ l.suspended = none ∧ l.start ≠ none ∧ marks ≠ [] then
    { s with heldObls := s.heldObls ++ [{ key := s.useClock, launch := { l with saved := [] }, marks := marks }] }
  else s

/-- A launch stops: it is not committed; record, COMPLETION, aborts; its cores go to the next launch. True when the ring
overflowed on the way. -/
def State.stopCore (s : State) (l : Launch) (i : StopInfo) : State × Bool :=
  let words := i.words s.fab.cnt
  let s := ((s.abortColls l).endUse l).keepObligations l
  let key := s.useClock
  let r := s.pushRec { code := i.code, source := i.source, cls := i.cls, outcome := 5, kind := i.kind, unit := i.unit,
                       qid := some l.qid, core := i.core.map fun c => (.ofNat 6 c, i.pc), cause := i.cause, detail := i.detail, va := i.va }
  let s := r.1
  let s := if l.cond == .resident then s.mapCores Core.stop else s
  let s := { s with launches := s.launches.filter fun x => x.qid != l.qid,
                    saving := if s.saving == some l.qid then none else s.saving,
                    restoring := if s.restoring == some l.qid then none else s.restoring,
                    err := { s.err with shadows := s.err.shadows.filter fun x => x.qid != l.qid } }
  let s := s.complete l.qid l.cookie { cmd := 2, type := 1, code := i.code, result := words, releases := some key, launch := true, lost := l.lost }
  (s.idleQueue l.qid, r.2)

/-! ### Subscribers (13 R399) -/

def State.expSeq (s : State) (seq : Word) : ExpSeq := sget {} s.exp.seqs seq.toNat
def State.modSeq (s : State) (seq : Word) (f : ExpSeq → ExpSeq) : State :=
  { s with exp := { s.exp with seqs := smod {} s.exp.seqs seq.toNat f } }
def State.sub (s : State) (seq : Word) (u : Nat) : Sub := sget {} (s.expSeq seq).subs u
def State.modSub (s : State) (seq : Word) (u : Nat) (f : Sub → Sub) : State :=
  s.modSeq seq fun e => { e with subs := smod {} e.subs u f }

/-- Drop a subscriber: its QP sends nothing more, its pend bits clear, an EVENT goes to the queue that opened it. -/
def State.dropSub (s : State) (seq : Word) (u : Nat) (cause : BitVec 8) : State :=
  let b := s.sub seq u
  if !b.isOpen then s
  else
    let s := b.queue.foldl (fun s h => s.clearPend h.pool.val h.page u) s
    let s := s.modSub seq u fun b => { b with isOpen := false, cause := cause, queue := [], rnrWait := none }
    let s := { s with exp := { s.exp with dropped := satInc s.exp.dropped } }
    s.event b.qid { code := evExportDropped, cause := cause.toNat, sub := u, seq := seq, ctx := (s.queue b.qid).ctx.toNat }

/-- Drop every open subscriber of a sequence. -/
def State.dropSubs (s : State) (seq : Word) (cause : BitVec 8) : State :=
  [0, 1, 2, 3].foldl (fun s u => s.dropSub seq u cause) s

/-! ### Drain (14 R425-R427) -/

/-- Set the error state of a queue (13 R388). -/
def State.setQueueErr (s : State) (qid : BitVec 12) (code : Code) : State :=
  s.modQueue qid fun q => { q with err := true, errCode := code }

/-- The TEST_REQUEST in progress on a queue completes. -/
def State.answerTest (s : State) (qid : BitVec 12) (code : Code) (result : List Word) : State :=
  match (s.queue qid).cur with
  | some (m, .testing) => (s.complete qid m.cookie { cmd := 7, type := 1, code := code, result := result }).clearCur qid
  | _ => s

/-- The test of a request runs in its slot. -/
def State.testRuns (s : State) (r : TestReq) : Bool := r.served && (sget none s.tst.slots r.set.val).isSome

/-- Waiting TEST_REQUESTs complete with E_TEST_REFUSED, cause 0x05, and running tests are abandoned (15 R458). -/
def State.refuseTests (s : State) : State :=
  let out := (s.tst.requests.filter fun r => !s.testRuns r).map (·.qid) ++ (s.tst.ports.filter fun p => !p.begun).map (·.qid)
  let s := { s with tst := { s.tst with
      requests := s.tst.requests.filter fun r => s.testRuns r,
      ports := (s.tst.ports.filter fun p => p.begun).map fun p => { p with verdict := .abandoned },
      slots := s.tst.slots.map fun e => (e.1, e.2.map fun t => { t with verdict := .abandoned }) } }
  out.foldl (fun s q => s.answerTest q eTestRefused [.ofNat 32 5]) s

/-- The device drains with a cause; the launch that met the trigger stops with its own report (14 R427). -/
def State.drain (s : State) (cause : Code) (trigger : Option (BitVec 12 × StopInfo)) : State :=
  if s.err.drained then
    -- a later trigger sets the flag again, and keeps a device drained that was so for its flag only (17 R508)
    { s with err := { s.err with bootDrain := false, flagged := true, cause := if s.err.bootDrain then cause else s.err.cause } }
  else
    let s := if s.sec.stage = 7 then s.emit (.pwrGood false) else s
    let s := { s with err := { s.err with drained := true, flagged := true, cause := cause } }
    let s := s.launches.foldl (fun s l =>
      let i : StopInfo := match trigger with
        | some (q, i) => if q == l.qid then i else { code := eDrained, source := 5 }
        | none => { code := eDrained, source := 5 }
      (s.stopCore l i).1) s
    let s := s.exp.seqs.foldl (fun s e => s.dropSubs (.ofNat 32 e.1) 5) s
    let s := s.refuseTests
    let s := s.qce.queues.foldl (fun s e => if e.2.valid then s.setQueueErr (.ofNat 12 e.1) eDrained else s) s
    -- it leaves the live devices, and says so (11 R323, entry 47)
    ({ s with fab := { s.fab with live := false, isLeader := false, liveIds := s.fab.liveIds.filter (· != s.devid),
                                  drainedIds := s.fab.drainedIds ++ [s.devid] } } : State).symOn s.linkPorts (.link (.left s.devid))

/-- Append a record; a full ring loses it and drains the device (14 R419). -/
def State.log (s : State) (i : RecInfo) : State :=
  let r := s.pushRec i
  if r.2 then (r.1.history 8 0 .overflow).drain eLogOverflow none else r.1

/-- Stop a launch (04 R132), unless it has stopped already; a record that finds the ring full drains the device. -/
def State.stop (s : State) (l : Launch) (i : StopInfo) : State :=
  if (s.launchOf l.qid).isNone then s
  else
    let r := s.stopCore l i
    if r.2 then (r.1.history 8 0 .overflow).drain eLogOverflow none else r.1

/-- Append a record of outcome "drained" and drain. -/
def State.logDrain (s : State) (i : RecInfo) (trigger : Option (BitVec 12 × StopInfo)) : State :=
  let s := s.log { i with outcome := 6 }
  s.drain i.code trigger

/-- A detected step is replayed, or its access repeated: one more in ERR_RECOVERY (14 R434). -/
def State.countReplay (s : State) : State := { s with err := { s.err with replays := satInc s.err.replays } }

/-- A structure of the device that read poisoned since `s0`: its access is repeated, and the device drains (14 R409). -/
def State.ownedDrain (s0 s : State) : State :=
  match s0.hbm.ownedLost, s.hbm.ownedLost with
  | some _, _ | none, none => s
  | none, some pa =>
    let r : RecInfo := { code := eHbmDetect, source := 0, cls := 1, kind := 3, unit := .ofNat 12 (Config.stackOf (pa / 4096)).val, cause := 2,
                         detail := .ofNat 64 pa }
    let s := (({ s with hbm := { s.hbm with ownedLost := none } } : State).log { r with outcome := 1 }).countReplay
    s.logDrain { r with cls := 2 } none

/-! ### Halts (04 R133) -/

def LRun.isHalted : LRun → Bool
  | .halted _ => true | _ => false

/-- A launch halts with a code; its EVENT goes out on its own queue (13 R391). -/
def State.halt (s : State) (l : Launch) (code : Code) (e : EvInfo) : State :=
  -- a further halt keeps the first one's code, but for a lost link, which decides how the launch is resumed (11 R322)
  let s := if l.run.isHalted && code != eLinkDown then s else s.modLaunch l.qid fun l => { l with run := .halted code }
  let s := s.modQueue l.qid fun q => { q with qstate := 2 }
  s.event l.qid { e with code := code, ctx := l.ctx.toNat }

/-- A recovery that affects a queue begins (01 R34, 14 R428). -/
def State.bumpEpoch (s : State) (qid : BitVec 12) : State :=
  s.modQueue qid fun q => { q with fenceEpoch := q.fenceEpoch + 1 }

end Sys2Proof.Machine
end

