-- ==== Sys2Proof/Machine/Xlt.lean ====
section
/-!
DEFINITION. Translation (08 R229-R237), access to virtual memory, and the KV pages behind it (10 R283, R290, R291).
-/

namespace Sys2Proof.Machine

/-! ### Regions -/

def Region.start (r : Region) : Nat := r.base.toNat * 2097152
def Region.bytes (r : Region) : Nat := r.len.toNat * 2097152
def Region.has (r : Region) (va : Nat) : Bool := r.valid && decide (r.start ≤ va) && decide (va < r.start + r.bytes)
/-- Leaf granule g (08 R230). -/
def Region.page (r : Region) : Nat := granOf r.gran.toNat

def Ctx.region (c : Ctx) (i : Nat) : Region := sget {} c.regions i
/-- The KV region that holds an address. -/
def Ctx.regionOf (c : Ctx) (va : Nat) : Option Region := ((List.range 8).map c.region).find? fun r => r.has va

/-- Layer of an address (10 R283): with lshift 0, every page has layer 0. -/
def Region.layer (r : Region) (va : Nat) : Nat := if r.lshift = 0 then 0 else ((va - r.start) >>> r.lshift.toNat) % 256

/-! ### The walk -/

/-- How a translation ends: a frame, or a code and cause (08 R233). A lost table gives its physical address (14 R409). -/
inductive Walk where
  | ok (pa log2 : Nat) (wr : Bool)
  | fail (code : Code) (cause : Nat)
  | lost (table : Nat)
  deriving DecidableEq, Repr

/-- A page-table entry. -/
def State.pte (s : State) (pa : Nat) : Nat := leNat (s.hbm.read pa 8)

def pteState (e : Nat) : Nat := e >>> 62
def pteLeaf (e : Nat) : Bool := (e >>> 61) % 2 == 1
def pteWr (e : Nat) : Bool := (e >>> 60) % 2 == 1
def ptePa (e : Nat) : Nat := (e / 4096 % 2 ^ 25) * 4096
def pteRes (e : Nat) : Bool := (e >>> 37) % 2 ^ 23 == 0 && e % 4096 == 0

/-- Check a present entry as a pointer (08 R231-R233). -/
def ptrCheck (e : Nat) : Except Walk Nat :=
  if pteState e = 0 then .error (.fail eXltFault 1)
  else if pteState e ≠ 1 ∨ ¬ pteRes e ∨ pteLeaf e ∨ pteWr e then .error (.fail eXltFault 4)
  else if ptePa e ≥ allocBytes then .error (.fail eXltFault 5)
  else .ok (ptePa e)

/-- Check an entry as a page of 2^log2 bytes. `page` says whether a frame names a page of the region's pool. -/
def leafCheck (e log2 : Nat) (absentOk : Bool) (page : Nat → Bool) (write : Bool) : Walk :=
  if pteState e = 0 then .fail eXltFault 1
  else if pteState e = 2 then (if absentOk then .fail ePageAbsent 0 else .fail eXltFault 4)
  else if pteState e ≠ 1 ∨ ¬ pteRes e ∨ ¬ pteLeaf e ∨ ptePa e % 2 ^ log2 ≠ 0 then .fail eXltFault 4
  else if ptePa e ≥ allocBytes then .fail eXltFault 5
  else if !page (ptePa e) then .fail eXltFault 4
  else if write && !pteWr e then .fail eXltFault 2
  else .ok (ptePa e) log2 (pteWr e)

/-- Read the table entry at a level; a poisoned burst is lost data of the walker (14 R409). -/
def State.entryAt (s : State) (table idx : Nat) : Except Walk Nat :=
  if s.hbm.poisoned ((table + 8 * idx) / 32) then .error (.lost (table + 8 * idx)) else .ok (s.pte (table + 8 * idx))

def Tlb.hits (t : Tlb) (ctx : BitVec 8) (va : Nat) : Bool := t.ctx == ctx && t.page == va / 2 ^ t.log2

/-- A pointer entry that the walker holds: the table that the walk of an address reaches at the level whose entries span 2^log2 bytes
(08 R236). -/
def State.pointer (s : State) (ctx : BitVec 8) (va log2 : Nat) : Option Nat :=
  (s.xlt.walkCache.find? fun t => t.log2 == log2 && t.hits ctx va).map (·.pa)

/-- The tables that a walk passes, with the span of the entry that points at each: held pointers are used, from the lowest on. -/
def State.tables (s : State) (ctx : BitVec 8) (c : Ctx) (va : Nat) : Except Walk (Nat × Nat) := do
  let t2 ← match s.pointer ctx va 39 with
    | some t => .ok t
    | none => do let e ← s.entryAt (c.rootPfn.toNat * 4096) ((va >>> 39) % 512); ptrCheck e
  let t1 ← match s.pointer ctx va 30 with
    | some t => .ok t
    | none => do let e ← s.entryAt t2 ((va >>> 30) % 512); ptrCheck e
  .ok (t2, t1)

/-- Physical address of the level-0 entry of an address, or how the walk ends before it; a 2 MiB page answers `.error .ok`. -/
def State.walkTo0 (s : State) (ctx : BitVec 8) (va : Nat) (write : Bool) : Except Walk Nat :=
  let c := s.ctxOf ctx
  if va ≥ 2 ^ 48 then .error (.fail eXltFault 3)
  else if !c.rootValid then .error (.fail eXltFault 6)
  else if c.rootPfn.toNat * 4096 ≥ allocBytes then .error (.fail eXltFault 5)
  else match s.pointer ctx va 21 with
  | some t0 => .ok (t0 + 8 * (match c.regionOf va with | none => (va >>> 12) % 512 | some r => (va % 2097152) / r.page))
  | none => do
    let ts ← s.tables ctx c va
    let e1 ← s.entryAt ts.2 ((va >>> 21) % 512)
    match c.regionOf va with
    | none =>
      if pteState e1 = 1 ∧ pteLeaf e1 = true then .error (leafCheck e1 21 false (fun _ => true) write)
      else do
        let t0 ← ptrCheck e1
        .ok (t0 + 8 * ((va >>> 12) % 512))
    | some r =>
      let t0 ← ptrCheck e1
      .ok (t0 + 8 * ((va % 2097152) / r.page))

/-- Walk the four levels (08 R231, R233). -/
def State.walk (s : State) (ctx : BitVec 8) (va : Nat) (write : Bool) : Walk :=
  let c := s.ctxOf ctx
  match s.walkTo0 ctx va write with
  | .error w => w
  | .ok pa =>
    match s.entryAt (pa / 4096 * 4096) (pa % 4096 / 8) with
    | .error w => w
    | .ok e =>
      match c.regionOf va with
      | none => leafCheck e 12 false (fun _ => true) write
      | some r =>
        let q := r.gran.toNat
        leafCheck e (12 + q) true (fun f => ((s.pool q).pageOf q f).isSome) write

/-! ### TLBs (08 R235-R237) -/

/-- Put an entry into a TLB of `cap` entries; a full one gives up the entry that `Config.victim` names. -/
def tlbPut (cap : Nat) (l : List Tlb) (t : Tlb) : List Tlb :=
  let l := l.filter fun x => !(x.ctx == t.ctx && x.page == t.page && x.log2 == t.log2)
  if l.length ≥ cap then t :: l.eraseIdx (Config.victim l.length % l.length) else t :: l

/-- Put an entry into the shared TLB: eight ways, 512 sets (08 R235). -/
def sharedPut (l : List Tlb) (t : Tlb) : List Tlb :=
  let mine (x : Tlb) : Bool := Config.tlbSet x.ctx.toNat x.page x.log2 % 512 == Config.tlbSet t.ctx.toNat t.page t.log2 % 512
  tlbPut 8 (l.filter mine) t ++ l.filter fun x => !mine x

/-- A held translation: the core's TLB, then the shared one. -/
def State.tlbFind (s : State) (phys : Option Nat) (ctx : BitVec 8) (va : Nat) : Option Tlb :=
  let mine := match phys with | some p => sget [] s.xlt.coreTlb p | none => []
  (mine.find? fun t => t.hits ctx va).or (s.xlt.sharedTlb.find? fun t => t.hits ctx va)

/-- Translate: a held entry, else the walk (08 R234, R235). -/
def State.translate (s : State) (phys : Option Nat) (ctx : BitVec 8) (va : Nat) (write : Bool) : Walk :=
  match s.tlbFind phys ctx va with
  | some t => if write && !t.wr then .fail eXltFault 2 else .ok t.pa t.log2 t.wr
  | none => s.walk ctx va write

/-- Drop the TLB and walker entries of a context (08 R237). -/
def State.invalidate (s : State) (all : Bool) (ctx : BitVec 8) : State :=
  let keep (l : List Tlb) : List Tlb := if all then [] else l.filter fun t => t.ctx != ctx
  { s with xlt := { s.xlt with sharedTlb := keep s.xlt.sharedTlb, walkCache := keep s.xlt.walkCache,
                               coreTlb := (s.xlt.coreTlb.map fun e => (e.1, keep e.2)).filter fun e => e.2 != [] } }

/-! ### Virtual ranges -/

/-- A failing access: code, cause and virtual address. -/
structure XFail where
  code : Code
  cause : Nat
  va : Nat
  /-- physical address of a table or burst that was lost -/
  pa : Nat := 0
  /-- a merged write, which is not repeated (14 R409) -/
  merged : Bool := false
  deriving DecidableEq, Repr

def walkFail (va : Nat) : Walk → XFail
  | .ok .. => { code := 0, cause := 0, va := va }
  | .fail c k => { code := c, cause := k, va := va }
  | .lost t => { code := eHbmDetect, cause := 2, va := va, pa := t }

/-- The physical pieces of `n` bytes at `va`: (physical address, length), one a page. -/
def xlatGo (s : State) (phys : Option Nat) (ctx : BitVec 8) (write : Bool) : Nat → Nat → Nat → Except XFail (List (Nat × Nat))
  | 0, _, _ => .ok []
  | fuel + 1, va, n =>
    if n = 0 then .ok []
    else
      match s.translate phys ctx va write with
      | .ok pa lg _ =>
        let off := va % 2 ^ lg
        let k := min n (2 ^ lg - off)
        match xlatGo s phys ctx write fuel (va + k) (n - k) with
        | .ok l => .ok ((pa + off, k) :: l)
        | .error e => .error e
      | w => .error (walkFail va w)

/-- The pieces of a range, whether or not a granule of it is under retirement. -/
def State.xlatNow (s : State) (phys : Option Nat) (ctx : BitVec 8) (write : Bool) (va n : Nat) : Except XFail (List (Nat × Nat)) :=
  xlatGo s phys ctx write (n / 4096 + 2) va n

/-- A new request to these bytes is held: a granule of them is under retirement (08 R222). -/
def State.held (s : State) (pa n : Nat) : Bool := s.hbm.retiring.any fun r => rangesMeet pa n (r.granule.toNat * 4096) 4096

/-- The failure that stands for a held request: its requester waits (08 R222). -/
def heldFail (va pa : Nat) : XFail := { code := heldCode, cause := 0, va := va, pa := pa }
def XFail.isHeld (e : XFail) : Bool := e.code == heldCode

/-- The pieces of a range that a request may reach. -/
def State.xlat (s : State) (phys : Option Nat) (ctx : BitVec 8) (write : Bool) (va n : Nat) : Except XFail (List (Nat × Nat)) :=
  match s.xlatNow phys ctx write va n with
  | .error e => .error e
  | .ok ps => match ps.find? fun p => s.held p.1 p.2 with | some p => .error (heldFail va p.1) | none => .ok ps

/-- The first poisoned burst of translated pieces, as a failing access at its virtual address. -/
def piecesPoison (h : Hbm) : Nat → List (Nat × Nat) → Option XFail
  | _, [] => none
  | va, (pa, k) :: t =>
    match h.poisonIn pa k with
    | some b => some { code := eHbmDetect, cause := 2, va := va + (b * 32 - pa), pa := b * 32 }
    | none => piecesPoison h (va + k) t

/-- The bytes of the pieces of a range at `va`. -/
def State.pieces (s : State) (va : Nat) (ps : List (Nat × Nat)) : Except XFail (List Byte) :=
  match piecesPoison s.hbm va ps with
  | some e => .error e
  | none => .ok (ps.map fun p => s.hbm.read p.1 p.2).flatten

/-- Read `n` bytes of virtual memory. -/
def State.vread (s : State) (phys : Option Nat) (ctx : BitVec 8) (va n : Nat) : Except XFail (List Byte) := do
  s.pieces va (← s.xlat phys ctx false va n)

/-- The same for a request that the model does not hold (entry 13). -/
def State.vreadNow (s : State) (phys : Option Nat) (ctx : BitVec 8) (va n : Nat) : Except XFail (List Byte) := do
  s.pieces va (← s.xlatNow phys ctx false va n)

/-- The header bytes of an enabled pool are not written by the host (10 R285). -/
def State.inHeaders (s : State) (pa : Nat) : Bool :=
  (List.range 5).any fun q =>
    let p := s.pool q
    p.en && decide (p.hdr.toNat * 64 ≤ pa) && decide (pa < p.hdr.toNat * 64 + 64 * p.pages)

def pwriteAll : State → Nat → List (Nat × Nat) → List Byte → Option XFail → State × Option XFail
  | s, _, [], _, bad => (s, bad)
  | s, va, (pa, k) :: t, bs, bad =>
    let r := s.pwriteAs false va pa (bs.take k)
    let e := r.2.map fun b => ({ code := eHbmDetect, cause := 2, va := va + (b * 32 - pa), pa := b * 32, merged := true } : XFail)
    pwriteAll r.1 (va + k) t (bs.drop k) (bad.or e)

/-- Write bytes to virtual memory after every page has translated. -/
def State.vwrite (s : State) (phys : Option Nat) (ctx : BitVec 8) (va : Nat) (bs : List Byte) : State × Option XFail :=
  match s.xlat phys ctx true va bs.length with
  | .error e => (s, some e)
  | .ok ps => pwriteAll s va ps bs none

/-- The same for a request that the model does not hold: its bytes stand at once, and again after the copy (08 R222, entry 13). -/
def State.vwriteNow (s : State) (phys : Option Nat) (ctx : BitVec 8) (va : Nat) (bs : List Byte) : State × Option XFail :=
  match s.xlatNow phys ctx true va bs.length with
  | .error e => (s, some e)
  | .ok ps => pwriteAll s va ps bs none

/-! ### Pages by address -/

/-- The page that an address of a KV region is mapped to. -/
def State.pageAt (s : State) (r : Region) (pa : Nat) : Option Nat := (s.pool r.gran.toNat).pageOf r.gran.toNat pa

/-- Write the level-0 entry of an address, as the device does on the KV paths; its burst has been read whole. -/
def State.setPte (s : State) (pa e : Nat) : State := (s.pwriteAs true 0 pa (leBytes 8 e)).1

/-- The level-0 entry of an address maps a page of a pool. -/
def State.maps (s : State) (ctx : BitVec 8) (va q x : Nat) : Bool :=
  match s.walkTo0 ctx va false with
  | .ok a => !s.hbm.poisoned (a / 32) && pteState (s.pte a) == 1 && ptePa (s.pte a) == (s.pool q).framePa q x
  | .error _ => false

def mkLeaf (pa : Nat) (wr : Bool) : Nat := 2 ^ 62 + 2 ^ 61 + b2n wr * 2 ^ 60 + pa

/-- Map a page at a level-0 entry. -/
def State.mapPage (s : State) (q x entry : Nat) (wr : Bool) : State := s.setPte entry (mkLeaf ((s.pool q).framePa q x) wr)

/-- Allocate a page for an append: header and entry (10 R291). None when nothing is free or reclaimable (R293). -/
def State.allocPage (s : State) (r : Region) (va entry fmt : Nat) : Option (State × Nat) :=
  let q := r.gran.toNat
  match s.takePage q with
  | none => none
  | some (x, s) =>
    let s := s.newKhdr q x { fmt := .ofNat 4 fmt, layer := .ofNat 8 (r.layer va), pstate := 1, refcount := 1 }
    some (s.mapPage q x entry true, x)

/-- The page for an append at `va`: mapped and writable, or newly allocated (10 R290). -/
def State.appendPage (s : State) (phys : Option Nat) (ctx : BitVec 8) (r : Region) (va fmt : Nat) : Except XFail (State × Nat) :=
  match s.translate phys ctx va true with
  | .ok pa lg _ =>
    match s.pageAt r (pa / 2 ^ lg * 2 ^ lg) with
    | some x => .ok (s, x)
    | none => .error { code := eXltFault, cause := 4, va := va }
  | w =>
    match s.walkTo0 ctx va true with
    | .ok entry =>
      if pteState (s.pte entry) = 0 && !s.hbm.poisoned (entry / 32) then
        match s.allocPage r va entry fmt with
        | some r => .ok r
        | none => .error { code := eKvNoPage, cause := 0, va := va }
      else .error (walkFail va w)
    | .error _ => .error (walkFail va w)

/-- Number of leading slots whose K and V bits are both set (10 R284). -/
def leadingOnes (m : BitVec 16) : Nat := ((List.range 16).takeWhile fun i => m.getLsbD i).length

/-- Set mask bits and the new fill (10 R286) of a page in use; a page in another state is left as it is (R285). -/
def State.markSlots (s : State) (q x : Nat) (km vm : BitVec 16) : State :=
  let h := s.khdr q x
  if h.pstate ≠ 1 then s else
  let k := h.kmask ||| km
  let v := h.vmask ||| vm
  s.setKhdr q x { h with kmask := k, vmask := v, fill := .ofNat 5 (leadingOnes (k &&& v)) }

/-- The recompute record of a dropped page (10 R296). -/
def absentEntry (layer fill i : Nat) : Nat := 2 ^ 63 + layer * 2 ^ 52 + fill * 2 ^ 47 + (16 * i) * 2 ^ 15

end Sys2Proof.Machine
end

