-- ==== Sys2Proof/Machine/Export.lean ====
section
/-!
DEFINITION. Hand-offs of pages to the export engine (13 R398, R399, 10 R308, 06 R186).
-/

namespace Sys2Proof.Machine

/-- Hand-offs of u not yet acknowledged (13 R399). -/
def Sub.lag (b : Sub) : Nat := b.queue.length

def ExpSeq.openSubs (e : ExpSeq) : List Nat := [0, 1, 2, 3].filter fun u => (sget ({} : Sub) e.subs u).isOpen

/-- Give a page to one open subscriber: above its lag limit it is dropped and the hand-off is not queued for it. -/
def State.handOffTo (s : State) (seq : Word) (u : Nat) (pool : Fin 5) (page : Nat) (layer : BitVec 8) (index : Nat) : State :=
  let b := s.sub seq u
  if b.lag + 1 > b.lagLimit then s.dropSub seq u 1
  else
    let h := s.khdr pool.val page
    let s := s.setKhdr pool.val page { h with sent := true, pend := h.pend ||| (1#4 <<< u) }
    s.modSub seq u fun b => { b with made := b.made + 1, queue := b.queue ++ [{ pool := pool, page := page, layer := layer, index := index }] }

/-- Hand a page to the export engine (13 R398). With no open subscriber, or once a close has begun, it is ignored. -/
def State.handOff (s : State) (seq : Word) (pool : Fin 5) (page : Nat) (layer : BitVec 8) (index : Nat) : State :=
  let e := s.expSeq seq
  let us := e.openSubs
  if us.isEmpty || e.closing.isSome || s.err.drained then s
  else
    let s := s.modSeq seq fun e => { e with handoffs := e.handoffs + 1 }
    let s := s.setKhdr pool.val page { s.khdr pool.val page with sent := true }
    if index ≥ 8192 then s.dropSubs seq 4
    else us.foldl (fun s u => s.handOffTo seq u pool page layer index) s

/-- A page that is armed, complete and not sent is handed off once (10 R308). -/
def State.handOffArmed (s : State) (pool : Fin 5) (page : Nat) : State :=
  let h := s.khdr pool.val page
  if h.armed && !h.sent && h.fill == 16 then
    match s.exp.armed.find? fun a => a.1 == pool && a.2.1 == page with
    | some a => s.handOff a.2.2.1 pool page h.layer a.2.2.2
    | none => s
  else s

/-- Mark a page export-armed with the descriptor that its stage names: sticky (06 R186). -/
def State.armPage (s : State) (pool : Fin 5) (page : Nat) (seq : Word) (index : Nat) : State :=
  let h := s.khdr pool.val page
  let s := s.setKhdr pool.val page { h with armed := true }
  { s with exp := { s.exp with armed := (s.exp.armed.filter fun a => !(a.1 == pool && a.2.1 == page)) ++ [(pool, page, seq, index)] } }

end Sys2Proof.Machine
end

