-- ==== Sys2Proof/Machine/Integrity.lean ====
section
/-!
DEFINITION. Detections, replays, re-fetch and fences (14 R404-R416, R421).
-/

namespace Sys2Proof.Machine

/-- Kind and unit of a record about a core (14 R418): set in [11:8], physical core in [7:4]. -/
def coreUnit (i : Nat) : BitVec 12 := .ofNat 12 (i / 9 * 256 + i % 9 * 16)

/-- Logical core c stands still: a takeover is under way for its role (14 R413), or a trip has stopped its set's clock
(16 R472). -/
def State.inTakeover (s : State) (c : Nat) : Bool :=
  (sget ({} : PSet) s.pwr.sets (c / 8)).tripped || s.err.takeovers.any fun t => t.set.val == c / 8 && s.role t.set.val t.src.val == .ofNat 4 (c % 8)

/-- Begin the move of a role from physical core `src` to `dst` of a set. -/
def State.beginTakeover (s : State) (set : Fin 8) (src dst : Fin 9) (why : MoveWhy) : State :=
  { s with err := { s.err with takeovers := s.err.takeovers ++ [{ set := set, src := src, dst := dst, why := why }] } }

/-- Abandon a set's test without a verdict (15 R441). -/
def State.abandonTest (s : State) (set : Nat) : State :=
  match sget none s.tst.slots set with
  | none => s
  | some t => { s with tst := { s.tst with slots := sset none s.tst.slots set (some { t with verdict := .abandoned }) } }

/-- Mark a core fenced, count it and append EV_CORE_FENCED (14 R413 step 4, R432). -/
def State.markFenced (s : State) (set p : Nat) (nested : Bool) : State :=
  (({ s with err := { s.err with fences := satInc s.err.fences } } : State).setRole set p 9).log { code := evCoreFenced, source := 5, cls := 2, outcome := 4, nested := nested, kind := 1, unit := coreUnit (9 * set + p) }

/-- E_NO_SPARE: the fence cannot be carried out, and the device drains (14 R412). -/
def State.noSpare (s : State) (set p : Nat) (nested : Bool) : State :=
  s.logDrain { code := eNoSpare, source := 5, cls := 2, nested := nested, kind := 1, unit := coreUnit (9 * set + p),
               qid := s.resident.map (·.qid) } (s.resident.map fun l => (l.qid, { code := eNoSpare, source := 5, kind := 1, unit := coreUnit (9 * set + p) }))

/-- Fence a physical core (14 R412, R413, R421), once: one whose role already moves stays as it is, and a draining device answers no
detection. -/
def State.fence (s : State) (set : Fin 8) (p : Fin 9) (nested : Bool) : State :=
  if s.err.drained || s.err.takeovers.any fun t => t.set == set && t.src == p && t.why == .fence then s else
  let r := s.role set.val p.val
  if r.toNat < 8 then
    let take (d : Nat) (s : State) : State :=
      let s := match s.resident with | some l => s.bumpEpoch l.qid | none => s
      s.beginTakeover set p (.ofNat 9 d) .fence
    if s.err.takeovers.any fun t => t.set == set then s.noSpare set.val p.val nested
    else
      match s.coreWith set.val 8 with
      | some d => take d s
      | none =>
        match s.coreWith set.val 0xA with
        | some d => take d (s.abandonTest set.val)
        | none => s.noSpare set.val p.val nested
  else if r = 9 then s
  else (if r = 0xA then s.abandonTest set.val else s).markFenced set.val p.val nested

/-- Count a detection of a physical core's array, its entry edges or its accumulator ports (03 R97). -/
def State.countDetection (s : State) (i : Nat) (d : Detection) : State :=
  if !d.array then s
  else s.modPcore i fun p =>
    if d.kind = .residue then { p with residueCnt := satInc p.residueCnt } else { p with parityCnt := satInc p.parityCnt }

/-- The source bytes of a granule of the operand store, by the geometry of a logged stream (14 R411): words W3 to W12 of its
descriptor stand first in `ws`. -/
def granuleSource (ws : List Word) (off : Nat) : Option Nat :=
  let rowBytes : Nat := (wAt ws 0).toNat % 2 ^ 24
  let rows : Nat := (wAt ws 1).toNat / 65536
  let planes : Nat := (wAt ws 1).toNat % 65536
  let src := (dAt ws 2).toNat
  let dst := (dAt ws 4).toNat
  let sp := (wAt ws 6).toInt
  let dp := (wAt ws 7).toInt
  let spp := (wAt ws 8).toInt
  let dpp := (wAt ws 9).toInt
  let dstAt (z y : Nat) : Int := (dst : Int) + (z : Int) * dpp + (y : Int) * dp
  let hits := (List.range planes).filterMap fun (z : Nat) =>
    ((List.range rows).find? fun (y : Nat) =>
      decide (dstAt z y ≤ (off : Int)) && decide ((off : Int) + 64 ≤ dstAt z y + (rowBytes : Int))).map fun (y : Nat) =>
        ((src : Int) + (z : Int) * spp + (y : Int) * sp + ((off : Int) - dstAt z y)) % ((2 ^ 64 : Nat) : Int)
  hits.getLast?.map Int.toNat

/-- Re-fetch a lost granule (14 R411): the core with the granule written, or none when a condition fails. -/
def State.refetchGranule (s : State) (c : Nat) (g : Nat) (good : List (Fin 16)) : Option State :=
  let k := s.core c
  let mark := sget 0 k.serials g
  if mark = 0 then none
  else
    match k.refetch.find? fun e => e.serial.toNat + 1 == mark.toNat with
    | none => none
    | some e =>
      match granuleSource e.words (64 * g) with
      | none => none
      | some va =>
        let readOnly := match s.translate (s.physOf c) e.ctx va false with | .ok _ _ wr => !wr | _ => false
        match s.vreadNow (s.physOf c) e.ctx va 64 with
        | .ok bs =>
          let same := good.all fun w => (bs.drop (4 * w.val)).take 4 == (k.ostRead (64 * g + 4 * w.val) 4)
          if readOnly && same then some (s.setCore c { k with ost := swrite 0 k.ost (64 * g) bs }) else none
        | .error _ => none

/-- What detections leave: go on, wait for a takeover with these detections still to come, or stop, and then fence the core if its
event was the one that makes it permanent. -/
inductive Detected where
  | go
  | moved (rest : List Detection)
  | stop (i : StopInfo) (fenced : Option (Fin 8 × Fin 9))
  deriving DecidableEq, Repr

/-- Stop for a lost value (14 R408); a core whose event made it permanent is fenced at its precise-stop point (R412). -/
def State.stopLost (s : State) (l : Launch) (i : StopInfo) (fenced : Option (Fin 8 × Fin 9)) : State :=
  let s := s.stop l i
  match fenced with
  | some f => s.fence f.1 f.2 false
  | none => s

/-- Act on the detections that meet an instruction on logical core c (14 R408). `replayed` is the step of it that is being replayed on
this physical core. -/
def detectGo (c : Nat) (info : StopInfo) : List Detection → Option Nat → State → State × Detected
  | [], _, s => (s, .go)
  | d :: rest, replayed, s =>
    let i := (s.physOf c).getD (9 * (c / 8))
    let me : Fin 8 × Fin 9 := (.ofNat 8 (i / 9), .ofNat 9 (i % 9))
    let residue := d.kind == .residue
    let code := if residue then eResidue else eParity
    let base : RecInfo := { code := code, source := 0, kind := 1, unit := coreUnit i, qid := s.resident.map (·.qid),
                            core := some (.ofNat 6 c, info.pc) }
    let s := s.countDetection i d
    if replayed = some d.step then
      let s := { s with err := { s.err with failedReplays := satInc s.err.failedReplays } }
      let s := (s.notePermanent 1 i).log { base with cls := 2, outcome := 4, nested := true }
      (s.fence me.1 me.2 true, .moved rest)
    else
      let n := s.noteEvent 1 i
      let s := n.1
      let after (s : State) : State := if n.2 then s.fence me.1 me.2 false else s
      let cls : BitVec 2 := if n.2 then 2 else 1
      let lost (s : State) : State × Detected :=
        (s, .stop { info with code := eParity, source := 0, cls := cls, kind := 1, unit := coreUnit i, cause := 2 } (if n.2 then some me else none))
      match d.kind with
      | .residue | .pathParity | .storageGood =>
        let r := detectGo c info rest (some d.step) (s.log { base with cls := cls, outcome := 1 }).countReplay
        (after r.1, r.2)
      | .lostGranule g good =>
        match s.refetchGranule c g.toNat good with
        | some s =>
          let r := detectGo c info rest (some d.step) (s.log { base with cls := cls, outcome := 2 }).countReplay
          (after r.1, r.2)
        | none => lost s
      | .lostOther => lost s

def State.detect (s : State) (c : Nat) (info : StopInfo) (ds : List Detection) : State × Detected := detectGo c info ds none s

end Sys2Proof.Machine
end

