-- ==== Sys2Proof/Machine/Operands.lean ====
section
/-!
DEFINITION. The 64-bit instruction word (04 R104-R109): the word of every core instruction, and the instruction of every
word that the loader accepts (04 R130, item 1).
-/

namespace Sys2Proof.Machine

/-- A token field and its enable: wt and wk, or sg and sk (04 R104). -/
def tokField (t : Option (Fin 16)) : BitVec 5 :=
  match t with
  | some k => 1#1 ++ BitVec.ofFin (w := 4) k
  | none => 0

/-- A whole word from its unit, operation and body. -/
def instrWord (unit : BitVec 3) (op : BitVec 5) (h : Ih) (body : BitVec 46) : BitVec 64 :=
  unit ++ op ++ tokField h.wt ++ tokField h.sg ++ body

def bodyReg (rd rs1 rs2 : BitVec 5) : BitVec 46 := rd ++ rs1 ++ rs2 ++ 0#31
def bodyImm (rd rs1 : BitVec 5) (imm : Word) : BitVec 46 := rd ++ rs1 ++ 0#4 ++ imm
def bodyAddr (ad asrc : BitVec 4) (rs : BitVec 5) (imm : Word) : BitVec 46 := ad ++ asrc ++ rs ++ 0#1 ++ imm
def bodyMat (d p m n k : BitVec 5) (imm : BitVec 16) : BitVec 46 := d ++ p ++ m ++ n ++ k ++ 0#5 ++ imm
def bodyMem (tv : BitVec 6) (fmt : BitVec 4) (uns : Bool) (rs : BitVec 5) (imm : BitVec 16) : BitVec 46 :=
  tv ++ fmt ++ BitVec.ofBool uns ++ 0#13 ++ rs ++ 0#1 ++ imm
def bodyAcc (tv : BitVec 6) (tile : BitVec 3) (rblk cblk : BitVec 2) : BitVec 46 := tv ++ tile ++ rblk ++ cblk ++ 0#33
def bodyDesc (d : BitVec 5) (eng : BitVec 2) : BitVec 46 := d ++ eng ++ 0#39
def bodyTok (k : Fin 16) (n : BitVec 16) : BitVec 46 := BitVec.ofFin (w := 4) k ++ n ++ 0#26
def bodyBeat (rs : BitVec 5) (imm : Word) : BitVec 46 := rs ++ 0#9 ++ imm

/-- The encoding of a condition and its registers (04 R107). -/
def condBits : Cond → BitVec 3 × BitVec 5 × BitVec 5
  | .eq a b => (0, a, b)
  | .ne a b => (1, a, b)
  | .lt a b => (2, a, b)
  | .ge a b => (3, a, b)
  | .ltu a b => (4, a, b)
  | .geu a b => (5, a, b)
  | .always => (6, 0, 0)

def bodyBr (c : Cond) (off : BitVec 24) : BitVec 46 :=
  let b := condBits c
  b.1 ++ 0#2 ++ b.2.1 ++ b.2.2 ++ 0#7 ++ off

def ropBits : RedOp → BitVec 3
  | .sum => 0 | .max => 1 | .min => 2 | .argmax => 3

/-- The word of a core instruction; none for every other command (04 R104-R109). -/
def encodeCore : Instr → Option (BitVec 64)
  | .nop h => some (instrWord 0 0x00 h 0)
  | .add h a b c => some (instrWord 0 0x01 h (bodyReg a b c))
  | .sub h a b c => some (instrWord 0 0x02 h (bodyReg a b c))
  | .mul h a b c => some (instrWord 0 0x03 h (bodyReg a b c))
  | .and h a b c => some (instrWord 0 0x04 h (bodyReg a b c))
  | .or h a b c => some (instrWord 0 0x05 h (bodyReg a b c))
  | .xor h a b c => some (instrWord 0 0x06 h (bodyReg a b c))
  | .shl h a b c => some (instrWord 0 0x07 h (bodyReg a b c))
  | .shr h a b c => some (instrWord 0 0x08 h (bodyReg a b c))
  | .sra h a b c => some (instrWord 0 0x09 h (bodyReg a b c))
  | .min h a b c => some (instrWord 0 0x0A h (bodyReg a b c))
  | .minu h a b c => some (instrWord 0 0x0B h (bodyReg a b c))
  | .max h a b c => some (instrWord 0 0x0C h (bodyReg a b c))
  | .maxu h a b c => some (instrWord 0 0x0D h (bodyReg a b c))
  | .slt h a b c => some (instrWord 0 0x0E h (bodyReg a b c))
  | .sltu h a b c => some (instrWord 0 0x0F h (bodyReg a b c))
  | .addi h a b i => some (instrWord 0 0x10 h (bodyImm a b i))
  | .muli h a b i => some (instrWord 0 0x11 h (bodyImm a b i))
  | .andi h a b i => some (instrWord 0 0x12 h (bodyImm a b i))
  | .ori h a b i => some (instrWord 0 0x13 h (bodyImm a b i))
  | .adda h d a r i => some (instrWord 0 0x14 h (bodyAddr d a r i))
  | .addah h d a r i => some (instrWord 0 0x15 h (bodyAddr d a r i))
  | .movsa h d a hi => some (instrWord 0 0x16 h (d ++ a ++ BitVec.ofBool hi ++ 0#36))
  | .ldo h a b i => some (instrWord 0 0x17 h (bodyImm a b i))
  | .sto h a b i => some (instrWord 0 0x18 h (bodyImm a b i))
  | .dld h a b i => some (instrWord 0 0x19 h (bodyImm a b i))
  | .dst h a b i => some (instrWord 0 0x1A h (bodyImm a b i))
  | .dbind h a b i => some (instrWord 0 0x1B h (bodyImm a b i))
  | .br h c o => some (instrWord 0 0x1C h (bodyBr c o))
  | .rdflg h d cl => some (instrWord 0 0x1D h (bodyImm d 0 (0#31 ++ BitVec.ofBool cl)))
  | .endProgram h => some (instrWord 0 0x1E h 0)
  | .mma h d p m n k i => some (instrWord 1 0x00 h (bodyMat d p m n k i))
  | .attn h d p m n k i => some (instrWord 1 0x01 h (bodyMat d p m n k i))
  | .epi h d o b t => some (instrWord 1 0x02 h (d ++ o ++ b ++ t ++ 0#30))
  | .accinit h m i => some (instrWord 1 0x03 h (m ++ BitVec.ofBool i ++ 0#37))
  | .vprog h td ta tb tp d =>
    some (instrWord 2 0x00 h (td ++ ta ++ tb ++ tp.getD 0 ++ BitVec.ofBool tp.isSome ++ d ++ 0#16))
  | .vred h td ta r x => some (instrWord 2 0x01 h (td ++ ta ++ ropBits r ++ BitVec.ofBool x ++ 0#30))
  | .vld h t f u r i => some (instrWord 2 0x02 h (bodyMem t f u r i))
  | .vst h t f u r i => some (instrWord 2 0x03 h (bodyMem t f u r i))
  | .vcvt h t c r i => some (instrWord 2 0x04 h (t ++ c ++ 0#13 ++ r ++ 0#1 ++ i))
  | .vaccr h t a r c => some (instrWord 2 0x05 h (bodyAcc t a r c))
  | .vaccw h t a r c => some (instrWord 2 0x06 h (bodyAcc t a r c))
  | .vmov h d a => some (instrWord 2 0x07 h (d ++ a ++ 0#34))
  | .vfill h d r => some (instrWord 2 0x08 h (d ++ r ++ 0#35))
  | .sarm h d e => some (instrWord 3 0x00 h (bodyDesc d (BitVec.ofFin (w := 2) e)))
  | .sexp h d => some (instrWord 3 0x01 h (bodyDesc d 0))
  | .tsig h k n => some (instrWord 4 0x00 h (bodyTok k n))
  | .twait h k n => some (instrWord 4 0x01 h (bodyTok k n))
  | .waitbeat h r i => some (instrWord 4 0x02 h (bodyBeat r i))
  | .beatmark h r i => some (instrWord 4 0x03 h (bodyBeat r i))
  | .coll h d => some (instrWord 4 0x04 h (bodyDesc d 0))
  | .lbar h => some (instrWord 4 0x05 h 0)
  | _ => none

/-- A token field read back: an enable of 0 takes a number of 0 (04 R104). -/
def readTok (f : BitVec 5) : Option (Option (Fin 16)) :=
  if f.getLsbD 4 then some (some (f.extractLsb' 0 4).toFin)
  else if f = 0 then some none else none

def readCond (b : BitVec 46) : Option Cond :=
  let a := b.extractLsb' 36 5
  let c := b.extractLsb' 31 5
  match (b.extractLsb' 43 3).toNat with
  | 0 => some (.eq a c)
  | 1 => some (.ne a c)
  | 2 => some (.lt a c)
  | 3 => some (.ge a c)
  | 4 => some (.ltu a c)
  | 5 => some (.geu a c)
  | 6 => if a = 0 ∧ c = 0 then some .always else none
  | _ => none

def readRop (r : BitVec 3) : Option RedOp :=
  match r.toNat with
  | 0 => some .sum | 1 => some .max | 2 => some .min | 3 => some .argmax | _ => none

/-- The answer if a field that must be 0 is 0. -/
def ifZero {w : Nat} (x : BitVec w) (i : Option Instr) : Option Instr := if x = 0 then i else none

def decodeReg (b : BitVec 46) (f : BitVec 5 → BitVec 5 → BitVec 5 → Instr) : Option Instr :=
  ifZero (b.extractLsb' 0 31) (some (f (b.extractLsb' 41 5) (b.extractLsb' 36 5) (b.extractLsb' 31 5)))

def decodeImm (b : BitVec 46) (f : BitVec 5 → BitVec 5 → Word → Instr) : Option Instr :=
  ifZero (b.extractLsb' 32 4) (some (f (b.extractLsb' 41 5) (b.extractLsb' 36 5) (b.extractLsb' 0 32)))

def decodeAddr (b : BitVec 46) (f : BitVec 4 → BitVec 4 → BitVec 5 → Word → Instr) : Option Instr :=
  ifZero (b.extractLsb' 32 1)
    (some (f (b.extractLsb' 42 4) (b.extractLsb' 38 4) (b.extractLsb' 33 5) (b.extractLsb' 0 32)))

def decodeMat (b : BitVec 46) (f : BitVec 5 → BitVec 5 → BitVec 5 → BitVec 5 → BitVec 5 → BitVec 16 → Instr) : Option Instr :=
  ifZero (b.extractLsb' 16 5)
    (some (f (b.extractLsb' 41 5) (b.extractLsb' 36 5) (b.extractLsb' 31 5) (b.extractLsb' 26 5) (b.extractLsb' 21 5) (b.extractLsb' 0 16)))

def decodeVmem (b : BitVec 46) (f : BitVec 6 → BitVec 4 → Bool → BitVec 5 → BitVec 16 → Instr) : Option Instr :=
  ifZero (b.extractLsb' 22 13) (ifZero (b.extractLsb' 16 1)
    (some (f (b.extractLsb' 40 6) (b.extractLsb' 36 4) (b.getLsbD 35) (b.extractLsb' 17 5) (b.extractLsb' 0 16))))

def decodeVacc (b : BitVec 46) (f : BitVec 6 → BitVec 3 → BitVec 2 → BitVec 2 → Instr) : Option Instr :=
  ifZero (b.extractLsb' 0 33) (some (f (b.extractLsb' 40 6) (b.extractLsb' 37 3) (b.extractLsb' 35 2) (b.extractLsb' 33 2)))

/-- SEQ operations (04 R106). -/
def decodeSeq (h : Ih) (op : BitVec 5) (b : BitVec 46) : Option Instr :=
  match op.toNat with
  | 0x00 => ifZero b (some (.nop h))
  | 0x01 => decodeReg b (.add h)
  | 0x02 => decodeReg b (.sub h)
  | 0x03 => decodeReg b (.mul h)
  | 0x04 => decodeReg b (.and h)
  | 0x05 => decodeReg b (.or h)
  | 0x06 => decodeReg b (.xor h)
  | 0x07 => decodeReg b (.shl h)
  | 0x08 => decodeReg b (.shr h)
  | 0x09 => decodeReg b (.sra h)
  | 0x0A => decodeReg b (.min h)
  | 0x0B => decodeReg b (.minu h)
  | 0x0C => decodeReg b (.max h)
  | 0x0D => decodeReg b (.maxu h)
  | 0x0E => decodeReg b (.slt h)
  | 0x0F => decodeReg b (.sltu h)
  | 0x10 => decodeImm b (.addi h)
  | 0x11 => decodeImm b (.muli h)
  | 0x12 => decodeImm b (.andi h)
  | 0x13 => decodeImm b (.ori h)
  | 0x14 => decodeAddr b (.adda h)
  | 0x15 => decodeAddr b (.addah h)
  | 0x16 => ifZero (b.extractLsb' 0 36) (some (.movsa h (b.extractLsb' 41 5) (b.extractLsb' 37 4) (b.getLsbD 36)))
  | 0x17 => decodeImm b (.ldo h)
  | 0x18 => decodeImm b (.sto h)
  | 0x19 => decodeImm b (.dld h)
  | 0x1A => decodeImm b (.dst h)
  | 0x1B => decodeImm b (.dbind h)
  | 0x1C => ifZero (b.extractLsb' 41 2) (ifZero (b.extractLsb' 24 7)
      (match readCond b with | some c => some (.br h c (b.extractLsb' 0 24)) | none => none))
  | 0x1D => ifZero (b.extractLsb' 32 4) (ifZero (b.extractLsb' 1 31) (some (.rdflg h (b.extractLsb' 41 5) (b.getLsbD 0))))
  | 0x1E => ifZero b (some (.endProgram h))
  | _ => none

/-- MXU operations (04 R109). The last tile of an EPI is at most 7. -/
def decodeMxu (h : Ih) (op : BitVec 5) (b : BitVec 46) : Option Instr :=
  match op.toNat with
  | 0x00 => decodeMat b (.mma h)
  | 0x01 => decodeMat b (.attn h)
  | 0x02 => ifZero (b.extractLsb' 0 30)
      (if (b.extractLsb' 33 3).toNat + (b.extractLsb' 30 3).toNat ≤ 7 then
        some (.epi h (b.extractLsb' 41 5) (b.extractLsb' 36 5) (b.extractLsb' 33 3) (b.extractLsb' 30 3)) else none)
  | 0x03 => ifZero (b.extractLsb' 0 37) (some (.accinit h (b.extractLsb' 38 8) (b.getLsbD 37)))
  | _ => none

/-- VEC operations (04 R109). tp is 0 when p_en is 0 (07 R206). -/
def decodeVec (h : Ih) (op : BitVec 5) (b : BitVec 46) : Option Instr :=
  match op.toNat with
  | 0x00 => ifZero (b.extractLsb' 0 16)
      (if b.getLsbD 21 then
        some (.vprog h (b.extractLsb' 40 6) (b.extractLsb' 34 6) (b.extractLsb' 28 6) (some (b.extractLsb' 22 6)) (b.extractLsb' 16 5))
      else ifZero (b.extractLsb' 22 6)
        (some (.vprog h (b.extractLsb' 40 6) (b.extractLsb' 34 6) (b.extractLsb' 28 6) none (b.extractLsb' 16 5))))
  | 0x01 => ifZero (b.extractLsb' 0 30)
      (match readRop (b.extractLsb' 31 3) with
       | some r => some (.vred h (b.extractLsb' 40 6) (b.extractLsb' 34 6) r (b.getLsbD 30))
       | none => none)
  | 0x02 => decodeVmem b (.vld h)
  | 0x03 => decodeVmem b (.vst h)
  | 0x04 => ifZero (b.extractLsb' 22 13) (ifZero (b.extractLsb' 16 1)
      (some (.vcvt h (b.extractLsb' 40 6) (b.extractLsb' 35 5) (b.extractLsb' 17 5) (b.extractLsb' 0 16))))
  | 0x05 => decodeVacc b (.vaccr h)
  | 0x06 => decodeVacc b (.vaccw h)
  | 0x07 => ifZero (b.extractLsb' 0 34) (some (.vmov h (b.extractLsb' 40 6) (b.extractLsb' 34 6)))
  | 0x08 => ifZero (b.extractLsb' 0 35) (some (.vfill h (b.extractLsb' 40 6) (b.extractLsb' 35 5)))
  | _ => none

/-- STM operations (04 R109). -/
def decodeStm (h : Ih) (op : BitVec 5) (b : BitVec 46) : Option Instr :=
  match op.toNat with
  | 0x00 => ifZero (b.extractLsb' 0 39) (some (.sarm h (b.extractLsb' 41 5) (b.extractLsb' 39 2).toFin))
  | 0x01 => ifZero (b.extractLsb' 0 41) (some (.sexp h (b.extractLsb' 41 5)))
  | _ => none

/-- SYN operations (04 R109). -/
def decodeSyn (h : Ih) (op : BitVec 5) (b : BitVec 46) : Option Instr :=
  match op.toNat with
  | 0x00 => ifZero (b.extractLsb' 0 26) (some (.tsig h (b.extractLsb' 42 4).toFin (b.extractLsb' 26 16)))
  | 0x01 => ifZero (b.extractLsb' 0 26) (some (.twait h (b.extractLsb' 42 4).toFin (b.extractLsb' 26 16)))
  | 0x02 => ifZero (b.extractLsb' 32 9) (some (.waitbeat h (b.extractLsb' 41 5) (b.extractLsb' 0 32)))
  | 0x03 => ifZero (b.extractLsb' 32 9) (some (.beatmark h (b.extractLsb' 41 5) (b.extractLsb' 0 32)))
  | 0x04 => ifZero (b.extractLsb' 0 41) (some (.coll h (b.extractLsb' 41 5)))
  | 0x05 => ifZero b (some (.lbar h))
  | _ => none

/-- The core instruction that a word of a core's code encodes; none is E_OPCODE (04 R99, R130). -/
def decodeCore (core : Fin 64) (w : BitVec 64) : Option Instr :=
  match readTok (w.extractLsb' 51 5), readTok (w.extractLsb' 46 5) with
  | some wt, some sg =>
    let h : Ih := { core := core, wt := wt, sg := sg, det := [] }
    let op := w.extractLsb' 56 5
    let b := w.extractLsb' 0 46
    match (w.extractLsb' 61 3).toNat with
    | 0 => decodeSeq h op b
    | 1 => decodeMxu h op b
    | 2 => decodeVec h op b
    | 3 => decodeStm h op b
    | 4 => decodeSyn h op b
    | _ => none
  | _, _ => none

/-- The word of an issued instruction, for its records (02 R69). -/
def bitsOf (i : Instr) : Dword := (encodeCore i).getD 0

end Sys2Proof.Machine
end

