-- ==== Sys2Proof/Machine/Issue.lean ====
section
/-!
DEFINITION. Issue, waits, signals, interlocks, beginning and completing of core instructions (04 R100-R115, 03 R73,
07 R196). A state that comes with a Bool says with it whether a stop, halt or drain may have completed a message.
-/

namespace Sys2Proof.Machine

/-- A core's instruction stream may go on: a launch runs, no takeover holds the role, and the core has neither ended nor
stopped. -/
def State.canIssue (s : State) (c : Nat) : Option Launch :=
  match s.running with
  | some l => if (s.core c).ended || (s.core c).stopped || s.inTakeover c then none else some l
  | none => none

/-! ### Tokens (04 R112) -/

def Core.tokOk (k : Core) (w : Option (Fin 16)) : Bool :=
  match w with | some t => decide ((k.tok t).toNat ≥ 1) | none => true

def Core.takeTok (k : Core) (w : Option (Fin 16)) : Core :=
  match w with | some t => k.setTok t (k.tok t - 1) | none => k

/-- Signal a counter by n: above 65,535 it keeps its value and the queue stops with E_TOKEN_OVER. The writes of an instruction whose own
signal overflows stand, since it signals after them (04 R112, R113; entry 32). -/
def State.signal (s : State) (l : Launch) (c : Nat) (t : Fin 16) (n : Nat) (info : StopInfo) : State × Bool :=
  let k := s.core c
  if (k.tok t).toNat + n > 65535 then (s.stop l { info with code := eTokenOver }, true)
  else (s.setCore c (k.setTok t (.ofNat 16 ((k.tok t).toNat + n))), false)

def State.signalOpt (s : State) (l : Launch) (c : Nat) (t : Option (Fin 16)) (info : StopInfo) : State × Bool :=
  match t with | some t => s.signal l c t 1 info | none => (s, false)

/-! ### SEQ instructions (04 R100, R113) -/

/-- Execute a SEQ instruction: it waits for its token in the sequencer, runs, advances pc by 8 and signals. `f` answers the
state with its effect (the core's pc already advanced) or the code that stops the queue before any write. -/
def State.seq (s : State) (h : Ih) (bits : Dword) (f : State → Launch → Nat → Except Code State) : State × Bool :=
  let c := h.core.val
  match s.canIssue c with
  | none => (s, false)
  | some l =>
    let k := s.core c
    if !k.tokOk h.wt then (s.setCore c { k with seqWait := h.wt }, false)
    else
      let info : StopInfo := { code := 0, core := some c, pc := k.pc, bits := bits }
      match s.detect c info h.det with
      | (s, .moved _) => (s, true)
      | (s, .stop i fenced) => (s.stopLost l i fenced, true)
      | (s, .go) =>
        if (s.launchOf l.qid).isNone then (s, true) else
        match f (s.modCore c fun k => { k.takeTok h.wt with seqWait := none, pc := k.pc + 8 }) l c with
        | .error code => (s.stop l { info with code := code }, true)
        | .ok s =>
          let r := s.signalOpt l c h.sg info
          (r.1, r.2 || !h.det.isEmpty)

/-! ### Unit queues (04 R100) -/

def Core.unitQ (k : Core) : CUnit → List Issued
  | .mxu => k.qMxu | .vec => k.qVec | .stm => k.qStm | .syn => k.qSyn

def Core.setUnitQ (k : Core) (u : CUnit) (q : List Issued) : Core :=
  match u with
  | .mxu => { k with qMxu := q }
  | .vec => { k with qVec := q }
  | .stm => { k with qStm := q }
  | .syn => { k with qSyn := q }

/-- Issued instructions that have not begun. -/
def Core.queued (k : Core) : List Issued := k.qMxu ++ k.qVec ++ k.qStm ++ k.qSyn

def Issued.info (i : Issued) (c : Nat) : StopInfo :=
  { code := 0, core := some c, pc := i.pc, bits := i.bits,
    problem := match i.op with | .mma _ _ p .. => p.toNat % 65536 | .attn _ _ p .. => p.toNat % 65536 | _ => 0 }

/-! ### Interlocks -/

/-- Tiles acc_base to acc_base + acc_tiles as a mask. -/
def tileMask (base tiles : Nat) : BitVec 8 :=
  (List.range (tiles + 1)).foldl (fun m i => if base + i < 8 then m ||| (1#8 <<< (base + i)) else m) 0

/-- Accumulator tiles that an instruction reads and writes (03 R73), from the descriptor it will latch. -/
def Core.accUse (k : Core) : UOp → BitVec 8 × BitVec 8
  | .mma _ line .. => let w := k.dw line.toNat 1; let m := tileMask (wbits w 9 3) (wbits w 6 3); (m, m)
  | .attn _ line .. => let w := k.dw line.toNat 1; let m := tileMask (wbits w 16 3) (wbits w 13 3); (m, m)
  | .epi _ _ b t => (tileMask b.toNat t.toNat, 0)
  | .accinit m _ => (0, m)
  | .vaccr _ t _ _ => (1#8 <<< t.toNat, 0)
  | .vaccw _ t _ _ => (0, 1#8 <<< t.toNat)
  | _ => (0, 0)

/-- Tile registers that an instruction reads and writes (07 R196). -/
def Core.tileUse (k : Core) : UOp → List Nat × List Nat
  | .vprog td ta tb tp _ =>
    let rd := [ta.toNat, tb.toNat] ++ (match tp with | some t => [t.toNat, td.toNat] | none => [])
    (rd, [td.toNat])
  | .vred td ta .. => ([ta.toNat], [td.toNat])
  | .vld tv .. => ([], [tv.toNat])
  | .vst tv .. => ([tv.toNat], [])
  | .vcvt ta .. => ([ta.toNat], [])
  | .vaccr tv .. => ([], [tv.toNat])
  | .vaccw tv .. => ([tv.toNat], [])
  | .vmov td ta => ([ta.toNat], [td.toNat])
  | .vfill td _ => ([], [td.toNat])
  | .attn _ line .. => let t := wbits (k.dw line.toNat 1) 7 6; ([t], [t])
  | _ => ([], [])

def accConflict (a b : BitVec 8 × BitVec 8) : Bool := (a.1 &&& b.2) != 0 || (a.2 &&& (b.1 ||| b.2)) != 0
def tileConflict (a b : List Nat × List Nat) : Bool :=
  a.1.any (fun t => b.2.contains t) || a.2.any fun t => b.1.contains t || b.2.contains t

/-- No earlier-issued instruction holds a tile that this one needs. -/
def Core.interlockOk (k : Core) (i : Issued) : Bool :=
  let a := k.accUse i.op
  let t := k.tileUse i.op
  (k.queued.all fun j => decide (j.serial ≥ i.serial) || (!accConflict a (k.accUse j.op) && !tileConflict t (k.tileUse j.op))) &&
    k.flight.all fun f => decide (f.ins.serial ≥ i.serial) || !tileConflict t (k.tileUse f.ins.op)

/-- Lines that the descriptor at a line says it has; its first line is read whatever it says. -/
def Core.linesOf (k : Core) (line : Nat) : Nat := max 1 (wbits (k.dw line 0) 16 12)

/-- Descriptor lines that a queued instruction will latch (04 R124): (first line, lines). -/
def Core.latches (k : Core) : UOp → List (Nat × Nat)
  | .mma _ line p .. =>
    let n := line.toNat
    let w1 := k.dw n 1
    let ln := wbits w1 22 10
    let ch := wbits w1 12 10
    let ob := wbits (k.dw n 2) 22 10
    [(n, 1), (ln, k.linesOf ln), (ch, k.linesOf ch)] ++
      (if ob = 0 then [] else [(ob, 1), (ob + 1 + p.toNat, 1)])
  | .attn _ line p .. =>
    let n := line.toNat
    let w2 := k.dw n 2
    let ch := wbits w2 22 10
    let ob := wbits w2 12 10
    [(n, 2), (ch, k.linesOf ch)] ++ (if ob = 0 then [] else [(ob, 1), (ob + 1 + p.toNat, 1)])
  | .epi line .. => [(line.toNat, k.linesOf line.toNat)]
  | .vprog _ _ _ _ line => [(line.toNat, 3)]
  | .sarm line _ => [(line.toNat, 1)]
  | .sexp line => [(line.toNat, 1)]
  | .coll line => [(line.toNat, 1)]
  | _ => []

/-- Lines named from a chain that is latched: element programs of ACT and PGATE stages and the export descriptor (07 R213). -/
def Core.chainLines (k : Core) (line n : Nat) : List (Nat × Nat) :=
  (List.range (4 * (n - 1))).filterMap fun i =>
    let w := k.dw line (16 + 4 * i)
    let ty := wbits w 28 4
    if ty = 3 ∨ ty = 9 then some (wbits (k.dw line (16 + 4 * i + 2)) 0 10, 3)
    else if ty = 0xF then some (wbits (k.dw line (16 + 4 * i + 1)) 0 10, 1) else none

def Core.latchesAll (k : Core) (op : UOp) : List (Nat × Nat) :=
  let ls := k.latches op
  ls ++ (ls.map fun p => if wbits (k.dw p.1 0) 28 4 = 3 then k.chainLines p.1 p.2 else []).flatten

/-- An issued instruction that has not begun will latch this line (04 R124). -/
def Core.lineHeld (k : Core) (line : Nat) : Bool :=
  k.queued.any fun i => (k.latchesAll i.op).any fun p => decide (p.1 ≤ line) && decide (line < p.1 + p.2)

/-! ### Beginning (04 R112, R122) -/

/-- What the meaning of a unit instruction answers when it begins. -/
structure Began where
  s : State
  flags : Flags := 0
  marks : List KvMark := []
  /-- it stays in flight until it completes; otherwise it completes as it begins -/
  fly : Bool := true
  haltedAt : Option (Nat × Nat) := none
  redo : List ConvWrite := []
  trap : Option (List Nat × StopInfo) := none
  halt : Option XFail := none
  stop : Option StopInfo := none
  /-- completes as it begins without signalling its token (08 R241) -/
  mute : Bool := false

/-- A stop before any write. -/
def Began.error (s : State) (i : StopInfo) (code : Code) : Began := { s := s, stop := some { i with code := code } }

/-- The wait of the instruction at the head of its queue has ended (04 R112, R115, R120). -/
def State.headReady (s : State) (k : Core) (i : Issued) : Bool :=
  k.tokOk i.wt && (match i.op with
    | .twait t n => decide (n.toNat ≤ ((k.takeTok i.wt).tok t).toNat)
    -- its fetch is queued behind the streams armed on its engine (09 R264)
    -- at most 16 unfinished collectives, and none begins while a port test runs (12 R345, 15 R452)
    | .coll _ => decide ((s.col.colls.filter fun c => !c.isBarrier).length < 16) && !(s.tst.ports.any (·.begun))
    | .attn _ line .. => (sget [] k.eng (wbits (k.dw line.toNat 1) 19 2)).isEmpty
    | _ => true)

/-- A launch halts on an access (04 R133). Lost data is first replayed, then halts for re-fetch, a recovery (14 R409, R429).
`source` is the record's, `line` a stream's descriptor line. -/
def State.haltOn (s : State) (l : Launch) (e : XFail) (at? : Option (Nat × BitVec 20)) (source : BitVec 3) (line : Nat) : State :=
  let s :=
    if e.code = eHbmDetect then
      let r : RecInfo := { code := eHbmDetect, source := source, cls := 1, kind := 3, unit := .ofNat 12 (Config.stackOf (e.pa / 4096)).val,
                           qid := some l.qid, core := at?.map fun a => (.ofNat 6 a.1, a.2), cause := .ofNat 5 e.cause, detail := .ofNat 64 e.pa }
      -- a merged write is not repeated
      let s := if e.merged then s
        else (s.log { r with outcome := 1 }).countReplay
      let s := { s with err := { s.err with refetches := satInc s.err.refetches } }
      (s.bumpEpoch l.qid).log { r with outcome := 3 }
    else if e.code = eKvNoPage then
      match (s.ctxOf l.ctx).regionOf e.va with
      | some r => s.modPool r.gran.toNat fun p => { p with noPage := satInc p.noPage }
      | none => s
    else s
  if (s.launchOf l.qid).isNone then s
  else
    s.halt l e.code
      { code := e.code, cause := e.cause, va := .ofNat 64 e.va, core := (at?.map (·.1)).getD 0, inst := (at?.map (·.2.toNat)).getD 0,
        line := line, pool := if e.code = eKvNoPage then (match (s.ctxOf l.ctx).regionOf e.va with | some r => r.gran.toNat | none => 0) else 0 }

/-- Set the mask bits of a completed instruction's appends (10 R286); an armed page that reaches fill 16 is handed off (10 R308). -/
def State.applyMarks (s : State) (ms : List KvMark) : State :=
  ms.foldl (fun s m =>
    -- a page that has left its entry since is not this append's (10 R285, R307)
    if !s.maps m.ctx m.va m.pool.val m.page then s else
    let before := (s.khdr m.pool.val m.page).fill
    let s := s.markSlots m.pool.val m.page m.kmask m.vmask
    if before = 16 then s else s.handOffArmed m.pool m.page) s

/-- Flags enter the sticky word of a core. -/
def State.orFlags (s : State) (c : Nat) (f : Flags) : State := if f = 0 then s else s.modCore c fun k => { k with flags := k.flags ||| f }

/-- Put what a begun instruction answers into the state. A trapping instruction completes, its flags too, before its queue stops (02 R67,
07 R210); one that stops without effect has no flags and no marks. -/
def finishBegin (l : Launch) (c : Nat) (u : CUnit) (i : Issued) (b : Began) : State × Bool :=
  match b.stop with
  | some info => (((b.s.orFlags c b.flags).applyMarks b.marks).stop l info, true)
  | none =>
    if b.fly then
      let s := b.s.modCore c fun k =>
        { k with flight := k.flight ++ [{ ins := i, unit := u, flags := b.flags, marks := b.marks, haltedAt := b.haltedAt, redo := b.redo, trap := b.trap }] }
      match b.halt with
      -- an access that is held keeps the instruction waiting and its launch running (08 R222)
      | some e => if e.isHeld then (s, false) else (s.haltOn l e (some (c, i.pc)) 0 0, true)
      | none => (s, false)
    else
      let s := b.s.orFlags c b.flags
      if b.mute then (s, true) else s.signalOpt l c i.sg (i.info c)

/-- Begin the instruction at the head of a unit's queue if its wait has ended and no interlock holds it. -/
def State.beginUnit (s : State) (c : Nat) (u : CUnit) (det : List Detection)
    (run : State → Launch → Nat → Issued → Began) : State × Bool :=
  match s.running with
  | none => (s, false)
  | some l =>
    let k := s.core c
    match k.unitQ u with
    | [] => (s, false)
    | i :: rest =>
      if k.stopped || s.inTakeover c || !s.headReady k i || !k.interlockOk i then (s, false)
      else
        let i := { i with det := i.det ++ det }
        match s.detect c (i.info c) i.det with
        | (s, .moved left) =>
          (s.modCore c fun k => ((k.takeTok i.wt).setUnitQ u ({ i with wt := none, det := left } :: rest)), true)
        | (s, .stop info fenced) => (s.stopLost l info fenced, true)
        | (s, .go) =>
          if (s.launchOf l.qid).isNone then (s, true) else
          let s := s.modCore c fun k => (k.takeTok i.wt).setUnitQ u rest
          let r := finishBegin l c u i (run s l c i)
          (r.1, r.2 || !i.det.isEmpty)

/-- Place a unit instruction at the tail of its unit's queue, unless that holds 16; `op` reads its operands (04 R100, R101).
True when it stands alone there. -/
def State.enqueue (s : State) (h : Ih) (bits : Dword) (u : CUnit) (op : Core → UOp) : State × Bool :=
  let c := h.core.val
  match s.canIssue c with
  | none => (s, false)
  | some _ =>
    let k := s.core c
    if (k.unitQ u).length ≥ 16 then (s, false)
    else
      let i : Issued := { serial := k.serialNo, pc := k.pc, bits := bits, op := op k, wt := h.wt, sg := h.sg, det := h.det }
      (s.setCore c { k.setUnitQ u (k.unitQ u ++ [i]) with pc := k.pc + 8, serialNo := k.serialNo + 1 }, (k.unitQ u).isEmpty)

/-! ### Completing (04 R113) -/

/-- Complete a flight: its flags enter the sticky word, its appends' mask bits are set, its token is signalled. -/
def State.completeFlight (s : State) (l : Launch) (c : Nat) (f : Flight) : State × Bool :=
  let s := s.modCore c fun k =>
    { k with flight := k.flight.filter fun g => g.ins.serial != f.ins.serial, flags := k.flags ||| f.flags }
  let r := (s.applyMarks f.marks).signalOpt l c f.ins.sg (f.ins.info c)
  (r.1, r.2)

/-- Every instruction issued before `serial` on this core has completed (04 R110, R120). -/
def Core.allDoneBefore (k : Core) (serial : Nat) : Bool :=
  (k.queued.all fun i => decide (i.serial ≥ serial)) && k.flight.all fun f => decide (f.ins.serial ≥ serial)

end Sys2Proof.Machine
end

