-- ==== Sys2Proof/Machine/Vec.lean ====
section
/-!
DEFINITION. What VEC instructions and ACCINIT do when they begin (07 R194-R211, 04 R109, R111). Each answers `Began`.
-/

namespace Sys2Proof.Machine

/-! ### Tiles -/

def Core.tileAt (k : Core) (t i j : Nat) : Word := sget 0 k.tile (1024 * t + 32 * i + j)
def Core.tileIsI32 (k : Core) (t : BitVec 6) : Bool := k.tileI32.getLsbD t.toNat
/-- The 1,024 patterns of a tile, row-major. -/
def Core.tileWords (k : Core) (t : BitVec 6) : List Word := sread 0 k.tile (1024 * t.toNat) 1024
/-- Write a tile and set its type (07 R194). -/
def Core.setTile (k : Core) (t : BitVec 6) (ws : List Word) (isI32 : Bool) : Core :=
  let m := 1#64 <<< t.toNat
  { k with tile := swrite 0 k.tile (1024 * t.toNat) ws, tileI32 := if isI32 then k.tileI32 ||| m else k.tileI32 &&& ~~~m }

/-- Accumulator word of a tile (03 R70). -/
def accKey (tile row col : Nat) : Nat := 16384 * tile + 128 * row + col
def Core.accIsI32 (k : Core) (tile : Nat) : Bool := k.accI32.getLsbD tile
def Core.tagAcc (k : Core) (tile : Nat) (isI32 : Bool) : Core :=
  let m := 1#8 <<< tile
  { k with accI32 := if isI32 then k.accI32 ||| m else k.accI32 &&& ~~~m }

/-- Row i and column j of position n of a tile. -/
def tileRow (n : Nat) : Nat := n / 32
def tileCol (n : Nat) : Nat := n % 32

/-! ### The NaN trap (02 R66-R69, 07 R211) -/

/-- The first position that traps: produced in modes 1 and 2, consumed in mode 2; produced first at one element. -/
def firstTrap (mode : BitVec 2) (es : List (Bool × Bool)) : Option (Nat × Nat) :=
  (es.zip (List.range es.length)).findSome? fun e =>
    if e.1.1 && (mode == 1 || mode == 2) then some (e.2, 1)
    else if e.1.2 && mode == 2 then some (e.2, 2) else none

/-- The trap of a VEC instruction: operand 0x0 for a produced NaN, 0x8 for a consumed one. -/
def vecTrap (l : Launch) (i : StopInfo) (es : List (Bool × Bool)) : Option StopInfo :=
  if l.nanMode = 0 then none
  else (firstTrap l.nanMode es).map fun t =>
    { i with code := eNanTrap, trapKind := t.2, fmt := 6, operand := if t.2 = 1 then 0 else 8,
             row := tileRow t.1, col := tileCol t.1 }

/-- Groups that the lanes take count as busy cycles of the physical core (07 R216): those of a VEC instruction, of ACT and PGATE stages
and of an ATTN (entry 43). -/
def State.vecGroups (s : State) (c n : Nat) : State := s.countOn c fun p => { p with vecBusy := p.vecBusy + .ofNat 32 n }

/-- A VEC instruction that writes a core: flags and a possible trap (its writes stand). -/
def vecDone (s : State) (c : Nat) (k : Core) (flags : Flags) (trap : Option StopInfo) : Began :=
  { s := (s.setCore c k).vecGroups c 4, flags := flags, stop := trap }

/-! ### VPROG (07 R204, R206) -/

/-- The descriptor at a bound slot's line: within lines 2 to 1,023 (04 R122). -/
def lineOk (line n : Nat) : Bool := decide (line ≥ 2) && decide (line + n ≤ 1024)

/-- One element of a VPROG: result, flags, produced, consumed. An inactive element keeps its pattern. -/
def vprogElem (p : EProg) (active : Bool) (old a b : Word) (i j : Nat) : Word × Flags × Bool × Bool :=
  if !active then (old, 0, false, false)
  else
    let r := runElem p a b (.ofNat 32 i) (.ofNat 32 j)
    (r.1, r.2.1, r.2.2, (p.reads 0 && !p.taI32 && isNan32 a) || (p.reads 1 && !p.tbI32 && isNan32 b))

def runVprog (td ta tb : BitVec 6) (tp : Option (BitVec 6)) (line : BitVec 10) (s : State) (l : Launch) (c : Nat) (ins : Issued) : Began :=
  let k := s.core c
  let info := ins.info c
  if !lineOk line.toNat 3 then .error s info eDesc
  else
    match parseElem (k.lineWords line.toNat 48) with
    | none => .error s info eDesc
    | some p =>
      if (p.reads 0 && k.tileIsI32 ta != p.taI32) || (p.reads 1 && k.tileIsI32 tb != p.tbI32) ||
          (tp.isSome && k.tileIsI32 td != p.outI32) then .error s info eTileType
      else
        let rs := (List.range 1024).map fun n =>
          let i := tileRow n
          let j := tileCol n
          let active := match tp with | some t => k.tileAt t.toNat i j != 0 | none => true
          vprogElem p active (k.tileAt td.toNat i j) (k.tileAt ta.toNat i j) (k.tileAt tb.toNat i j) i j
        let flags := rs.foldl (fun f r => f ||| r.2.1) 0
        vecDone s c (k.setTile td (rs.map (·.1)) p.outI32) flags (vecTrap l info (rs.map fun r => r.2.2))

/-! ### VRED (07 R207, R208) -/

/-- Line x of a tile: row x, or column x. -/
def Core.tileLine (k : Core) (t : Nat) (axis : Bool) (x : Nat) : List Word :=
  (List.range 32).map fun y => if axis then k.tileAt t y x else k.tileAt t x y

def runVred (td ta : BitVec 6) (rop : RedOp) (axis : Bool) (s : State) (l : Launch) (c : Nat) (ins : Issued) : Began :=
  let k := s.core c
  let isI := k.tileIsI32 ta
  let rs := (List.range 32).map fun x => vredLine rop isI (k.tileLine ta.toNat axis x)
  let nanIn := (List.range 32).map fun x => (k.tileLine ta.toNat axis x).any isNan32
  let pick (n : Nat) : Nat := if axis then tileCol n else tileRow n
  let out := (List.range 1024).map fun n => (rs.getD (pick n) (0, 0, false)).1
  let traps := (List.range 1024).map fun n =>
    let x := pick n
    (!isI && (rs.getD x (0, 0, false)).2.2 && !nanIn.getD x false, !isI && isNan32 (k.tileAt ta.toNat (tileRow n) (tileCol n)))
  let flags := rs.foldl (fun f r => f ||| r.2.1) 0
  vecDone s c (k.setTile td out (if rop = .argmax then true else isI)) flags (vecTrap l (ins.info c) traps)

/-! ### Loads and stores of tiles (07 R199, 04 R109) -/

/-- A tile of `w`-byte elements at this offset is misaligned or leaves the operand store (04 R109). -/
def tileOutside (off w : Nat) : Bool := off % 64 != 0 || decide (off + 1024 * w > ostSize)

/-- Little-endian element `n` of `w` bytes. -/
def elemAt (bs : List Byte) (w n : Nat) : Word := .ofNat 32 (leNat ((bs.drop (w * n)).take w))

/-- Widen one element as VLD does. -/
def vldElem (fmt : Nat) (uns : Bool) (w : Word) : Word :=
  if fmt = 6 then canon32 w
  else if fmt = 7 then w
  else match floatFmt fmt with
    | some f => (rneF32 true (decodeF f w)).bits
    | none => .ofInt 32 (decodeI (8 * fmtBytes fmt) uns w)

def runVld (tv : BitVec 6) (fmt : BitVec 4) (uns : Bool) (off : Nat) (s : State) (_l : Launch) (c : Nat) (ins : Issued) : Began :=
  let k := s.core c
  let info := ins.info c
  let f := fmt.toNat
  if f ≥ 8 then .error s info eFmtReserved
  else if uns && f != 2 && f != 5 then .error s info eFmtIllegal
  else if tileOutside off (fmtBytes f) then .error s info eLocalBound
  else
    let bs := k.ostRead off (1024 * fmtBytes f)
    vecDone s c (k.setTile tv ((List.range 1024).map fun n => vldElem f uns (elemAt bs (fmtBytes f) n)) (fmtIsInt f)) 0 none

def runVst (tv : BitVec 6) (fmt : BitVec 4) (uns : Bool) (off : Nat) (s : State) (_l : Launch) (c : Nat) (ins : Issued) : Began :=
  let k := s.core c
  let info := ins.info c
  let f := fmt.toNat
  if f ≥ 8 then .error s info eFmtReserved
  else if f < 6 || uns then .error s info eFmtIllegal
  else if (f == 7) != k.tileIsI32 tv then .error s info eTileType
  else if tileOutside off 4 then .error s info eLocalBound
  else vecDone s c (k.ostWrite off (wordBytes (k.tileWords tv))) 0 none

/-! ### VCVT (04 R111, 02 R56, R63, R64) -/

/-- Conversion lane of a tile element (02 R63). -/
def vecLane (n : Nat) : Nat := 256 + 32 * (tileRow n % 8) + tileCol n

/-- Convert one element on a lane: bits, flags, and the counters after it (02 R62, R64). -/
def cvtOnLane (cv : Cvt) (seed : Dword) (core lane : Nat) (sr : Sparse (BitVec 48)) (v : XR) (lo hi : Word) :
    Word × Flags × Sparse (BitVec 48) :=
  let r := convertExact cv (cv.rnd.draw seed core lane (sget 0 sr lane)) v lo hi
  (r.1, r.2, if cv.rnd.isSr then smod 0 sr lane (· + 1) else sr)

def vcvtGo (cv : Cvt) (seed : Dword) (core : Nat) (isI : Bool) : List (Word × Nat) → Sparse (BitVec 48) →
    List Byte → Flags → List Byte × Flags × Sparse (BitVec 48)
  | [], sr, out, fl => (out, fl, sr)
  | (w, n) :: t, sr, out, fl =>
    let v := if isI then XR.ofInt (i32 w) else f32 w
    let r := cvtOnLane cv seed core (vecLane n) sr v 0 0
    vcvtGo cv seed core isI t r.2.2 (out ++ leBytes (fmtBytes cv.dst) r.1.toNat) (fl ||| r.2.1)

def runVcvt (ta : BitVec 6) (cvt : Word) (off : Nat) (s : State) (l : Launch) (c : Nat) (ins : Issued) : Began :=
  let k := s.core c
  let info := ins.info c
  match parseCvt cvt with
  | .error e => .error s info e
  | .ok cv =>
    if cv.scale ≠ 0 ∨ cv.bias ∨ cv.clip ∨ cv.newScale ≠ 0 then .error s info eCvtField
    else if tileOutside off (fmtBytes cv.dst) then .error s info eLocalBound
    else
      let isI := k.tileIsI32 ta
      let ws := k.tileWords ta
      let r := vcvtGo cv l.seed c isI (ws.zip (List.range 1024)) k.sr [] 0
      vecDone s c { k.ostWrite off r.1 with sr := r.2.2 } r.2.1
        (vecTrap l info (ws.map fun w => (false, !isI && isNan32 w)))

/-! ### Blocks of accumulator tiles, moves and fills (07 R199, 04 R109) -/

def blockKey (tile rblk cblk n : Nat) : Nat := accKey tile (32 * rblk + tileRow n) (32 * cblk + tileCol n)

def runVaccr (tv : BitVec 6) (tile : BitVec 3) (rblk cblk : BitVec 2) (s : State) (_l : Launch) (c : Nat) (_ins : Issued) : Began :=
  let k := s.core c
  let ws := (List.range 1024).map fun n => sget 0 k.acc (blockKey tile.toNat rblk.toNat cblk.toNat n)
  vecDone s c (k.setTile tv ws (k.accIsI32 tile.toNat)) 0 none

def runVaccw (tv : BitVec 6) (tile : BitVec 3) (rblk cblk : BitVec 2) (s : State) (_l : Launch) (c : Nat) (ins : Issued) : Began :=
  let k := s.core c
  if k.tileIsI32 tv != k.accIsI32 tile.toNat then .error s (ins.info c) eAccType
  else
    let acc := ((k.tileWords tv).zip (List.range 1024)).foldl
      (fun a e => sset 0 a (blockKey tile.toNat rblk.toNat cblk.toNat e.2) e.1) k.acc
    vecDone s c { k with acc := acc } 0 none

def runVmov (td ta : BitVec 6) (s : State) (_l : Launch) (c : Nat) (_ins : Issued) : Began :=
  let k := s.core c
  vecDone s c (k.setTile td (k.tileWords ta) (k.tileIsI32 ta)) 0 none

def runVfill (td : BitVec 6) (w : Word) (s : State) (_l : Launch) (c : Nat) (_ins : Issued) : Began :=
  vecDone s c ((s.core c).setTile td (List.replicate 1024 (canon32 w)) false) 0 none

/-- +0 in every tile of the mask, with its tag (04 R109). -/
def Core.clearAcc (k : Core) (mask : BitVec 8) (isI32 : Bool) : Core :=
  (List.range 8).foldl (fun k t =>
    if mask.getLsbD t then { (k.tagAcc t isI32) with acc := sclear k.acc (16384 * t) 16384 } else k) k

def runAccinit (mask : BitVec 8) (i32 : Bool) (s : State) (_l : Launch) (c : Nat) (_ins : Issued) : Began :=
  { s := s.modCore c fun k => k.clearAcc mask i32 }

end Sys2Proof.Machine
end

