-- ==== Sys2Proof/Machine/Conv.lean ====
section
/-!
DEFINITION. The conversion of a live block on its way out: lanes, residuals from memory, destinations, new scales and
KV appends (06 R174-R186, 02 R56-R64, 10 R280-R293).
-/

namespace Sys2Proof.Machine

/-! ### NaN traps (02 R66-R69) -/

/-- Lexicographic order. -/
def listLt : List Nat → List Nat → Bool
  | [], [] => false
  | [], _ => true
  | _, [] => false
  | a :: as, b :: bs => decide (a < b) || (a == b && listLt as bs)

abbrev Trap := Option (List Nat × StopInfo)

/-- Keep the first NaN in the order of R68: loop indices, row, column, produced before consumed. -/
def Trap.note (t : Trap) (mode : BitVec 2) (info : StopInfo) (loops : List Nat) (n : NanNote) : Trap :=
  if mode = 2 ∨ (mode = 1 ∧ n.produced = true) then
    let key := padWords 6 (loops.map (.ofNat 32 ·)) |>.map (·.toNat)
    let key := key ++ [n.row, n.col, if n.produced then 0 else 1]
    let i := { info with code := eNanTrap, trapKind := if n.produced then 1 else 2, fmt := n.fmt, operand := n.operand,
                         row := n.row, col := n.col, loops := loops }
    match t with
    | some (k, old) => if listLt key k then some (key, i) else some (k, old)
    | none => some (key, i)
  else t

def Trap.notes (t : Trap) (mode : BitVec 2) (info : StopInfo) (loops : List Nat) (ns : List NanNote) : Trap :=
  ns.foldl (fun (t : Trap) n => t.note mode info loops n) t

/-! ### KV appends (06 R184-R186, 10 R281, R290) -/

/-- The part of a KV pool that an append needs: region, pool number, H, d. -/
structure KvUse where
  r : Region
  q : Fin 5
  heads : Nat
  dim : Nat
  deriving DecidableEq, Repr

/-- The KV region of a base address, with its enabled pool (10 R282). -/
def State.kvUse (s : State) (ctx : BitVec 8) (base : Nat) : Option KvUse :=
  match (s.ctxOf ctx).regionOf base with
  | none => none
  | some r =>
    if h : r.gran.toNat < 5 then
      let p := s.pool r.gran.toNat
      if p.en && !p.busy then some { r := r, q := ⟨r.gran.toNat, h⟩, heads := p.heads.toNat + 1, dim := p.dim.toNat + 1 } else none
    else none

/-- Index within its layer of the page at `va`, from the sequence's layer-0 address (13 R397, R398). -/
def Region.pageIndex (r : Region) (kva va : Nat) : Nat :=
  (((va : Int) - (kva : Int) - ((r.layer va) * 2 ^ r.lshift.toNat : Nat)) % 18446744073709551616).toNat / r.page

/-- Pages lo to hi - 1 of a sequence lie inside the region (10 R282). -/
def KvUse.reaches (u : KvUse) (base pages : Nat) : Bool := decide (base + pages * u.r.page ≤ u.r.start + u.r.bytes)

/-- Byte offset of feature `f` of part `part` in slot `slot` (10 R281). -/
def KvUse.offset (u : KvUse) (part f slot w : Nat) : Nat :=
  part * 16 * u.heads * u.dim * w + f / u.dim * 16 * u.dim * w + slot * u.dim * w + f % u.dim * w

/-- The payload of a page fits its granule (10 R280). -/
def KvUse.fits (u : KvUse) (fmt : Nat) : Bool := decide (32 * u.heads * u.dim * fmtBytes fmt ≤ u.r.page)

/-- What stands at page i of a sequence: a mapped page, nothing yet, or neither. -/
inductive PageSeen where
  | page (x : Nat) | unmapped | other
  deriving DecidableEq, Repr

def State.seePage (s : State) (phys : Option Nat) (ctx : BitVec 8) (u : KvUse) (va : Nat) : PageSeen :=
  match s.translate phys ctx va false with
  | .ok pa lg _ =>
    match s.pageAt u.r (pa / 2 ^ lg * 2 ^ lg) with
    | some x => .page x
    | none => .other
  | _ =>
    match s.walkTo0 ctx va false with
    | .ok entry => if pteState (s.pte entry) = 0 then .unmapped else .other
    | .error _ => .other

/-- The checks of an append before any write: the format of every page that exists (06 R185, 10 R292) and R280 for a page
that would be allocated. Pages first to last of tokens tok0 to tok0 + m - 1. -/
def State.appendCheck (s : State) (phys : Option Nat) (ctx : BitVec 8) (u : KvUse) (base tok0 m fmt : Nat) : Chk :=
  if m = 0 then .ok ()
  else
    let first := tok0 / 16
    let last := (tok0 + m - 1) / 16
    let seen := (List.range (last + 1 - first)).map fun i => s.seePage phys ctx u (base + (first + i) * u.r.page)
    do
      need (u.reaches base (last + 1)) eKvLayout
      need (!(seen.any fun p => p == .unmapped) || u.fits fmt) eKvLayout
      need (seen.all fun p => match p with | .page x => (s.hdrLost u.q.val x).isSome || (s.khdr u.q.val x).fmt.toNat == fmt | _ => true) eFmtMismatch

/-- The first page of an append whose header is lost. -/
def State.appendLost (s : State) (phys : Option Nat) (ctx : BitVec 8) (u : KvUse) (base tok0 m : Nat) : Option Nat :=
  if m = 0 then none
  else (List.range ((tok0 + m - 1) / 16 + 1 - tok0 / 16)).findSome? fun i =>
    match s.seePage phys ctx u (base + (tok0 / 16 + i) * u.r.page) with
    | .page x => s.hdrLost u.q.val x
    | _ => none

/-- Write one element of a slot; the page it stands in. -/
def State.kvPut (s : State) (phys : Option Nat) (ctx : BitVec 8) (u : KvUse) (base tok part f fmt : Nat) (bits : Word) :
    State × Nat × Option XFail :=
  let va := base + tok / 16 * u.r.page
  match s.appendPage phys ctx u.r va fmt with
  | .error e => (s, 0, some e)
  | .ok (s, x) =>
    let w := fmtBytes fmt
    let off := u.offset part f (tok % 16) w
    let pa := (s.pool u.q.val).framePa u.q.val x + off
    if s.held pa w then (s, x, some (heldFail (va + off) pa))
    else
      let r := s.pwrite pa (leBytes w bits.toNat)
      (r.1, x, r.2.map fun b => { code := eHbmDetect, cause := 2, va := va + off + (b * 32 - pa), pa := b * 32, merged := true })

/-- Add mask bits of a slot to an instruction's marks. -/
def addMark (ms : List KvMark) (q : Fin 5) (x : Nat) (ctx : BitVec 8) (va part slot : Nat) : List KvMark :=
  let b := 1#16 <<< slot
  let add (m : KvMark) : KvMark := if part = 0 then { m with kmask := m.kmask ||| b } else { m with vmask := m.vmask ||| b }
  if ms.any fun m => m.pool == q && m.page == x then ms.map fun m => if m.pool == q && m.page == x then add m else m
  else ms ++ [add { pool := q, page := x, ctx := ctx, va := va, kmask := 0, vmask := 0 }]

/-! ### Converting a live block (06 R181) -/

/-- A live block as the conversion unit sees it. -/
structure CBlock where
  rows : Nat
  cols : Nat
  /-- coordinates of its first element -/
  m0 : Nat
  n0 : Nat
  /-- runtime extents: positions beyond them are masked -/
  mExt : Nat
  nExt : Nat
  /-- the accumulator value of the element at row r, column c of the block -/
  val : Nat → Nat → XR
  /-- destination address of element (m, n) -/
  dst : Int → Int → Int
  /-- loop indices of an element's last pass, for the NaN trap -/
  loops : Nat → Nat → List Nat

/-- What the conversions of one instruction share. -/
structure Conv where
  c : Nat
  phys : Option Nat
  ctx : BitVec 8
  seed : Dword
  mode : BitVec 2
  info : StopInfo
  chain : Chain
  env : ChainEnv
  cv : Cvt
  /-- where a KVAPP appends: its use of the pool and its base -/
  kv : Option (KvUse × Nat × Stage)
  /-- the sequence and layer-0 address that the export descriptor names, when the chain arms pages -/
  arm : Option (Word × Dword)

/-- A conversion under way. `n` counts the units (elements, or groups under a new scale) of the block that are converted, `log` holds what
they write. -/
structure Work where
  s : State
  flags : Flags := 0
  trap : Trap := none
  marks : List KvMark := []
  n : Nat := 0
  log : List ConvWrite := []
  fail : Option XFail := none

/-- Write bytes to the chain's destination space. -/
def Conv.put (v : Conv) (s : State) (addr : Int) (bs : List Byte) : State × Option XFail :=
  if v.chain.space = 1 then (s.modCore v.c fun k => k.ostWrite (ostAddr addr) bs, none)
  else if v.chain.space = 2 then s.vwrite v.phys v.ctx (addr % 18446744073709551616).toNat bs
  else (s, none)

/-- The memory words of the residual stages of element (m, n), or the access that fails. -/
def Conv.residuals (v : Conv) (s : State) (m n : Nat) : Except XFail (List (Nat × Word)) :=
  (v.chain.epi.zip (List.range v.chain.epi.length)).foldl (fun acc e =>
    match acc with
    | .error x => .error x
    | .ok l =>
      if e.1.ty = 0xA ∧ e.1.mem = true then
        match s.vread v.phys v.ctx ((e.1.residAt v.env.aux m n) % 18446744073709551616).toNat (fmtBytes e.1.fmt) with
        | .ok bs => .ok (l ++ [(e.2, elemWord bs)])
        | .error x => .error x
      else .ok l) (.ok [])

/-- The exact value of R56 step 1 for element (m, n) at (r, c) of the block. -/
def Conv.exact (v : Conv) (s : State) (b : CBlock) (r c : Nat) : Except XFail StageOut :=
  let m := b.m0 + r
  let n := b.n0 + c
  match v.residuals s m n with
  | .error x => .error x
  | .ok ws => .ok (v.chain.value v.env m n (fun i => ((ws.find? fun e => e.1 == i).map (·.2)).getD 0) (b.val r c))

/-- Append the converted element to its KV slot (06 R184, R186). -/
def Conv.append (v : Conv) (w : Work) (m n : Nat) (bits : Word) : Work :=
  match v.kv with
  | none => w
  | some (u, base, st) =>
    let tok := wbits st.w3 0 24 + m
    let part := wbits st.w3 31 1
    let r := w.s.kvPut v.phys v.ctx u base tok part n v.cv.dst bits
    match r.2.2 with
    | some e => { w with s := r.1, fail := some e }
    | none =>
      let s := match v.arm with
        | some (seq, kva) => r.1.armPage u.q r.2.1 seq (u.r.pageIndex kva.toNat (base + tok / 16 * u.r.page))
        | none => r.1
      { w with s := s, marks := if n + 1 = u.heads * u.dim then addMark w.marks u.q r.2.1 v.ctx (base + tok / 16 * u.r.page) part (tok % 16) else w.marks }

/-- Write one converted element to its slot and its destination, unless an earlier write has failed. -/
def Conv.store (v : Conv) (b : CBlock) (w : Work) (m n : Nat) (bits : Word) : Work :=
  match w.fail with
  | some _ => w
  | none =>
    let w := v.append w m n bits
    match w.fail with
    | some _ => w
    | none =>
      let r := v.put w.s (b.dst m n) (leBytes (fmtBytes v.cv.dst) bits.toNat)
      { w with s := r.1, fail := r.2 }

/-- Carry out a write of a block. -/
def Conv.write (v : Conv) (b : CBlock) (w : Work) : ConvWrite → Work
  | .element m n bits => v.store b w m n bits
  | .scale a bits =>
    match w.fail with
    | some _ => w
    | none =>
      let r := v.put w.s a (leBytes 4 bits.toNat)
      { w with s := r.1, fail := r.2 }

/-- Carry out the writes of a unit, and count and keep them. A unit whose write fails is written again from its log after the halt, as
every unit before it: a conversion that restarts writes the same bits (06 R189). -/
def Conv.writeUnit (v : Conv) (b : CBlock) (w : Work) (ws : List ConvWrite) : Work :=
  ws.foldl (v.write b) { w with n := w.n + 1, log := w.log ++ ws }

/-- Pages for the appends of rows r to r + 127 of a block are found or allocated, so that an append halts before it writes the tile that
needs a page (06 R185, 10 R293); the tile is the block's 128 rows (entry 37). -/
def Conv.reserve (v : Conv) (b : CBlock) (w : Work) (r : Nat) : Work :=
  match v.kv with
  | none => w
  | some (u, base, st) =>
    let rows := (List.range (min 128 (b.rows - r))).filter fun i => decide (b.m0 + r + i < b.mExt)
    let pages := (rows.map fun i => (wbits st.w3 0 24 + (b.m0 + r + i)) / 16).eraseDups
    pages.foldl (fun (w : Work) i =>
      match w.fail with
      | some _ => w
      | none =>
        match w.s.appendPage v.phys v.ctx u.r (base + i * u.r.page) v.cv.dst with
        | .error e => { w with fail := some e }
        | .ok (s, _) => { w with s := s }) w

/-- The draw of one position, with its lane's counter advanced (02 R62-R64). -/
def Conv.draw (v : Conv) (w : Work) (lane : Nat) : Rnd × Work :=
  let k := w.s.core v.c
  (v.cv.rnd.draw v.seed v.c lane (sget 0 k.sr lane),
   if v.cv.rnd.isSr then { w with s := w.s.setCore v.c { k with sr := smod 0 k.sr lane (· + 1) } } else w)

def CBlock.masked (b : CBlock) (r c : Nat) : Bool := decide (b.m0 + r ≥ b.mExt) || decide (b.n0 + c ≥ b.nExt)

/-- Convert the element at (r, c) of a block without a new scale; the first `skip` elements are done already. -/
def Conv.element (v : Conv) (b : CBlock) (skip : Nat) (w : Work) (r c : Nat) : Work :=
  match w.fail with
  | some _ => w
  | none =>
    let (rnd, w) := v.draw w (c % 128)
    if b.masked r c then w
    else if w.n < skip then { w with n := w.n + 1 }
    else
      match v.exact w.s b r c with
      | .error x => { w with fail := some x }
      | .ok o =>
        let x := convertExact v.cv rnd o.x v.chain.clipLo v.chain.clipHi
        let w := { w with flags := w.flags ||| o.flags ||| x.2,
                          trap := w.trap.notes v.mode v.info (b.loops (b.m0 + r) (b.n0 + c)) o.nans }
        v.writeUnit b w [.element (b.m0 + r) (b.n0 + c) x.1]

/-- The exact values of a group's elements, or the access that fails. -/
def Conv.groupValues (v : Conv) (s : State) (b : CBlock) (r : Nat) : List (Nat × Rnd) → Except XFail (List (Nat × Rnd × StageOut))
  | [] => .ok []
  | (c, rnd) :: t =>
    match v.exact s b r c, v.groupValues s b r t with
    | .ok o, .ok l => .ok ((c, rnd, o) :: l)
    | .error x, _ => .error x
    | _, .error x => .error x

/-- The first destination of a group that does not translate: nothing of the group is written then. -/
def Conv.groupFault (v : Conv) (s : State) (b : CBlock) (r : Nat) (cols : List Nat) (ns : Int) : Option XFail :=
  if v.chain.space ≠ 2 then none
  else
    let at64 (x : Int) : Nat := (x % 18446744073709551616).toNat
    let one (a n : Nat) : Option XFail := match s.xlat v.phys v.ctx true a n with | .error e => some e | .ok _ => none
    (cols.findSome? fun (c : Nat) => one (at64 (b.dst (b.m0 + r : Nat) (b.n0 + c : Nat))) (fmtBytes v.cv.dst)).or (one (at64 ns) 4)

/-- Convert one group (a 64-column block of a row, or the row) under a new scale (02 R57, R58, 06 R182). A group with an infinite and no
NaN value notes one produced NaN, in F32 at its first element; one that holds a NaN notes none of its own (DESIGN CHOICE, entry 55). -/
def Conv.group (v : Conv) (b : CBlock) (skip : Nat) (w : Work) (r : Nat) (els : List (Nat × Rnd)) : Work :=
  match w.fail, els with
  | some _, _ => w
  | none, [] => w
  | none, (c0, _) :: _ =>
    if w.n < skip then { w with n := w.n + 1 }
    else
      let m := b.m0 + r
      let j := if v.cv.newScale = 1 then (b.n0 + c0) / 64 else 0
      let ns : Int := (v.chain.nsAddr.toNat : Int) + v.env.aux + (m * v.chain.nsPitch + 4 * j : Nat)
      match v.groupValues w.s b r els with
      | .error x => { w with fail := some x }
      | .ok vs =>
        match v.groupFault w.s b r (els.map (·.1)) ns with
        | some e => { w with fail := some e }
        | none =>
          let sc := groupScale v.cv.dst v.cv.uns (vs.map fun e => e.2.2.x)
          let noNan := vs.all fun e => !e.2.2.x.isNan
          let w := vs.foldl (fun (w : Work) e =>
            { w with flags := w.flags ||| e.2.2.flags,
                     trap := w.trap.notes v.mode v.info (b.loops m (b.n0 + e.1)) e.2.2.nans }) w
          -- a NaN that arises from an infinite value is produced (R57, entry 55)
          let w := if sc.2 then
              { w with flags := w.flags ||| fInvalid,
                       trap := if noNan then w.trap.notes v.mode v.info (b.loops m (b.n0 + c0)) [⟨true, 6, 0, m, b.n0 + c0⟩] else w.trap }
            else w
          let qs := vs.map fun e =>
            (e.1, if sc.2 then roundTo v.cv.dst v.cv.uns v.cv.ovf .rne .nan else quotTo v.cv e.2.1 e.2.2.x sc.1)
          let w := { w with flags := qs.foldl (fun f q => f ||| (if sc.2 then 0 else q.2.cvtFlags)) w.flags }
          v.writeUnit b w ((qs.map fun q => .element m (b.n0 + q.1) q.2.bits) ++ [.scale ns sc.1])

/-- Split the unmasked elements of a row into groups by column. -/
def groupsBy (key : Nat → Nat) (els : List (Nat × Rnd)) : List (List (Nat × Rnd)) :=
  let keys := (els.map fun e => key e.1).eraseDups
  keys.map fun k => els.filter fun e => key e.1 == k

/-- Convert one row of a block, the first of a tile once its pages are there. -/
def Conv.row (v : Conv) (b : CBlock) (skip : Nat) (w : Work) (r : Nat) : Work :=
  let w := if r % 128 = 0 ∧ w.fail.isNone = true then v.reserve b w r else w
  if v.cv.newScale = 0 then (List.range b.cols).foldl (fun w c => v.element b skip w r c) w
  else
    match w.fail with
    | some _ => w
    | none =>
      let d := (List.range b.cols).foldl (fun (a : List (Nat × Rnd) × Work) c =>
        let x := v.draw a.2 (c % 128)
        (if b.masked r c then a.1 else a.1 ++ [(c, x.1)], x.2)) ([], w)
      let key (c : Nat) : Nat := if v.cv.newScale = 1 then (b.n0 + c) / 64 else 0
      (groupsBy key d.1).foldl (fun w g => v.group b skip w r g) d.2

/-- Groups that the lanes take for the ACT stages of a block: two of its 128-column rows each (07 R195, R213). -/
def Conv.actGroups (v : Conv) (b : CBlock) : Nat :=
  (v.chain.epi.filter fun s => s.ty == 9).length * ceilDiv (b.rows * ceilDiv b.cols 128) 2

/-- Convert a live block, row by row (06 R181). After a halt it restarts at its first element (06 R189): the first `skip` units, whose
writes stand in `w.log`, are written again with the same bits. On a failing access the counters go back to those of the block's
start. -/
def Conv.block (v : Conv) (b : CBlock) (skip : Nat) (w : Work) : Work :=
  let sr := (w.s.core v.c).sr
  let w1 := w.log.foldl (v.write b) { w with s := if skip = 0 then w.s.vecGroups v.c (v.actGroups b) else w.s, n := 0 }
  match w1.fail with
  | some _ => { w1 with n := skip }
  | none =>
    let w' := (List.range b.rows).foldl (fun w r => v.row b skip w r) w1
    match w'.fail with
    | some _ => { w' with n := max skip w'.n, s := w'.s.modCore v.c fun k => { k with sr := sr } }
    | none => { w' with log := [] }

/-! ### How an instruction ends -/

/-- What a halted instruction goes on with; at its first begin, nothing (04 R133). -/
structure Resume where
  at? : Option (Nat × Nat) := none
  trap : Trap := none
  marks : List KvMark := []
  flags : Flags := 0
  redo : List ConvWrite := []
  deriving DecidableEq, Repr

/-- What an instruction answers that met a lost structure of the device: it has no effect, and the device drains (14 R409). -/
def Began.lost (s : State) (burst : Nat) : Began := { s := s.loseOwned burst, fly := false, mute := true }

def Resume.work (p : Resume) (s : State) : Work := { s := s, flags := p.flags, trap := p.trap, marks := p.marks, log := p.redo }

/-- How a working instruction ends: it flies, halts at a place, or stops on a trap. -/
def Work.began (w : Work) (place : Nat) : Began :=
  match w.fail with
  | some e => { s := w.s, flags := w.flags, marks := w.marks, haltedAt := some (place, w.n), redo := w.log, trap := w.trap, halt := some e }
  | none => { s := w.s, flags := w.flags, marks := w.marks, stop := w.trap.map (·.2) }

end Sys2Proof.Machine
end

