-- ==== Sys2Proof/Machine/Mma.lean ====
section
/-!
DEFINITION. MMA and EPI (04 R125, R126, 05 R140-R168, 06 R181-R189, 03 R72-R92), and the checks of R166 that ATTN shares.
-/

namespace Sys2Proof.Machine

/-! ### Latching (05 R166) -/

/-- The `n` lines of a descriptor at `line`; none outside lines 2 to 1,023 (04 R122). -/
def Core.latch (k : Core) (line n : Nat) : Option (List Word) := if lineOk line n then some (k.lineWords line (16 * n)) else none

def Core.latchChain (k : Core) (line : Nat) : Option Chain :=
  if lineOk line 1 then
    let n := wbits (k.dw line 0) 16 12
    if 1 ≤ n ∧ lineOk line n = true then parseChain (k.lineWords line (16 * n)) else none
  else none

def State.imageOf (s : State) (l : Launch) : Option Image := sget none s.images l.handle.toNat

/-- The shape entry of a core's line (05 R164). -/
def State.shape (s : State) (l : Launch) (c line : Nat) : Option Shape :=
  match s.imageOf l with
  | some i => i.shapes.find? fun e => e.core == c && e.line == line
  | none => none

/-- Entry count of the offset block a descriptor names: 0 lines is no block. -/
def Core.offCount (k : Core) (ob : Nat) : Option Nat :=
  if ob = 0 then some 0 else if ob < 2 then none else parseOffHeader ob (k.lineWords ob 16)

/-- The offset entry of a problem (04 R126). -/
def Core.offEntry (k : Core) (ob : Nat) (p : Word) : Except Code Offs :=
  if ob = 0 then (if p = 0 then .ok {} else .error eProblemRange)
  else if p.toNat ≥ (k.offCount ob).getD 0 then .error eProblemRange
  else match parseOffs (k.lineWords (ob + 1 + p.toNat) 16) with
    | some o => .ok o
    | none => .error eDesc

/-- The offset block is there, and the fields of the entry that the problem names are legal (05 R166 step 1); an index beyond it is
step 4's. -/
def Core.offOk (k : Core) (ob : Nat) (p : Word) : Chk :=
  match k.offCount ob with
  | none => .error eDesc
  | some n => need (ob == 0 || decide (p.toNat ≥ n) || (parseOffs (k.lineWords (ob + 1 + p.toNat) 16)).isSome) eDesc

/-- Runtime extents (05 R155). -/
def extents (sh : Shape) (o : Offs) (m n k : Option Word) : Except Code (Nat × Nat × Nat) :=
  let e (x : Option Word) (mx : Nat) : Nat := match x with | some w => w.toNat | none => mx
  let r := if o.valid then (o.m, o.n, o.k) else (e m sh.mMax, e n sh.nMax, e k sh.kMax)
  if r.1 > sh.mMax ∨ r.2.1 > sh.nMax ∨ r.2.2 > sh.kMax then .error eShapeOver else .ok r

/-- 48 words from a line: an element program. -/
def Core.elemLine (k : Core) (line : Nat) : List Word := k.lineWords line 48

/-- The export descriptor that a chain names, when it has an EXPORT stage: sequence and layer-0 address (13 R397). -/
def Core.armSeq (k : Core) (ch : Chain) : Option (Word × Dword) :=
  (ch.stage 0xF).map fun s => let ln := wbits s.w1 0 10; (k.dw ln 1, k.dw ln 3 ++ k.dw ln 2)

/-- An export descriptor (13 R397). -/
structure ExportDesc where
  part : Bool
  seq : Word
  kva : Nat
  layerFirst : Nat
  layers : Nat
  pageFirst : Nat
  pages : Nat
  deriving DecidableEq, Repr

def parseExport (ws : List Word) : Option ExportDesc :=
  let w0 := wAt ws 0
  if wbits w0 28 4 = 7 ∧ wbits w0 16 12 = 1 ∧ wbits w0 0 15 = 0 ∧ wbits (wAt ws 4) 0 16 = 0 ∧ wbits (wAt ws 5) 24 8 = 0 ∧
      wbits (wAt ws 6) 24 8 = 0 ∧ ((ws.drop 7).take 9).all (· == 0) then
    some { part := bit1 w0 15, seq := wAt ws 1, kva := (dAt ws 2).toNat, layerFirst := wbits (wAt ws 4) 24 8,
           layers := wbits (wAt ws 4) 16 8 + 1, pageFirst := wbits (wAt ws 5) 0 24, pages := wbits (wAt ws 6) 0 24 }
  else none

/-- The export descriptor of an EXPORT stage is there. -/
def Core.armOk (k : Core) (ch : Chain) : Bool :=
  match ch.stage 0xF with
  | none => true
  | some s => let ln := wbits s.w1 0 10; lineOk ln 1 && (parseExport (k.lineWords ln 16)).isSome

/-! ### Bytes that an instruction reads and writes (05 R166 step 8, 06 R188) -/

/-- A range of the operand store. -/
abbrev OstRange := Nat × Nat

/-- Rows of an array. -/
def rowsAt (base : Int) (rows pitch len : Nat) : List OstRange := (List.range rows).map fun (i : Nat) => (ostAddr (base + (i * pitch : Nat)), len)

def rangeOk (r : OstRange) : Bool := r.2 == 0 || decide (r.1 + r.2 ≤ ostSize)

def anyMeet (a b : List OstRange) : Bool := a.any fun x => b.any fun y => rangesMeet x.1 x.2 y.1 y.2

/-- What the prologue reads for moving vectors v0 to v0 + vn - 1. -/
def Chain.proRows (c : Chain) (g aux : Int) (v0 vn kx : Nat) : List OstRange :=
  (c.pro.map fun s =>
    let b : Int := s.w1.toNat
    if s.ty = 3 then rowsAt (b + g + (v0 * s.w3.toNat : Nat)) vn s.w3.toNat (kx * fmtBytes s.fmt)
    else if s.ty = 4 then rowsAt (b + aux + (v0 * s.w3.toNat : Nat)) vn s.w3.toNat (4 * ceilDiv kx 64)
    else if s.mode = 1 then rowsAt (b + aux) 1 0 (4 * kx)
    else if s.mode = 2 then rowsAt (b + aux + (4 * v0 : Nat)) 1 0 (4 * vn)
    else []).flatten

/-- What the epilogue reads for rows m0 to m0 + mn - 1, without residuals. -/
def Chain.epiRows (c : Chain) (aux : Int) (m0 mn nx : Nat) : List OstRange :=
  (c.epi.map fun s =>
    let b : Int := s.w1.toNat + aux
    if s.ty = 8 ∧ s.mode = 0 then rowsAt b 1 0 (4 * nx)
    else if s.ty = 0xB then
      (if s.mode = 1 then rowsAt b 1 0 (4 * nx)
       else if s.mode = 2 then rowsAt (b + (m0 * s.w3.toNat : Nat)) mn s.w3.toNat (4 * ceilDiv nx 64)
       else if s.mode = 3 then rowsAt (b + (4 * m0 : Nat)) 1 0 (4 * mn) else [])
    else if s.ty = 0xD then
      (let sm := wbits s.w1 18 2
       let sb : Int := s.w2.toNat + aux
       (if sm = 2 then rowsAt sb 1 0 (4 * nx) else if sm = 3 then rowsAt (sb + (m0 * c.csPitch : Nat)) mn c.csPitch (4 * ceilDiv nx 64) else []) ++
         (if bit1 s.w1 17 then rowsAt (s.w3.toNat + aux) 1 0 (4 * nx) else []))
    else []).flatten

/-- Residuals in the operand store. -/
def Chain.resids (c : Chain) : List Stage := c.epi.filter fun s => s.ty == 0xA && !s.mem

def Stage.residRows (s : Stage) (aux : Int) (m0 mn nx : Nat) : List OstRange :=
  rowsAt (s.w1.toNat + aux + (m0 * s.w3.toNat : Nat)) mn s.w3.toNat (nx * fmtBytes s.fmt)

/-- The new-scale array. -/
def Chain.nsRows (c : Chain) (aux : Int) (m0 mn nx : Nat) : List OstRange :=
  if c.space = 1 ∧ c.newScale ≠ 0 then
    rowsAt ((c.nsAddr.toNat : Int) + aux + (m0 * c.nsPitch : Nat)) mn c.nsPitch (if c.newScale = 1 then 4 * ceilDiv nx 64 else 4)
  else []

/-- The overlap rule (06 R188). `reads` are A, B, G and the prologue's arrays; `dst` the destination's ranges; `dstOf` the
destination address of an element; `cells` the elements that are written. -/
def Chain.overlaps (c : Chain) (aux : Int) (m0 mn nx : Nat) (reads dst : List OstRange) (dstOf : Nat → Nat → Int)
    (cells : List (Nat × Nat)) : Bool :=
  if c.space ≠ 1 then false
  else
    let same (s : Stage) : Bool := s.fmt == c.dstFmt && cells.all fun e => ostAddr (s.residAt aux e.1 e.2) == ostAddr (dstOf e.1 e.2)
    let ns := c.nsRows aux m0 mn nx
    let inPlace := c.resids.filter same
    let other := c.resids.filter fun s => !same s
    let rd := reads ++ c.epiRows aux m0 mn nx ++ (other.map fun s => s.residRows aux m0 mn nx).flatten
    anyMeet (dst ++ ns) rd || anyMeet ns (inPlace.map fun s => s.residRows aux m0 mn nx).flatten

/-! ### MMA -/

/-- An MMA that has passed its checks. -/
structure Mma where
  d : Mat
  n : Nest
  ch : Chain
  o : Offs
  env : ChainEnv
  lo : Nat
  hi : Nat
  m : Nat
  nx : Nat
  k : Nat
  blocks : List VBlock
  demand : Nat
  /-- columns of the live block at planned maxima -/
  ln : Nat
  prob : Nat

def Mma.mlo (x : Mma) : Nat := x.lo * x.n.tm
def Mma.mhi (x : Mma) : Nat := min (x.hi * x.n.tm) x.m

/-- Entry formats after a prologue. -/
def Mma.fmtA (x : Mma) : Nat := if x.ch.pro.isEmpty || x.d.flow == 1 then x.d.fmtA else x.ch.proFmt
def Mma.fmtB (x : Mma) : Nat := if x.ch.pro.isEmpty || x.d.flow != 1 then x.d.fmtB else x.ch.proFmt
def Mma.isInt (x : Mma) : Bool := fmtIsInt x.fmtA

/-- Address of A[m, k] in tiles mt and kt, and of B[k, n] (05 R141, R160). -/
def Mma.addrA (x : Mma) (mt kt m k : Nat) : Int :=
  (x.d.baseA : Int) + x.o.a + x.n.offset (·.sa) (mt - x.lo) 0 kt + ((m - mt * x.n.tm) * x.n.pitchA + (k - kt * x.n.tk) * fmtBytes x.d.fmtA : Nat)
def Mma.addrB (x : Mma) (nt kt k n : Nat) : Int :=
  (x.d.baseB : Int) + x.o.b + x.n.offset (·.sb) 0 nt kt + ((k - kt * x.n.tk) * x.n.pitchB + (n - nt * x.n.tn) * fmtBytes x.d.fmtB : Nat)
/-- Destination address of element (m, n). -/
def Mma.dst (x : Mma) (m n : Nat) : Int :=
  let mt := m / x.n.tm
  let nt := n / x.n.tn
  (x.ch.dst.toNat : Int) + x.o.c + x.n.offset (·.sd) mt nt 0 +
    ((m - mt * x.n.tm) * x.n.pitchD + (n - nt * x.n.tn) * fmtBytes x.ch.dstFmt : Nat)

/-- A nonzero padding limit cuts a coordinate off (05 R158). -/
def padded (limit i : Nat) : Bool := limit != 0 && decide (i ≥ limit)

/-- The part of lo to hi - 1 below a padding limit, as an end. -/
def padEnd (limit hi : Nat) : Nat := if limit = 0 then hi else min hi limit

/-- Ranges of A that the tiles read. -/
def Mma.rowsA (x : Mma) : List OstRange :=
  let n := x.n
  (x.blocks.map fun b => (b.tiles.map fun t => (t.passes.map fun p =>
    let k0 := p.1 * n.tk
    let ke := padEnd n.padK (min (k0 + n.tk) x.k)
    let m0 := t.mt * n.tm
    let me := padEnd n.padM (min (m0 + n.tm) x.m)
    if ke > k0 then (List.range (me - m0)).map fun i => (ostAddr (x.addrA t.mt p.1 (m0 + i) k0), (ke - k0) * fmtBytes x.d.fmtA) else []).flatten).flatten).flatten

/-- Ranges of B that the tiles read. -/
def Mma.rowsB (x : Mma) : List OstRange :=
  let n := x.n
  (x.blocks.map fun b => (b.tiles.map fun t => (t.passes.map fun p =>
    let k0 := p.1 * n.tk
    let ke := padEnd n.padK (min (k0 + n.tk) x.k)
    let n0 := t.nt * n.tn
    let ne := padEnd n.padN (min (n0 + n.tn) x.nx)
    if ne > n0 then (List.range (ke - k0)).map fun i => (ostAddr (x.addrB t.nt p.1 (k0 + i) n0), (ne - n0) * fmtBytes x.d.fmtB) else []).flatten).flatten).flatten

def Mma.operandRows (x : Mma) : List OstRange := x.rowsA ++ x.rowsB

/-- Ranges of the destination. -/
def Mma.dstRows (x : Mma) : List OstRange :=
  if x.ch.space ≠ 1 then []
  else (x.blocks.map fun b => (b.tiles.map fun t =>
    let m0 := t.mt * x.n.tm
    let n0 := t.nt * x.n.tn
    (List.range (min x.n.tm (x.m - m0))).map fun i =>
      (ostAddr (x.dst (m0 + i) n0), min x.n.tn (x.nx - n0) * fmtBytes x.ch.dstFmt)).flatten).flatten

def Mma.cells (x : Mma) : List (Nat × Nat) :=
  ((List.range (x.mhi - x.mlo)).map fun i => (List.range x.nx).map fun j => (x.mlo + i, j)).flatten

/-- Moving vectors: first and count. -/
def Mma.moving (x : Mma) : Nat × Nat := if x.d.flow = 1 then (0, x.nx) else (x.mlo, x.mhi - x.mlo)

def Mma.proRows (x : Mma) : List OstRange := x.ch.proRows x.env.g x.o.aux x.moving.1 x.moving.2 x.k

/-- Everything the instruction reads in the operand store, but for residuals. -/
def Mma.reads (x : Mma) : List OstRange := x.operandRows ++ x.proRows

/-- Step 8 of R166, and the bytes it writes (04 R126). -/
def Mma.bounds (x : Mma) : Bool :=
  let mn := x.mhi - x.mlo
  (x.reads ++ x.dstRows ++ x.ch.epiRows x.o.aux x.mlo mn x.nx ++ x.ch.nsRows x.o.aux x.mlo mn x.nx ++
    (x.ch.resids.map fun s => s.residRows x.o.aux x.mlo mn x.nx).flatten).all rangeOk

def Mma.overlap (x : Mma) : Bool := x.ch.overlaps x.o.aux x.mlo (x.mhi - x.mlo) x.nx x.reads x.dstRows x.dst x.cells

/-! Placement (05 R151). -/

/-- Blocks alternate between two halves. -/
def Mma.pingPong (x : Mma) : Bool := !x.ch.retain && decide (x.d.accTiles + 1 ≥ 2 * x.demand)

/-- First tile, tiles a row, and first coordinates of the i-th block. -/
def Mma.place (x : Mma) (i : Nat) (b : VBlock) : Nat × Nat × Nat × Nat :=
  let t0 := x.d.accBase + (if x.pingPong && i % 2 == 1 then x.demand else 0)
  if x.ch.retain then (t0, ceilDiv x.ln 128, x.mlo, 0)
  else
    let m0 := (b.tiles.map (·.mt)).foldl min x.hi * x.n.tm
    let n0 := (b.tiles.map (·.nt)).foldl min (ceilDiv x.nx x.n.tn) * x.n.tn
    (t0, ceilDiv x.ln 128, m0, n0)

/-- Tile and word of an element of a block. -/
def accPlace (p : Nat × Nat × Nat × Nat) (m n : Nat) : Nat × Nat :=
  let r := m - p.2.2.1
  let c := n - p.2.2.2
  let t := p.1 + r / 128 * p.2.1 + c / 128
  (t, accKey t (r % 128) (c % 128))

/-- Rows and columns of the output that a tile covers within the extents. -/
def Mma.tileCells (x : Mma) (t : VTile) : List (Nat × Nat) :=
  let m0 := t.mt * x.n.tm
  let n0 := t.nt * x.n.tn
  ((List.range (min x.n.tm (x.m - m0))).map fun i => (List.range (min x.n.tn (x.nx - n0))).map fun j => (m0 + i, n0 + j)).flatten

/-- Accumulator tiles written. -/
def Mma.used (x : Mma) : List Nat :=
  ((x.blocks.zip (List.range x.blocks.length)).map fun b =>
    (b.1.tiles.map fun t => (x.tileCells t).map fun e => (accPlace (x.place b.2 b.1) e.1 e.2).1).flatten).flatten.eraseDups

/-! The array (03 R84-R89, 05 R148). -/

/-- An element as it enters the array: its word in the entry format, flags and NaNs. `op` is its operand code, `v` its moving
vector when it is of the moving operand; under a prologue its NaN is named by (v, k) (06 R177). -/
def Mma.enter (x : Mma) (core : Core) (fmt : Nat) (uns isMoving : Bool) (addr : Option Int) (op row col v k : Nat) : Word × Flags × List NanNote :=
  let raw := match addr with | some a => elemWord (core.ostRead (ostAddr a) (fmtBytes fmt)) | none => 0
  let stored := decodeAny fmt uns raw
  let seen (row col : Nat) : List NanNote := if stored.isNan then [⟨false, fmt, op, row, col⟩] else []
  if x.ch.pro.isEmpty || !isMoving then (raw, 0, seen row col)
  else
    let r := x.ch.entry x.env op v k stored
    (r.1, r.2.1, seen v k ++ r.2.2)

def Mma.elemA (x : Mma) (core : Core) (mt kt m k : Nat) : Word × Flags × List NanNote :=
  let pad := padded x.n.padM m || padded x.n.padK k
  x.enter core x.d.fmtA x.d.unsA (x.d.flow != 1) (if pad then none else some (x.addrA mt kt m k)) (if x.d.flow = 1 then 3 else 1) m k m k
def Mma.elemB (x : Mma) (core : Core) (nt kt k n : Nat) : Word × Flags × List NanNote :=
  let pad := padded x.n.padK k || padded x.n.padN n
  x.enter core x.d.fmtB x.d.unsB (x.d.flow == 1) (if pad then none else some (x.addrB nt kt k n)) (if x.d.flow = 0 then 3 else 2) k n n k

/-- k values of a pass. -/
def Mma.ks (x : Mma) (kt : Nat) : List Nat := (List.range (min x.n.tk (x.k - kt * x.n.tk))).map fun i => kt * x.n.tk + i

/-- Add one pass to one element: word, flags, NaNs. -/
def Mma.pass (x : Mma) (core : Core) (t : VTile) (kt m n : Nat) (acc : Word) : Word × Flags × List NanNote :=
  let ab := (x.ks kt).map fun k => (x.elemA core t.mt kt m k, x.elemB core t.nt kt k n)
  let fl := ab.foldl (fun f e => f ||| e.1.2.1 ||| e.2.2.1) (0 : Flags)
  let seen := (ab.map fun e => e.1.2.2 ++ e.2.2.2).flatten
  if x.isInt then
    let ba := 8 * fmtBytes x.fmtA
    let bb := 8 * fmtBytes x.fmtB
    let sum := ab.foldl (fun (a : Int) e => a + decodeI ba x.d.unsA e.1.1 * decodeI bb x.d.unsB e.2.1) 0
    let r := accumulateI acc sum
    (r.1, fl ||| r.2, seen)
  else
    let fa := (floatFmt x.fmtA).getD fmtF32
    let fb := (floatFmt x.fmtB).getD fmtF32
    let p := passSum (ab.map fun e => mkProd fa e.1.1 fb e.2.1)
    let r := accumulateF acc p.1
    (r.1, fl ||| flagIf p.2 fInvalid ||| r.2.1, seen ++ if p.2 || r.2.2 then [⟨true, 6, 4, m, n⟩] else [])

/-- All passes of one element. -/
def Mma.element (x : Mma) (core : Core) (mode : BitVec 2) (info : StopInfo) (place : Nat × Nat × Nat × Nat) (t : VTile)
    (w : Sparse Word × Flags × Trap) (e : Nat × Nat) : Sparse Word × Flags × Trap :=
  let key := (accPlace place e.1 e.2).2
  let start := if x.d.accumulate then sget 0 w.1 key else if x.isInt then 0 else negZero
  let r := t.passes.foldl (fun (a : Word × Flags × Trap) p =>
    let q := x.pass core t p.1 e.1 e.2 a.1
    (q.1, a.2.1 ||| q.2.1, a.2.2.notes mode info p.2 q.2.2)) (start, w.2.1, w.2.2)
  (sset 0 w.1 key r.1, r.2.1, r.2.2)

/-- The array work of one live block. -/
def Mma.accumulate (x : Mma) (c : Nat) (mode : BitVec 2) (info : StopInfo) (place : Nat × Nat × Nat × Nat) (b : VBlock) (w : Work) : Work :=
  let core := w.s.core c
  let r := b.tiles.foldl (fun (a : Sparse Word × Flags × Trap) t => (x.tileCells t).foldl (x.element core mode info place t) a)
    (core.acc, w.flags, w.trap)
  { w with s := w.s.setCore c { core with acc := r.1 }, flags := r.2.1, trap := r.2.2 }

/-- Busy and stall cycles of a block's operations (03 R83, R98), and the moving vectors that enter. No field of a descriptor names a reuse
of a held tile (03 R77): every pass counts the 128 cycles of its load (DESIGN CHOICE, entry 26). -/
def Mma.cycles (x : Mma) (b : VBlock) : Nat × Nat × Nat :=
  b.tiles.foldl (fun a t =>
    let kd := t.passes.foldl (fun n p => n + (x.ks p.1).length) 0
    if x.d.flow = 2 then (a.1 + kd, a.2.1 + 128, a.2.2 + kd)
    else
      let mv := if x.d.flow = 0 then min x.n.tm (x.m - t.mt * x.n.tm) else min x.n.tn (x.nx - t.nt * x.n.tn)
      (a.1 + t.passes.length * mv, a.2.1 + t.passes.length * 128, a.2.2 + t.passes.length * mv)) (0, 0, 0)

/-- Groups that the lanes take for a PGATE stage: two moving vectors each (07 R195, R213). -/
def Mma.gateGroups (x : Mma) (vectors : Nat) : Nat := (x.ch.pro.filter fun s => s.ty == 3).length * ceilDiv vectors 2

/-- Read an accumulator word as the epilogue does (06 R174). -/
def Core.accVal (k : Core) (tile key : Nat) : XR :=
  let w := sget 0 k.acc key
  if k.accIsI32 tile then XR.ofInt (i32 w) else f32 w

/-- A live block for the conversion unit. -/
def Mma.convBlock (x : Mma) (core : Core) (place : Nat × Nat × Nat × Nat) (b : VBlock) : CBlock :=
  let mts := (b.tiles.map (·.mt)).eraseDups.length
  let nts := (b.tiles.map (·.nt)).eraseDups.length
  { rows := mts * x.n.tm, cols := nts * x.n.tn, m0 := place.2.2.1, n0 := place.2.2.2, mExt := x.m, nExt := x.nx,
    val := fun r c => let p := accPlace place (place.2.2.1 + r) (place.2.2.2 + c); core.accVal p.1 p.2,
    dst := fun m n => x.dst m.toNat n.toNat,
    loops := fun m n =>
      match b.tiles.find? fun t => t.mt == m / x.n.tm && t.nt == n / x.n.tn with
      | some t => match t.passes.getLast? with | some p => p.2 | none => []
      | none => [] }

/-- Tile t of the i-th MMA or ATTN of core c is shadowed (14 R422); i and t count from 0. -/
def isShadowed (l : Launch) (c i t : Nat) : Bool :=
  let u := mix64 (l.salt ^^^ mix64 (.ofNat 64 (c * 2 ^ 48 + i % 2 ^ 32 * 2 ^ 16 + t % 2 ^ 16)))
  l.strict != 0 && decide ((u >>> 58).toNat < 2 ^ (l.strict.toNat - 1))

/-- Note the signature of a shadowed tile's values before conversion (14 R423). -/
def State.shadowTile (s : State) (l : Launch) (c : Nat) (pc : BitVec 20) (t : Nat) (vals : List Word) : State :=
  let i := (s.core c).strictN - 1
  if isShadowed l c i t then
    { s with err := { s.err with shadowTiles := s.err.shadowTiles + 1,
                                 shadows := s.err.shadows ++ [{ qid := l.qid, core := Fin.ofNat 64 c, pc := pc, index := 65536 * i + t, sig := crc64 (wordBytes vals) }] } }
  else s

/-- The output tiles of a block: the words of each 128x128 tile inside the extents, row-major. -/
def Mma.shadows (x : Mma) (l : Launch) (c : Nat) (pc : BitVec 20) (i : Nat) (b : VBlock) (s : State) : State :=
  let place := x.place i b
  let core := s.core c
  let cells := (b.tiles.map x.tileCells).flatten
  (List.range x.demand).foldl (fun (s : State) j =>
    let keys := (cells.filterMap fun e => let a := accPlace place e.1 e.2; if a.1 == place.1 + j then some a.2 else none).mergeSort
    if keys.isEmpty then s else s.shadowTile l c pc (i * x.demand + j) (keys.map fun k => sget 0 core.acc k)) s

/-- Run the live blocks from `start` on; the block that halted keeps its accumulators and has `skip` units done. -/
def Mma.run (x : Mma) (l : Launch) (v : Conv) (resumed : Bool) (skip : Nat) : List (VBlock × Nat) → Work → Work × Nat
  | [], w => (w, 0)
  | (b, i) :: rest, w =>
    let place := x.place i b
    let w := if resumed then w
      else
        let w := x.accumulate v.c v.mode v.info place b w
        let cy := x.cycles b
        let s := (x.shadows l v.c v.info.pc i b w.s).vecGroups v.c (x.gateGroups cy.2.2)
        { w with s := s.countOn v.c fun p => { p with mxuBusy := p.mxuBusy + .ofNat 32 cy.1, mxuStall := p.mxuStall + .ofNat 32 cy.2.1 } }
    let w := if x.ch.retain then w else v.block (x.convBlock (w.s.core v.c) place b) skip w
    match w.fail with
    | some _ => (w, i)
    | none => x.run l v false 0 rest w

/-- Where a KVAPP appends (10 R282): the pool's use and base; an error is E_KV_LAYOUT. -/
def State.kvFor (s : State) (l : Launch) (ch : Chain) (off : Int) (nx : Nat) : Except Code (Option (KvUse × Nat × Stage)) :=
  match ch.kvapp with
  | none => .ok none
  | some st =>
    let base := (((st.w2 ++ st.w1).toNat : Int) + off) % 18446744073709551616
    match s.kvUse l.ctx base.toNat with
    | none => .error eKvLayout
    | some u => if nx > u.heads * u.dim then .error eKvLayout else .ok (some (u, base.toNat, st))

/-- The header checks of an append (06 R185, 10 R282). -/
def State.kvCheck (s : State) (c : Nat) (l : Launch) (ch : Chain) (kv : Option (KvUse × Nat × Stage)) (m : Nat) : Chk :=
  match kv with
  | none => .ok ()
  | some (u, base, st) => s.appendCheck (s.physOf c) l.ctx u base (wbits st.w3 0 24) m ch.dstFmt

/-- The first page of an append whose header is lost. -/
def State.kvLost (s : State) (c : Nat) (l : Launch) (kv : Option (KvUse × Nat × Stage)) (m : Nat) : Option Nat :=
  kv.bind fun e => s.appendLost (s.physOf c) l.ctx e.1 e.2.1 (wbits e.2.2.w3 0 24) m

def optCode {α : Type} (o : Option α) (code : Code) : Except Code α := match o with | some a => .ok a | none => .error code

/-- Build an MMA from what was latched; none when it is a no-op (05 R156, R159). -/
def buildMma (core : Core) (c : Nat) (prob : Word) (d : Mat) (nest : Nest) (ch : Chain) (o : Offs) (sh : Shape) (m n k : Nat) : Option Mma :=
  match nest.range c m with
  | none => none
  | some (lo, hi) =>
    if m = 0 ∨ n = 0 ∨ k = 0 ∨ lo ≥ hi then none
    else
      let share := nest.share sh.mMax
      some { d := d, n := nest, ch := ch, o := o,
             env := { ost := core.ost, line := core.elemLine, aux := o.aux, g := if d.flow = 1 then o.b else o.a },
             lo := lo, hi := hi, m := m, nx := n, k := k, blocks := nest.visit d.flow lo hi n k ch.retain,
             demand := nest.demand d.flow share sh.nMax sh.kMax ch.retain,
             ln := (nest.live d.flow share sh.nMax sh.kMax ch.retain).2, prob := prob.toNat % 65536 }

/-- The tag of every destination tile fits an accumulate-mode operation (03 R72). -/
def Mma.tagsOk (x : Mma) (core : Core) : Bool :=
  !x.d.accumulate || (x.used.filter (· < 8)).all fun t => core.accIsI32 t == x.isInt

/-- The tags of step 3 of R166: the destination tiles are those at the extents, where these are legal, else at the planned maxima; a
no-op has none (DESIGN CHOICE, entry 35). -/
def latchTags (core : Core) (c : Nat) (prob : Word) (d : Mat) (nest : Nest) (ch : Chain) (sh : Shape) (e : Except Code (Nat × Nat × Nat)) : Chk :=
  let x := match e with
    | .ok (m, n, k) => buildMma core c prob d nest ch {} sh m n k
    | .error _ => buildMma core c prob d nest ch {} sh sh.mMax sh.nMax sh.kMax
  need (x.all fun x => x.tagsOk core) eAccType

/-- The checks of R166 up to the extents: what they read, or the code of the first that fails. The coverage of R154 is step 2's, after
its E_DESC (DESIGN CHOICE, entry 35). The element programs of the chain are read anew at every begin, in R127's case too (entry 35). -/
def State.latchMma (s : State) (l : Launch) (c line : Nat) (prob : Word) (m n k : Option Word) :
    Except Code (Mat × Nest × Chain × Offs × Shape × Nat × Nat × Nat) := do
  let core := s.core c
  let ws ← optCode (core.latch line 1) eDesc
  let d ← optCode (parseMat ws) eDesc
  let nws ← optCode (core.latch d.nest 2) eDesc
  let nest ← optCode (parseNest nws) eDesc
  let ch ← optCode (core.latchChain d.chain) eDesc
  core.offOk d.ob prob
  need (nest.flowOk d.flow && (!ch.retain || nest.retainOk) && ch.useOk .mma && ch.elemsOk core.elemLine && core.armOk ch) eDesc
  need (nest.range c 1).isSome eDesc
  let sh ← optCode (s.shape l c line) eManifest
  need (nest.tkOk sh.kMax) eDesc
  need (nest.covers 0 sh.mMax && nest.covers 1 sh.nMax && nest.covers 2 sh.kMax) eManifest
  d.formats (if ch.pro.isEmpty then none else some ch.proFmt)
  ch.formats (some (if d.flow = 1 then d.fmtB else d.fmtA))
  latchTags core c prob d nest ch sh (core.offEntry d.ob prob >>= fun o => extents sh o m n k)
  let o ← core.offEntry d.ob prob
  let e ← extents sh o m n k
  .ok (d, nest, ch, o, sh, e)

/-- Steps 8 and 9 of R166, the overlap of 06 R188 and the KV checks. -/
def State.mmaChecks (s : State) (l : Launch) (c : Nat) (x : Mma) (sh : Shape) : Except Code (Option (KvUse × Nat × Stage)) := do
  need x.bounds eLocalBound
  need (decide (x.demand ≤ x.d.accTiles + 1)) eAccCapacity
  x.n.spans x.d.flow (x.n.share sh.mMax) sh.nMax sh.kMax x.ch.newScale
  need (!x.overlap) eChainOverlap
  let kv ← s.kvFor l x.ch x.o.c x.nx
  s.kvCheck c l x.ch kv x.m
  .ok kv

/-- The control word of a chain that converts; a retaining chain converts nothing. -/
def Chain.cvt (c : Chain) : Cvt :=
  match c.convStage with
  | some s => match parseCvt s.w1 with | .ok cv => cv | .error _ => ⟨6, false, .rne, false, 0, false, false, 0⟩
  | none => ⟨6, false, .rne, false, 0, false, false, 0⟩

/-- MMA, begun or gone on with after a halt: its place is the block, and the units of it that are done. -/
def runMma (line : BitVec 10) (prob : Word) (m n k : Option Word) (p : Resume)
    (s : State) (l : Launch) (c : Nat) (ins : Issued) : Began :=
  let info := ins.info c
  let s := if p.at?.isSome then s else s.modCore c fun k => { k with strictN := k.strictN + 1 }
  match s.latchMma l c line.toNat prob m n k with
  | .error e => .error s info e
  | .ok (d, nest, ch, o, sh, em, en, ek) =>
    match buildMma (s.core c) c prob d nest ch o sh em en ek with
    | none => { s := s }
    | some x =>
      -- a resumed MMA has passed its checks
      let checked : Except Code (Option (KvUse × Nat × Stage)) :=
        if p.at?.isSome then s.kvFor l ch o.c en else s.mmaChecks l c x sh
      match checked with
      | .error e => .error s info e
      | .ok kv =>
        match (if p.at?.isNone then s.kvLost c l kv em else none) with
        | some b => .lost s b
        | none =>
        let s := if p.at?.isSome || d.accumulate then s
          else s.modCore c fun core => x.used.foldl (fun (k : Core) t => k.tagAcc t x.isInt) core
        let v : Conv := { c := c, phys := s.physOf c, ctx := l.ctx, seed := l.seed, mode := l.nanMode, info := info, chain := ch,
                          env := x.env, cv := ch.cvt, kv := kv, arm := (s.core c).armSeq ch }
        let start := (p.at?.map (·.1)).getD 0
        let todo := (x.blocks.zip (List.range x.blocks.length)).drop start
        let r := x.run l v p.at?.isSome ((p.at?.map (·.2)).getD 0) todo (p.work s)
        r.1.began r.2

/-! ### EPI (04 R109, 06 R181) -/

/-- The checks of an EPI. -/
def State.latchEpi (s : State) (c line : Nat) (accTiles : BitVec 3) : Except Code Chain := do
  let core := s.core c
  let ch ← optCode (core.latchChain line) eDesc
  need (ch.useOk .epi && ch.elemsOk core.elemLine && core.armOk ch) eDesc
  need (decide (ceilDiv ch.blkM 128 * ceilDiv ch.blkN 128 ≤ accTiles.toNat + 1)) eDesc
  ch.formats none
  .ok ch

def runEpi (line : BitVec 10) (off : Word) (accBase accTiles : BitVec 3) (p : Resume)
    (s : State) (l : Launch) (c : Nat) (ins : Issued) : Began :=
  let info := ins.info c
  let core := s.core c
  match s.latchEpi c line.toNat accTiles with
  | .error e => .error s info e
  | .ok ch =>
    let w := fmtBytes ch.dstFmt
    let dst (m n : Nat) : Int := (ch.dst.toNat : Int) + (off.toNat : Int) + (m * ch.pitch + n * w : Nat)
    let rows := if ch.space = 1 then rowsAt (dst 0 0) ch.blkM ch.pitch (ch.blkN * w) else []
    let bounds := (rows ++ ch.epiRows 0 0 ch.blkM ch.blkN ++ ch.nsRows 0 0 ch.blkM ch.blkN ++
      (ch.resids.map fun st => st.residRows 0 0 ch.blkM ch.blkN).flatten).all rangeOk
    let cells := ((List.range ch.blkM).map fun i => (List.range ch.blkN).map fun j => (i, j)).flatten
    let checked : Except Code (Option (KvUse × Nat × Stage)) := do
      let kv ← s.kvFor l ch off.toNat ch.blkN
      if p.at?.isSome then .ok kv
      else
        need bounds eLocalBound
        need (!ch.overlaps 0 0 ch.blkM ch.blkN [] rows dst cells) eChainOverlap
        s.kvCheck c l ch kv ch.blkM
        .ok kv
    match checked with
    | .error e => .error s info e
    | .ok kv =>
      match (if p.at?.isNone then s.kvLost c l kv ch.blkM else none) with
      | some b => .lost s b
      | none =>
      let place := (accBase.toNat, ceilDiv ch.blkN 128, 0, 0)
      let v : Conv := { c := c, phys := s.physOf c, ctx := l.ctx, seed := l.seed, mode := l.nanMode, info := info, chain := ch,
                        env := { ost := core.ost, line := core.elemLine, aux := 0, g := 0 }, cv := ch.cvt, kv := kv,
                        arm := core.armSeq ch }
      let b : CBlock := { rows := ch.blkM, cols := ch.blkN, m0 := 0, n0 := 0, mExt := ch.blkM, nExt := ch.blkN,
                          val := fun r cc => let p := accPlace place r cc; core.accVal p.1 p.2,
                          dst := fun m n => dst m.toNat n.toNat, loops := fun _ _ => [] }
      let w := v.block b ((p.at?.map (·.2)).getD 0) (p.work s)
      w.began 0

end Sys2Proof.Machine
end

