-- ==== Sys2Proof/Machine/Attn.lean ====
section
/-!
DEFINITION. ATTN: block attention over paged or dense KV (09 R251-R271).
-/

namespace Sys2Proof.Machine

/-! ### The descriptor (09 R253, R254) -/

structure AttnDesc where
  fmtQ : Nat
  fmtK : Nat
  fmtV : Nat
  pfmt : Nat
  g : Nat
  causal : Bool
  sparse : Bool
  dense : Bool
  append : Bool
  eng : Nat
  accBase : Nat
  accTiles : Nat
  tStat : BitVec 6
  pageLog : Nat
  hKv : Nat
  chain : Nat
  ob : Nat
  scale : Word
  baseQ : Nat
  qPitch : Nat
  qHpitch : Nat
  kvBuf : Nat
  pBuf : Nat
  kvVa : Dword
  vVa : Dword
  kvPitch : Nat
  window : Nat
  nGlobal : Nat
  globOff : Nat
  oPitch : Nat
  oHpitch : Nat
  appK : Nat
  appV : Nat
  deriving DecidableEq, Repr

def parseAttn (ws : List Word) : Option AttnDesc :=
  let w0 := wAt ws 0
  let w1 := wAt ws 1
  let w2 := wAt ws 2
  let w14 := wAt ws 14
  let o22 (i : Nat) : Nat := wbits (wAt ws i) 0 22
  let top (i : Nat) : Bool := wbits (wAt ws i) 22 10 == 0
  let d : AttnDesc :=
    { fmtQ := wbits w0 12 4, fmtK := wbits w0 8 4, fmtV := wbits w0 4 4, pfmt := wbits w0 0 4, g := wbits w1 26 6 + 1,
      causal := wbits w1 24 2 == 1, sparse := bit1 w1 23, dense := bit1 w1 22, append := bit1 w1 21, eng := wbits w1 19 2,
      accBase := wbits w1 16 3, accTiles := wbits w1 13 3, tStat := .ofNat 6 (wbits w1 7 6), pageLog := wbits w1 4 3,
      hKv := wbits w1 0 4, chain := wbits w2 22 10, ob := wbits w2 12 10, scale := wAt ws 3, baseQ := o22 4,
      qPitch := (wAt ws 5).toNat, qHpitch := (wAt ws 6).toNat, kvBuf := o22 7, pBuf := o22 8, kvVa := dAt ws 9, vVa := dAt ws 11,
      kvPitch := (wAt ws 13).toNat, window := wbits w14 16 16, nGlobal := wbits w14 9 7, globOff := o22 15,
      oPitch := (wAt ws 16).toNat, oHpitch := (wAt ws 17).toNat, appK := o22 18, appV := o22 19 }
  if wbits w0 28 4 = 4 ∧ wbits w0 16 12 = 2 ∧ wbits w1 24 2 < 2 ∧ (d.sparse = true → d.causal = true) ∧
      (d.append = true → d.dense = false ∧ d.causal = true) ∧ d.accBase + d.accTiles ≤ 7 ∧ d.pageLog ≤ 4 ∧
      (d.dense = true → d.pageLog = 0 ∧ d.hKv = 0) ∧ d.chain ≠ 0 ∧ wbits w2 0 12 = 0 ∧ top 4 = true ∧ top 7 = true ∧ top 8 = true ∧
      top 15 = true ∧ top 18 = true ∧ top 19 = true ∧ d.qPitch % 64 = 0 ∧ d.qHpitch % 64 = 0 ∧ d.kvBuf % 64 = 0 ∧ d.pBuf % 64 = 0 ∧
      (d.dense = false → d.vVa = 0 ∧ d.kvPitch = 0) ∧ d.kvPitch % 64 = 0 ∧ (d.sparse = true ↔ d.window ≠ 0) ∧ d.nGlobal ≤ 64 ∧
      (d.sparse = false → d.nGlobal = 0) ∧ wbits w14 0 9 = 0 ∧ d.oPitch % 64 = 0 ∧ d.oHpitch % 64 = 0 ∧
      (d.append = false → d.appK = 0 ∧ d.appV = 0) ∧ (ws.drop 20).all (· == 0) = true then some d
  else none

/-- Formats (09 R254). -/
def AttnDesc.formats (d : AttnDesc) : Chk := do
  let fs := [d.fmtQ, d.fmtK, d.fmtV, d.pfmt]
  need (fs.all fun f => decide (f < 8)) eFmtReserved
  need (fs.all fun f => f == 0 || f == 1 || f == 3 || f == 4) eFmtIllegal
  need (d.dense || d.fmtK == d.fmtV) eFmtIllegal

/-- Tiles for S, and as many for O (09 R262). -/
def AttnDesc.sTiles (d : AttnDesc) (mMax : Nat) : Nat := ceilDiv (d.g * mMax) 128

/-! ### Ranges at planned maxima (09 R263) -/

def AttnDesc.headRows (d : AttnDesc) (base : Int) (m hp p len : Nat) : List OstRange :=
  ((List.range d.g).map fun g => (List.range m).map fun t => (ostAddr (base + (g * hp + t * p : Nat)), len)).flatten

structure AttnRanges where
  q : List OstRange
  app : List OstRange
  glob : List OstRange
  bufs : List OstRange
  dst : List OstRange
  deriving DecidableEq, Repr

def AttnDesc.ranges (d : AttnDesc) (ch : Chain) (o : Offs) (m k : Nat) : AttnRanges :=
  let app (b w : Nat) : List OstRange := (List.range m).map fun t => (ostAddr ((b : Int) + o.a + (t * d.qPitch : Nat)), k * w)
  { q := d.headRows ((d.baseQ : Int) + o.a) m d.qHpitch d.qPitch (k * fmtBytes d.fmtQ),
    app := if d.append then app d.appK (fmtBytes d.fmtK) ++ app d.appV (fmtBytes d.fmtV) else [],
    glob := if d.nGlobal = 0 then [] else [(ostAddr ((d.globOff : Int) + o.aux), 4 * d.nGlobal)],
    bufs := [(d.kvBuf, 131072), (d.pBuf, 262144)],
    dst := if ch.space = 1 then d.headRows ((ch.dst.toNat : Int) + o.c) m d.oHpitch d.oPitch (k * fmtBytes ch.dstFmt) else [] }

/-- Overlaps of R263 and of 06 R188; `dstOf` gives the destination of element (r, n). -/
def AttnDesc.overlaps (d : AttnDesc) (ch : Chain) (o : Offs) (m k : Nat) (dstOf : Nat → Nat → Int) : Bool :=
  let r := d.ranges ch o m k
  let rows := d.g * m
  anyMeet r.bufs (r.q ++ r.app ++ r.dst) ||
    ch.overlaps o.aux 0 rows k (r.q ++ r.app ++ r.glob) r.dst dstOf
      (((List.range rows).map fun i => (List.range k).map fun j => (i, j)).flatten)

/-! ### An ATTN that has passed its checks -/

structure Attn where
  d : AttnDesc
  ch : Chain
  o : Offs
  m : Nat
  n : Nat
  k : Nat
  s : Nat
  kva : Nat
  vva : Nat
  kv : Option KvUse
  glob : List Nat
  deriving DecidableEq, Repr

def Attn.rows (x : Attn) : Nat := x.d.g * x.m
def Attn.o0 (x : Attn) : Nat := x.d.accBase + x.s
def Attn.blocks (x : Attn) : Nat := ceilDiv x.n 128

/-- Destination of element (r, n), r = g M + t (09 R255). -/
def attnDst (d : AttnDesc) (ch : Chain) (o : Offs) (m : Nat) (r n : Nat) : Int :=
  (ch.dst.toNat : Int) + o.c + (r % m * d.oPitch + r / m * d.oHpitch + n * fmtBytes ch.dstFmt : Nat)

/-- Key token n is visible to query position t (09 R252, R268). -/
def Attn.sees (x : Attn) (t n : Nat) : Bool :=
  let q := x.n - x.m + t
  decide (n < x.n) && (!x.d.causal || decide (n ≤ q)) &&
    (!x.d.sparse || (let p := q / 16; let kp := n / 16; (decide (p < kp + x.d.window) && decide (kp ≤ p)) || x.glob.contains kp))

/-- Block j is visited: some position of it is visible (09 R270). -/
def Attn.visits (x : Attn) (j : Nat) : Bool :=
  (List.range x.m).any fun t => (List.range 128).any fun i => x.sees t (128 * j + i)

def Attn.visited (x : Attn) : List Nat := (List.range x.blocks).filter x.visits

/-! ### The append (09 R265) -/

/-- Append the K and V rows of query token t; the marks of its slot are set only by head H - 1. -/
def Attn.appendToken (x : Attn) (c : Nat) (phys : Option Nat) (ctx : BitVec 8) (u : KvUse) (w : Work) (t : Nat) : Work :=
  match w.fail with
  | some _ => w
  | none =>
    let tok := x.n - x.m + t
    let wb := fmtBytes x.d.fmtK
    let core := w.s.core c
    let part (w : Work) (p base : Nat) : Work :=
      (List.range x.k).foldl (fun (w : Work) e =>
        match w.fail with
        | some _ => w
        | none =>
          let bits := elemWord (core.ostRead (ostAddr ((base : Int) + x.o.a + (t * x.d.qPitch + e * wb : Nat))) wb)
          let r := w.s.kvPut phys ctx u x.kva tok p (x.d.hKv * u.dim + e) x.d.fmtK bits
          match r.2.2 with
          | some f => { w with s := r.1, fail := some f }
          | none => { w with s := r.1, marks := if x.d.hKv + 1 = u.heads && e + 1 == x.k then addMark w.marks u.q r.2.1 ctx (x.kva + tok / 16 * u.r.page) p (tok % 16) else w.marks }) w
    let w := part (part w 0 x.d.appK) 1 x.d.appV
    if w.fail.isSome then w else { w with n := w.n + 1 }

/-! ### The fetch (09 R264) -/

/-- A block's K and V: for each token below N its elements' words. -/
abbrev KvBlock := List (List Word) × List (List Word)

def splitWords (w : Nat) (bs : List Byte) (n : Nat) : List Word := (List.range n).map fun i => elemWord ((bs.drop (w * i)).take w)

/-- A code that a fetch or its access ends with. -/
inductive FetchEnd where
  | fail (e : XFail)
  /-- a page's header is lost -/
  | owned (burst : Nat)
  | code (c : Code)
  deriving DecidableEq, Repr

/-- The checks of one page, then its K and V bytes of this head: (tokens, K bytes, V bytes). -/
def Attn.fetchPage (x : Attn) (s : State) (phys : Option Nat) (ctx : BitVec 8) (u : KvUse) (i : Nat) : Except FetchEnd (Nat × List Byte × List Byte) :=
  let va := x.kva + i * u.r.page
  match s.translate phys ctx va false with
  | .ok pa lg _ =>
    let base := pa / 2 ^ lg * 2 ^ lg
    match s.pageAt u.r base with
    | none => .error (.fail { code := eXltFault, cause := 4, va := va })
    | some p =>
      let h := s.khdr u.q.val p
      let toks := min 16 (x.n - 16 * i)
      let must := if x.d.append then min 16 (x.n - x.m - 16 * i) else toks
      let w := fmtBytes x.d.fmtK
      let len := toks * u.dim * w
      let at0 := u.offset 0 (x.d.hKv * u.dim) 0 w
      let at1 := u.offset 1 (x.d.hKv * u.dim) 0 w
      -- a detection takes precedence over a stop from the same page (R271)
      match (s.hbm.poisonIn (base + at0) len).or (s.hbm.poisonIn (base + at1) len) with
      | some b => .error (.fail { code := eHbmDetect, cause := 2, va := va + (b * 32 - base), pa := b * 32 })
      | none =>
        match s.hdrLost u.q.val p with
        | some b => .error (.owned b)
        | none =>
        if s.held (base + at0) len || s.held (base + at1) len then .error (.fail (heldFail va base))
        else if h.fmt.toNat ≠ x.d.fmtK then .error (.code eFmtMismatch)
        else if h.fill.toNat < must then .error (.code eKvUnfilled)
        else .ok (toks, s.hbm.read (base + at0) len, s.hbm.read (base + at1) len)
  | w => .error (.fail (walkFail va w))

def Attn.fetchPages (x : Attn) (s : State) (phys : Option Nat) (ctx : BitVec 8) (u : KvUse) : List Nat → Except FetchEnd (List Byte × List Byte)
  | [] => .ok ([], [])
  | i :: t =>
    match x.fetchPage s phys ctx u i with
    | .error e => .error e
    | .ok (_, kb, vb) =>
      match x.fetchPages s phys ctx u t with
      | .error e => .error e
      | .ok (k2, v2) => .ok (kb ++ k2, vb ++ v2)

def Attn.fetchDense (x : Attn) (s : State) (phys : Option Nat) (ctx : BitVec 8) : List Nat → Except FetchEnd (List Byte × List Byte)
  | [] => .ok ([], [])
  | n :: t =>
    let at64 (v : Nat) : Nat := v % 18446744073709551616
    match s.vread phys ctx (at64 (x.kva + n * x.d.kvPitch)) (x.k * fmtBytes x.d.fmtK),
          s.vread phys ctx (at64 (x.vva + n * x.d.kvPitch)) (x.k * fmtBytes x.d.fmtV), x.fetchDense s phys ctx t with
    | .ok kb, .ok vb, .ok (k2, v2) => .ok (kb ++ k2, vb ++ v2)
    | .error e, _, _ => .error (.fail e)
    | _, .error e, _ => .error (.fail e)
    | _, _, .error e => .error e

/-- Elements a token takes in the fetched bytes: the pool's dimension, or K when dense. -/
def Attn.pitch (x : Attn) : Nat := match x.kv with | some u => u.dim | none => x.k

/-- Fetch block j: the bytes of K and of V, in token order. -/
def Attn.fetch (x : Attn) (s : State) (phys : Option Nat) (ctx : BitVec 8) (j : Nat) : Except FetchEnd (List Byte × List Byte) :=
  match x.kv with
  | some u => x.fetchPages s phys ctx u ((List.range (min 8 (ceilDiv x.n 16 - 8 * j))).map (8 * j + ·))
  | none => x.fetchDense s phys ctx ((List.range (min 128 (x.n - 128 * j))).map (128 * j + ·))

/-- The words of the tokens in fetched bytes. -/
def Attn.tokens (x : Attn) (fmt : Nat) (bs : List Byte) : List (List Word) :=
  let w := fmtBytes fmt
  (List.range (bs.length / (x.pitch * w))).map fun i => splitWords w (bs.drop (i * x.pitch * w)) x.k

/-! ### One row of one block (09 R256, R257) -/

/-- What the rows of a block work on. -/
structure RowSt where
  acc : Sparse Word
  stat : Sparse Word
  ost : Sparse Byte
  flags : Flags
  trap : Trap

/-- The 128-position reduction of R257. -/
def tree128 {α : Type} (d : α) (op : α → α → α) (v : List α) : α :=
  let g (q : Nat) : α := tree32 d op ((v.drop (32 * q)).take 32)
  op (op (g 0) (g 1)) (op (g 2) (g 3))

/-- A rounded F32 operation: word, flags, and whether it produced a NaN. -/
def rneOp (v : XR) (nanIn : Bool) : Word × Flags × Bool :=
  let r := rneF32 true v
  let produced := v.isNan && !nanIn
  (r.bits, r.cvtFlags ||| flagIf produced fInvalid, produced)

def subOp (a b : Word) : Word × Flags × Bool := rneOp ((f32 a).add (f32 b).neg) (isNan32 a || isNan32 b)
def mulOp (a b : Word) : Word × Flags × Bool := rneOp ((f32 a).mul (f32 b)) (isNan32 a || isNan32 b)
def fmaOp (a b c : Word) : Word × Flags × Bool := rneOp (((f32 a).mul (f32 b)).add (f32 c)) (isNan32 a || isNan32 b || isNan32 c)
def maxOp (a b : Word) : Word := (rneF32 true ((f32 a).max (f32 b))).bits

def negInf : Word := 0xFF800000
def oneF : Word := 0x3F800000

/-- NaNs read from Q, K and V by row r (09 R271). -/
def Attn.operandNans (x : Attn) (r j : Nat) (q : List Word) (ks vs : List (List Word)) (vis : List Nat) : List NanNote :=
  let fq := (floatFmt x.d.fmtQ).getD fmtF32
  let fk := (floatFmt x.d.fmtK).getD fmtF32
  let fv := (floatFmt x.d.fmtV).getD fmtF32
  let dims := List.range x.k
  (if vis.isEmpty then [] else dims.filterMap fun e => if (decodeF fq (q.getD e 0)).isNan then some ⟨false, x.d.fmtQ, 1, r, e⟩ else none) ++
    (vis.map fun n =>
      (if (ks.getD n []).any fun w => (decodeF fk w).isNan then [⟨false, x.d.fmtK, 2, r, 128 * j + n⟩] else []) ++
        dims.filterMap fun e => if (decodeF fv ((vs.getD n []).getD e 0)).isNan then some ⟨false, x.d.fmtV, 2, r, e⟩ else none).flatten

/-- Work row r of block j. `half` is the P half that the block uses (09 R263). -/
def Attn.row (x : Attn) (mode : BitVec 2) (info : StopInfo) (j half : Nat) (ks vs : List (List Word)) (st : RowSt) (r : Nat) : RowSt :=
  let fq := (floatFmt x.d.fmtQ).getD fmtF32
  let fk := (floatFmt x.d.fmtK).getD fmtF32
  let fv := (floatFmt x.d.fmtV).getD fmtF32
  let fp := (floatFmt x.d.pfmt).getD fmtF32
  let wq := fmtBytes x.d.fmtQ
  let dims := List.range x.k
  let q := dims.map fun e => elemWord (sread 0 st.ost (ostAddr ((x.d.baseQ : Int) + x.o.a + (r / x.m * x.d.qHpitch + r % x.m * x.d.qPitch + e * wq : Nat))) wq)
  let vis := (List.range 128).filter fun n => x.sees (r % x.m) (128 * j + n)
  let produced (col : Nat) (b : Bool) : List NanNote := if b then [⟨true, 6, 0, r, col⟩] else []
  -- scores of the visible positions
  let ss := vis.map fun n =>
    let p := passSum (dims.map fun e => mkProd fq (q.getD e 0) fk ((ks.getD n []).getD e 0))
    let a := accumulateF negZero p.1
    let y := mulOp a.1 x.d.scale
    (n, a.1, y.1, flagIf p.2 fInvalid ||| a.2.1 ||| y.2.1, produced (128 * j + n) p.2 ++ produced (128 * j + n) y.2.2)
  let xs := (List.range 128).map fun n => match ss.find? fun e => e.1 == n with | some e => e.2.2.1 | none => negInf
  let acc := ss.foldl (fun a e => sset 0 a (accKey (x.d.accBase + r / 128) (r % 128) e.1) e.2.1) st.acc
  -- statistics
  let m0 := sget 0 st.stat r
  let mNew := maxOp m0 (tree128 negInf maxOp xs)
  let none? := mNew == negInf
  let d0 := subOp m0 mNew
  let al := if none? then (oneF, 0, false) else (let e := opExp2 d0.1; (e.1, d0.2.1 ||| e.2, d0.2.2))
  let ps := (List.range 128).map fun n =>
    if none? then ((0 : Word), (0 : Flags), false)
    else let s1 := subOp (xs.getD n 0) mNew; let e := opExp2 s1.1; (e.1, s1.2.1 ||| e.2, s1.2.2)
  let pq := ps.map fun p => roundFloat' x.d.pfmt p.1
  let pw := pq.map fun p => (rneF32 true (decodeF fp p.1)).bits
  let sum := tree128 ((0 : Word), (0 : Flags), false) (redSum false) (pw.map fun w => (w, 0, false))
  let l := fmaOp (sget 0 st.stat (512 + r)) al.1 sum.1
  -- the output
  let key (e : Nat) : Nat := accKey (x.o0 + r / 128) (r % 128) e
  let os := dims.map fun e =>
    let o0 := sget 0 acc (key e)
    let sc := if al.1 = oneF then (o0, 0, false) else mulOp o0 al.1
    let p := passSum (vis.map fun n => mkProd fp (pq.getD n (0, 0)).1 fv ((vs.getD n []).getD e 0))
    let a := accumulateF sc.1 p.1
    (e, a.1, sc.2.1 ||| flagIf p.2 fInvalid ||| a.2.1, produced e (sc.2.2 || p.2 || a.2.2))
  let acc := os.foldl (fun a o => sset 0 a (key o.1) o.2.1) acc
  let flags := ss.foldl (fun f e => f ||| e.2.2.2.1) st.flags ||| al.2.1 ||| ps.foldl (fun f p => f ||| p.2.1) 0 |||
    pq.foldl (fun f p => f ||| p.2) 0 ||| sum.2.1 ||| l.2.1 ||| os.foldl (fun f o => f ||| o.2.2.1) 0
  let notes := x.operandNans r j q ks vs vis ++ (ss.map fun e => e.2.2.2.2).flatten ++ produced (128 * j) (al.2.2 || l.2.2 || sum.2.2) ++
    ((ps.zip (List.range 128)).map fun p => produced (128 * j + p.2) p.1.2.2).flatten ++ (os.map fun o => o.2.2.2).flatten
  let wp := fmtBytes x.d.pfmt
  { acc := acc, stat := sset 0 (sset 0 st.stat r mNew) (512 + r) l.1,
    ost := swrite 0 st.ost (ostAddr ((x.d.pBuf + half * 131072 + r * 128 * wp : Nat) : Int)) (pq.map fun p => leBytes wp p.1.toNat).flatten,
    flags := flags, trap := st.trap.notes mode info [j] notes }
where
  /-- P in pfmt, RNE and SAT. -/
  roundFloat' (pfmt : Nat) (p : Word) : Word × Flags :=
    let r := roundTo pfmt false false .rne (f32 p)
    (r.bits, r.cvtFlags)

/-! ### Blocks -/

/-- Phases in `haltedAt`: the append, the output chain, and the fetch of block j. -/
def phAppend : Nat := 0
def phChain : Nat := 1
def phBlock (j : Nat) : Nat := 2 + j

/-- Start of the statistics, of O and of the tile tags: m = -Inf, l = +0, O = -0 (09 R258, R260; 03 R87). -/
def Attn.init (x : Attn) (k : Core) : Core :=
  let rows := List.range x.rows
  let k := k.setTile x.d.tStat ((List.range 1024).map fun i => if i < x.rows then negInf else 0) false
  let acc := rows.foldl (fun a r => (List.range x.k).foldl (fun a e => sset 0 a (accKey (x.o0 + r / 128) (r % 128) e) negZero) a) k.acc
  (List.range (2 * x.s)).foldl (fun (k : Core) t => k.tagAcc (x.d.accBase + t) false) { k with acc := acc }

/-- Count blocks visited and skipped (09 R279), the array's cycles (03 R98) and the groups of the statistics (09 R267, entry 43). -/
def State.countBlock (s : State) (c : Nat) (visited : Bool) (rows : Nat) : State :=
  s.countOn c fun p =>
    if visited then { p with attnVisited := satInc p.attnVisited, mxuBusy := p.mxuBusy + .ofNat 32 (2 * rows), mxuStall := p.mxuStall + 256,
                             vecBusy := p.vecBusy + .ofNat 32 (3 * ceilDiv rows 2) }
    else { p with attnSkipped := satInc p.attnSkipped }

/-- Blocks under way: the work, and a code that stops the instruction. -/
structure AttnWork where
  w : Work
  stop : Option Code := none
  /-- the block at which the fetch failed; none when the instruction restarts -/
  at? : Option Nat := none
  /-- a page's header was lost -/
  lost : Option Nat := none

/-- Work block j, unless an earlier one has ended the instruction. -/
def Attn.block (x : Attn) (c : Nat) (phys : Option Nat) (l : Launch) (info : StopInfo) (a : AttnWork) (j : Nat) : AttnWork :=
  if a.w.fail.isSome || a.stop.isSome || a.lost.isSome then a
  else if !x.visits j then { a with w := { a.w with s := a.w.s.countBlock c false x.rows } }
  else
    match x.fetch a.w.s phys l.ctx j with
    -- the replay of a detection restarts the whole ATTN; other fetches go on at their block (R271)
    | .error (.fail e) => { a with w := { a.w with fail := some e }, at? := if e.code = eHbmDetect then none else some j }
    | .error (.owned b) => { a with lost := some b }
    | .error (.code e) => { a with stop := some e }
    | .ok (kb, vb) =>
      let half := (x.visited.takeWhile (· < j)).length % 2
      let k := a.w.s.core c
      let k := (k.ostWrite (x.d.kvBuf + half * 32768) kb).ostWrite (x.d.kvBuf + 65536 + half * 32768) vb
      let ks := x.tokens x.d.fmtK kb
      let vs := x.tokens x.d.fmtV vb
      let stat := (List.range 1024).foldl (fun (t : Sparse Word) i => sset 0 t i (k.tileAt x.d.tStat.toNat (i / 32) (i % 32))) []
      let r := (List.range x.rows).foldl (x.row l.nanMode info j half ks vs)
        { acc := k.acc, stat := stat, ost := k.ost, flags := a.w.flags, trap := a.w.trap }
      let marks := markGranules k.serials x.d.pBuf 262144 0
      let k := ({ k with acc := r.acc, ost := r.ost, serials := marks } : Core).setTile x.d.tStat (sread 0 r.stat 0 1024) false
      { a with w := { a.w with s := (a.w.s.setCore c k).countBlock c true x.rows, flags := r.flags, trap := r.trap } }

/-- Every position of row r is masked in every block (09 R258). -/
def Attn.blind (x : Attn) (r : Nat) : Bool :=
  x.visited.all fun j => (List.range 128).all fun i => !x.sees (r % x.m) (128 * j + i)

/-- The value that an output element enters the chain with (09 R258, R259): +0 in a row that sees nothing, whose m is -Inf; a row whose
visible scores are all -Inf is rescaled as any other. -/
def Attn.x0 (x : Attn) (k : Core) (r e : Nat) : Word × Flags × Bool :=
  let m := k.tileAt x.d.tStat.toNat (r / 32) (r % 32)
  if m = negInf ∧ x.blind r = true then (0, 0, false)
  else
    let lam := opRcp (k.tileAt x.d.tStat.toNat (16 + r / 32) (r % 32))
    let y := mulOp (sget 0 k.acc (accKey (x.o0 + r / 128) (r % 128) e)) lam.1
    (y.1, lam.2 ||| y.2.1, y.2.2)

/-! ### The instruction -/

/-- The checks of R166 and R263 up to the zero extent. -/
def State.latchAttn (s : State) (l : Launch) (c line : Nat) (prob : Word) (m n k : Option Word) :
    Except Code (AttnDesc × Chain × Offs × Shape × Nat × Nat × Nat) := do
  let core := s.core c
  let ws ← optCode (core.latch line 2) eDesc
  let d ← optCode (parseAttn ws) eDesc
  let ch ← optCode (core.latchChain d.chain) eDesc
  core.offOk d.ob prob
  need (ch.useOk .attn && ch.elemsOk core.elemLine) eDesc
  let sh ← optCode (s.shape l c line) eManifest
  need (decide (sh.kMax ≤ 128)) eDesc
  d.formats
  ch.formats none
  let o ← core.offEntry d.ob prob
  let e ← extents sh o m n k
  need (!(d.causal && decide (e.1 > e.2.1))) eAttnShape
  .ok (d, ch, o, sh, e)

/-- The global list, ascending (09 R269); entries beyond the last page are ignored. -/
def Core.globals (k : Core) (d : AttnDesc) (o : Offs) (n : Nat) : Except Code (List Nat) :=
  if d.nGlobal = 0 then .ok []
  else
    let l := (splitWords 4 (k.ostRead (ostAddr ((d.globOff : Int) + o.aux)) (4 * d.nGlobal)) d.nGlobal).map (·.toNat)
    if (l.zip (l.drop 1)).all fun e => decide (e.1 < e.2) then .ok (l.filter fun p => decide (p < ceilDiv n 16)) else .error eDesc

/-- The KV layout checks (10 R282); none for dense KV. -/
def State.attnLayout (s : State) (l : Launch) (d : AttnDesc) (kva n k : Nat) : Except Code (Option KvUse) :=
  if d.dense then .ok none
  else match s.kvUse l.ctx kva with
    | none => .error eKvLayout
    | some u =>
      if d.hKv ≥ u.heads ∨ k > u.dim ∨ d.pageLog ≠ u.q.val ∨ u.reaches kva (ceilDiv n 16) = false then .error eKvLayout else .ok (some u)

/-- An array lies within one buffer that the image declares for the core (05 R165 check 12, 09 R263). -/
def holds (bufs : List (Nat × Nat × Nat)) (c : Nat) (rows : List OstRange) : Bool :=
  let rs := rows.filter fun r => r.2 != 0
  rs.isEmpty || bufs.any fun b => b.1 == c && rs.all fun r => decide (b.2.1 ≤ r.1) && decide (r.1 + r.2 ≤ b.2.1 + b.2.2)

/-- The arrays of an ATTN that must each lie within one declared buffer (09 R263). -/
def AttnRanges.arrays (r : AttnRanges) : List (List OstRange) :=
  let half := r.app.length / 2
  [r.q, r.app.take half, r.app.drop half, r.glob] ++ r.bufs.map fun b => [b]

/-- Build an ATTN: the rest of the checks. -/
def State.buildAttn (s : State) (l : Launch) (c : Nat) (first : Bool) (d : AttnDesc) (ch : Chain) (o : Offs) (sh : Shape) (m n k : Nat) :
    Except Code Attn := do
  let core := s.core c
  let r := d.ranges ch o sh.mMax sh.kMax
  let rows := d.g * sh.mMax
  need (!first || r.arrays.all (holds (((s.imageOf l).map (·.bufs)).getD []) c)) eLocalBound
  need (!first || (r.dst ++ ch.epiRows o.aux 0 rows sh.kMax ++ ch.nsRows o.aux 0 rows sh.kMax ++
    (ch.resids.map fun st => st.residRows o.aux 0 rows sh.kMax).flatten).all rangeOk) eLocalBound
  need (decide (2 * d.sTiles sh.mMax ≤ d.accTiles + 1)) eAccCapacity
  need (!first || !d.overlaps ch o sh.mMax sh.kMax (attnDst d ch o sh.mMax)) eChainOverlap
  let glob ← core.globals d o n
  let at64 (v : Int) : Nat := (v % 18446744073709551616).toNat
  let kva := at64 ((d.kvVa.toNat : Int) + o.b)
  let kv ← s.attnLayout l d kva n k
  match kv with
  | some u => if first && d.append then s.appendCheck (s.physOf c) l.ctx u kva (n - m) m d.fmtK else .ok ()
  | none => .ok ()
  .ok { d := d, ch := ch, o := o, m := m, n := n, k := k, s := d.sTiles sh.mMax, kva := kva, vva := at64 ((d.vVa.toNat : Int) + o.b),
        kv := kv, glob := glob }

/-- ATTN, begun or gone on with after a halt. -/
def runAttn (line : BitVec 10) (prob : Word) (m n k : Option Word) (p : Resume)
    (s : State) (l : Launch) (c : Nat) (ins : Issued) : Began :=
  let info := ins.info c
  let s := if p.at?.isSome then s else s.modCore c fun k => { k with strictN := k.strictN + 1 }
  match s.latchAttn l c line.toNat prob m n k with
  | .error e => .error s info e
  | .ok (d, ch, o, sh, em, en, ek) =>
    if em = 0 ∨ en = 0 ∨ ek = 0 then { s := s }
    else
      match s.buildAttn l c p.at?.isNone d ch o sh em en ek with
      | .error e => .error s info e
      | .ok x =>
        let phys := s.physOf c
        match (if p.at?.isNone && d.append then x.kv.bind fun u => s.appendLost phys l.ctx u x.kva (en - em) em else none) with
        | some b => .lost s b
        | none =>
        let phase := (p.at?.map (·.1)).getD phAppend
        let skip := (p.at?.map (·.2)).getD 0
        -- the append
        let w0 : Work := { p.work s with n := skip }
        let w1 := match x.kv with
          | some u => if x.d.append && phase == phAppend
              then ((List.range x.m).drop skip).foldl (x.appendToken c phys l.ctx u) w0 else w0
          | none => w0
        if w1.fail.isSome then w1.began phAppend
        else
          -- the append's mask bits are set before the first fetch (R265)
          let s1 := if phase = phAppend then (w1.s.applyMarks w1.marks).modCore c x.init else w1.s
          let w1 : Work := { w1 with s := s1, marks := [], n := 0 }
          let from? := if phase ≥ 2 then phase - 2 else 0
          let todo := if phase = phChain then [] else (List.range x.blocks).drop from?
          let a := todo.foldl (x.block c phys l info) { w := w1 }
          match a.stop, a.lost with
          | some code, _ => { s := a.w.s, stop := some { info with code := code } }
          | none, some b => .lost a.w.s b
          | none, none =>
            if a.w.fail.isSome then
              (match a.at? with
              | some j => a.w.began (phBlock j)
              | none => { a.w with n := 0, flags := 0, trap := none }.began phAppend)
            else
              -- the output chain (R259): the columns are those of K, a lane beyond them draws nothing (DESIGN CHOICE, entry 36)
              let core := a.w.s.core c
              let last := x.visited.getLastD 0
              let els := ((List.range x.rows).map fun r => (List.range x.k).map fun e => (r, e)).flatten
              let outs := els.map fun e => (e, x.x0 core e.1 e.2)
              let s2 := if phase = phChain then a.w.s else (List.range (ceilDiv x.rows 128)).foldl (fun (s : State) t =>
                s.shadowTile l c info.pc t ((outs.filter fun y => y.1.1 / 128 == t).map (·.2.1))) a.w.s
              let w2 : Work := { a.w with
                s := s2
                flags := outs.foldl (fun f y => f ||| y.2.2.1) a.w.flags,
                trap := a.w.trap.notes l.nanMode info [last] (outs.filterMap fun y => if y.2.2.2 then some ⟨true, 6, 0, y.1.1, y.1.2⟩ else none) }
              let v : Conv := { c := c, phys := phys, ctx := l.ctx, seed := l.seed, mode := l.nanMode, info := info, chain := ch,
                                env := { ost := core.ost, line := core.elemLine, aux := o.aux, g := 0 }, cv := ch.cvt, kv := none, arm := none }
              let b : CBlock := { rows := x.rows, cols := x.k, m0 := 0, n0 := 0, mExt := x.rows, nExt := x.k,
                                  val := fun r e => f32 (x.x0 core r e).1, dst := fun r e => attnDst d ch o em r.toNat e.toNat,
                                  loops := fun _ _ => [last] }
              (v.block b (if phase = phChain then skip else 0) w2).began phChain

end Sys2Proof.Machine
end

