-- ==== Sys2Proof/Machine/Stm.lean ====
section
/-!
DEFINITION. Stream engines and SEXP (08 R239-R248, 11 R321, 13 R397).
-/

namespace Sys2Proof.Machine

/-! ### Stream descriptors (08 R239) -/

/-- Kinds of a stream's ends. -/
inductive SrcKind where
  | ost | mem
  deriving DecidableEq, Repr

inductive DstKind where
  | ost | mem | rmtOst | rmtMem | prefetch
  deriving DecidableEq, Repr

structure StreamDesc where
  src : SrcKind
  dst : DstKind
  fmtS : Nat
  fmtD : Nat
  sig : Option (Fin 16)
  rowBytes : Nat
  rows : Nat
  planes : Nat
  srcAt : Nat
  dstAt : Nat
  sp : Int
  dp : Int
  spp : Int
  dpp : Int
  dev : Nat
  core : Fin 64
  slot : Nat
  startBeat : Word
  deriving DecidableEq, Repr

def StreamDesc.remote (d : StreamDesc) : Bool := d.dst == .rmtOst || d.dst == .rmtMem
def StreamDesc.total (d : StreamDesc) : Nat := d.rowBytes * d.rows * d.planes
/-- Destination bytes for `n` source bytes. -/
def StreamDesc.out (d : StreamDesc) (n : Nat) : Nat := if d.fmtS = d.fmtD then n else n / fmtBytes d.fmtS * fmtBytes d.fmtD

/-- Parse a stream descriptor, or the code that rejects it (08 R239). -/
def parseStream (ws : List Word) : Except Code StreamDesc :=
  let w0 := wAt ws 0
  let w1 := wAt ws 1
  let w3 := wAt ws 3
  let w13 := wAt ws 13
  let st := wbits w0 13 3
  let dt := wbits w0 10 3
  let fs := wbits w0 4 4
  let fd := wbits w0 0 4
  let isF (f : Nat) : Bool := (floatFmt f).isSome
  let d : StreamDesc :=
    { src := if st = 0 then .ost else .mem,
      dst := if dt = 0 then .ost else if dt = 1 then .mem else if dt = 2 then .rmtOst else if dt = 3 then .rmtMem else .prefetch,
      fmtS := fs, fmtD := fd, sig := if bit1 w1 27 then some (.ofNat 16 (wbits w1 23 4)) else none, rowBytes := wbits w3 0 24,
      rows := wbits (wAt ws 4) 16 16, planes := wbits (wAt ws 4) 0 16, srcAt := (dAt ws 5).toNat, dstAt := (dAt ws 7).toNat,
      sp := (wAt ws 9).toInt, dp := (wAt ws 10).toInt, spp := (wAt ws 11).toInt, dpp := (wAt ws 12).toInt, dev := wbits w13 20 12,
      core := .ofNat 64 (wbits w13 14 6), slot := wbits w13 2 12, startBeat := wAt ws 14 }
  if wbits w0 28 4 ≠ 5 ∨ wbits w0 16 12 ≠ 1 ∨ st > 1 ∨ dt > 4 ∨ wbits w0 8 2 = 3 ∨ wbits w1 0 23 ≠ 0 ∨ wbits w3 24 8 ≠ 0 ∨
      d.rowBytes % 64 ≠ 0 ∨ (wAt ws 9).toNat % 64 ≠ 0 ∨ (wAt ws 10).toNat % 64 ≠ 0 ∨ (wAt ws 11).toNat % 64 ≠ 0 ∨
      (wAt ws 12).toNat % 64 ≠ 0 ∨ wbits w13 0 2 ≠ 0 ∨
      (d.remote = false ∧ (w13 ≠ 0 ∨ wAt ws 14 ≠ 0 ∨ wbits w1 23 5 ≠ 0)) ∨ d.total > 0xFFFFFFC0 then .error eDesc
  else if fs ≥ 8 ∨ fd ≥ 8 then .error eFmtReserved
  else if fs ≠ fd ∧ (isF fs = false ∨ isF fd = false ∨ d.dst = .prefetch ∨ d.out d.rowBytes % 64 ≠ 0) then .error eDesc
  else .ok d

/-- Place of a row of a plane. -/
def StreamDesc.srcRow (d : StreamDesc) (z y : Nat) : Int := (d.srcAt : Int) + (z : Int) * d.spp + (y : Int) * d.sp
def StreamDesc.dstRow (d : StreamDesc) (z y : Nat) : Int := (d.dstAt : Int) + (z : Int) * d.dpp + (y : Int) * d.dp

def StreamDesc.rowsOf (d : StreamDesc) : List (Nat × Nat) :=
  ((List.range d.planes).map fun z => (List.range d.rows).map fun y => (z, y)).flatten

/-- A range that is within the operand store (08 R242). -/
def inOst (a : Int) (n : Nat) : Bool := n == 0 || (decide (0 ≤ a) && decide (a + (n : Int) ≤ (ostSize : Int)))

/-- Every operand-store range lies inside the store (08 R242). -/
def StreamDesc.boundsOk (d : StreamDesc) : Bool :=
  d.rowsOf.all fun r =>
    (d.src != .ost || inOst (d.srcRow r.1 r.2) d.rowBytes) && ((d.dst != .ost && d.dst != .rmtOst) || inOst (d.dstRow r.1 r.2) (d.out d.rowBytes))

def StreamDesc.overlaps (d : StreamDesc) : Bool :=
  d.src == .ost && d.dst == .ost &&
    d.rowsOf.any fun a => d.rowsOf.any fun b => rangesMeet (d.srcRow a.1 a.2).toNat d.rowBytes (d.dstRow b.1 b.2).toNat (d.out d.rowBytes)

/-! ### The slot of a remote stream (11 R320, R321) -/

/-- The slot serves this destination. -/
def State.slotOk (s : State) (l : Launch) (slot dev : Nat) : Bool :=
  match s.schedOf l with
  | none => false
  | some x =>
    match x.slots[slot]? with
    | some t => t.used && s.routeEnd x t == some dev
    | none => false

/-! ### SARM (08 R241) -/

/-- A line's stream state; a line that is no stream line has none, so IDLE (04 R124, 08 R240). -/
def Core.streamState (k : Core) (line : BitVec 10) : Nat := if k.streamLines.contains line then wbits (k.dw line.toNat 1) 28 4 else 0
/-- QUEUED, ACTIVE or HALTED. -/
def Core.streamBusy (k : Core) (line : BitVec 10) : Bool := let st := k.streamState line; decide (1 ≤ st ∧ st ≤ 3)

def addLine (ls : List (BitVec 10)) (line : BitVec 10) : List (BitVec 10) := if ls.contains line then ls else ls ++ [line]

/-- Log a stream from memory to the operand store with equal formats (14 R411). -/
def Core.logStream (k : Core) (d : StreamDesc) (ws : List Word) (ctx : BitVec 8) : Core × Option (BitVec 16) :=
  if d.src == .mem && d.dst == .ost && d.fmtS == d.fmtD then
    let e : LogEntry := { serial := k.nextStream, words := (ws.drop 3).take 10, ctx := ctx }
    let log := k.refetch ++ [e]
    ({ k with refetch := log.drop (log.length - 64), nextStream := k.nextStream + 1 }, some k.nextStream)
  else (k, none)

/-- The record of E_REARM_ACTIVE (08 R241). -/
def rearmRecord (l : Launch) (c : Nat) (pc : BitVec 20) : RecInfo :=
  { code := eRearmActive, source := 2, qid := some l.qid, core := some (.ofNat 6 c, pc) }

def runSarm (line : BitVec 10) (eng : Fin 4) (s : State) (l : Launch) (c : Nat) (ins : Issued) : Began :=
  let k := s.core c
  let info := ins.info c
  let ws := k.lineWords line.toNat 16
  if !lineOk line.toNat 1 || wbits (wAt ws 0) 28 4 != 5 then .error s info eDesc
  else if k.streamBusy line then { s := s.log (rearmRecord l c ins.pc), fly := false, mute := true }
  else
    match parseStream ws with
    | .error e => .error s info e
    | .ok d =>
      if d.remote && !s.slotOk l d.slot d.dev then .error s info eSlot
      else if !d.boundsOk then .error s info eLocalBound
      else if d.overlaps then .error s info eStmOverlap
      else
        let lg := k.logStream d ws l.ctx
        let st : Stream := { line := line, serial := ins.serial, words := ws, logNo := lg.2 }
        let k := { lg.1 with streamLines := addLine lg.1.streamLines line, eng := smod [] lg.1.eng eng.val fun q => q ++ [st] }
        let k := ((k.setStreamState line.toNat 1).setDw line.toNat 2 0).setDw line.toNat 15 0
        { s := s.setCore c k }

/-! ### Moving bytes (08 R245-R247) -/

/-- Convert the elements of a piece, RNE and SAT, with no flag (08 R239). -/
def StreamDesc.convert (d : StreamDesc) (bs : List Byte) : List Byte :=
  if d.fmtS = d.fmtD then bs
  else
    let ws := fmtBytes d.fmtS
    ((List.range (bs.length / ws)).map fun i =>
      leBytes (fmtBytes d.fmtD) (roundTo d.fmtD false false .rne (decodeAny d.fmtS false (elemWord ((bs.drop (ws * i)).take ws)))).bits.toNat).flatten

/-- Source and destination of the 64-byte request at byte `p` of the stream. -/
def StreamDesc.request (d : StreamDesc) (p : Nat) : Int × Int :=
  let row := p / d.rowBytes
  let z := row / d.rows
  let y := row % d.rows
  (d.srcRow z y + (p % d.rowBytes : Nat), d.dstRow z y + (d.out (p % d.rowBytes) : Nat))

def at64 (x : Int) : Nat := (x % 18446744073709551616).toNat

/-- One request's source bytes. -/
def StreamDesc.read (d : StreamDesc) (s : State) (c : Nat) (ctx : BitVec 8) (src : Int) : Except XFail (List Byte) :=
  match d.src with
  | .ost => .ok ((s.core c).ostRead src.toNat 64)
  | .mem => s.vread (s.physOf c) ctx (at64 src) 64

/-- Move one request: the state, or the access that fails. -/
def StreamDesc.move (d : StreamDesc) (s : State) (c : Nat) (jobTag : Word) (ctx : BitVec 8) (mark : BitVec 17) (p : Nat) : State × Option XFail :=
  let a := d.request p
  match d.read s c ctx a.1 with
  | .error e => (s, some e)
  | .ok bs =>
    let out := d.convert bs
    match d.dst with
    | .ost => (s.modCore c fun k => k.ostWriteAs a.2.toNat out mark, none)
    | .mem => s.vwrite (s.physOf c) ctx (at64 a.2) out
    | .prefetch => (s, none)
    | .rmtOst | .rmtMem =>
      (s.emit (.remote jobTag d.slot d.dev d.core.val (d.dst == .rmtMem) (.ofNat 64 (at64 a.2)) out (p + 64 == d.total) d.sig (d.out p)), none)

/-- Move the requests from byte `p` on; where it stopped, and why. -/
def StreamDesc.moveAll (d : StreamDesc) (c : Nat) (jobTag : Word) (ctx : BitVec 8) (mark : BitVec 17) : Nat → State → Nat → State × Nat × Option XFail
  | 0, s, p => (s, p, none)
  | fuel + 1, s, p =>
    if p ≥ d.total then (s, p, none)
    else
      let r := d.move s c jobTag ctx mark p
      match r.2 with
      | some e => (r.1, p, some e)
      | none => d.moveAll c jobTag ctx mark fuel r.1 (p + 64)

def Core.engHead (k : Core) (eng : Fin 4) : Option Stream := (sget [] k.eng eng.val).head?
def Core.modEngHead (k : Core) (eng : Fin 4) (f : Stream → Stream) : Core :=
  { k with eng := smod [] k.eng eng.val fun q => match q with | [] => [] | t :: r => f t :: r }

/-- The flight of the SARM that armed a stream. -/
def Core.streamFlight (k : Core) (st : Stream) : Option Flight := k.flight.find? fun f => f.ins.serial == st.serial
def Core.streamPc (k : Core) (st : Stream) : BitVec 20 := ((k.streamFlight st).map (·.ins.pc)).getD 0

/-- A stream halts: its state, code and cause (08 R246). -/
def Core.haltLine (k : Core) (ln : Nat) (e : XFail) : Core := (k.setStreamState ln 3).setDw ln 15 (.ofNat 32 (e.code.toNat * 65536 + e.cause * 256))

/-- Move a stream from byte `from?` on; a failing request halts it (08 R246), one that is held lets it wait (08 R222). -/
def State.runStream (s : State) (l : Launch) (c : Nat) (eng : Fin 4) (st : Stream) (d : StreamDesc) (from? : Nat) : State :=
  let ln := st.line.toNat
  let s := s.modCore c fun k => (k.setStreamState ln 2).modEngHead eng fun t => { t with started := true }
  let mark : BitVec 17 := match st.logNo with | some n => .ofNat 17 (n.toNat + 1) | none => 0
  let r := d.moveAll c l.jobTag l.ctx mark (d.total / 64 + 1) s from?
  -- a remote byte has committed only when the receiver acknowledges it (R245)
  let s := r.1.modCore c fun k => if d.remote then k.modEngHead eng fun t => { t with sent := r.2.1 } else k.setDw ln 2 (.ofNat 32 r.2.1)
  match r.2.2 with
  | none => s
  | some e => if e.isHeld then s else (s.modCore c fun k => k.haltLine ln e).haltOn l e (some (c, (s.core c).streamPc st)) 2 ln

/-- The stream at an engine's head, with its descriptor. -/
def Core.headStream (k : Core) (eng : Fin 4) : Option (Stream × StreamDesc) :=
  match k.engHead eng with
  | some st => match parseStream st.words with | .ok d => some (st, d) | .error _ => none
  | none => none

/-- Every byte has committed: DONE, and the SARM completes (08 R240, R245). True as in `State.seq`. -/
def State.endStream (s : State) (l : Launch) (c : Nat) (eng : Fin 4) (st : Stream) (d : StreamDesc) : State × Bool :=
  let ln := st.line.toNat
  let k := ((s.core c).setStreamState ln 4).setDw ln 2 (.ofNat 32 d.total)
  let s := s.setCore c { k with eng := smod [] k.eng eng.val (·.drop 1) }
  match k.streamFlight st with
  | some f => s.completeFlight l c f
  | none => (s, false)

/-- Begin to move a stream. One of size zero is DONE without a transfer; a remote one still sends its signal (08 R240). -/
def State.beginStream (s : State) (l : Launch) (c : Nat) (eng : Fin 4) (st : Stream) (d : StreamDesc) : State × Bool :=
  if d.total = 0 then
    let s := if d.remote && d.sig.isSome then
        s.emit (.remote l.jobTag d.slot d.dev d.core.val (d.dst == .rmtMem) (.ofNat 64 (at64 d.dstAt)) [] true d.sig 0) else s
    s.endStream l c eng st d
  else (s.runStream l c eng st d 0, true)

/-- Act on the detections that meet a stream's data path, then go on with `go` (14 R404, R408). -/
def State.streamDetect (s : State) (l : Launch) (c : Nat) (eng : Fin 4) (st : Stream) (det : List Detection) (go : State → State × Bool) :
    State × Bool :=
  let info : StopInfo := (((s.core c).streamFlight st).map fun f => f.ins.info c).getD { code := 0, core := some c }
  match s.detect c info (st.det ++ det) with
  | (s, .moved left) => (s.modCore c fun k => k.modEngHead eng fun t => { t with det := left }, true)
  | (s, .stop i fenced) => (s.stopLost l i fenced, true)
  | (s, .go) =>
    if (s.launchOf l.qid).isNone then (s, true) else
    let r := go (s.modCore c fun k => k.modEngHead eng fun t => { t with det := [] })
    (r.1, r.2 || !(st.det ++ det).isEmpty)

/-- A remote stream waits for its launch beat. -/
def State.beforeStart (s : State) (l : Launch) (d : StreamDesc) : Bool := d.remote && decide ((l.beat s.fab.cnt).toNat < d.startBeat.toNat)

/-- An engine starts its next queued stream; a remote one waits for its launch beat (08 R240, R248), one of size zero in QUEUED. -/
def State.startStream (s : State) (c : Nat) (eng : Fin 4) (det : List Detection) : State × Bool :=
  match s.running, (s.core c).headStream eng with
  | some l, some (st, d) =>
    if s.inTakeover c || (s.core c).streamState st.line != 1 then (s, false)
    else if s.beforeStart l d then
      (if d.total = 0 then s else s.modCore c fun k => k.setStreamState st.line.toNat 2, false)
    else s.streamDetect l c eng st det fun s => s.beginStream l c eng st d
  | _, _ => (s, false)

/-- The start beat of a remote stream has begun. -/
def State.startRemote (s : State) (c : Nat) (eng : Fin 4) : State × Bool :=
  match s.running, (s.core c).headStream eng with
  | some l, some (st, d) =>
    if s.inTakeover c || !d.remote || st.started || s.beforeStart l d ||
        (s.core c).streamState st.line != (if d.total = 0 then 1 else 2) then (s, false)
    else s.streamDetect l c eng st [] fun s => s.beginStream l c eng st d
  | _, _ => (s, false)

/-- A replay of a stream's step: its bytes are moved again from the progress that the last boundary recorded (08 R245). -/
def State.replayStream (s : State) (l : Launch) (c : Nat) (eng : Fin 4) (st : Stream) (d : StreamDesc) (det : List Detection) : State :=
  if det.isEmpty then s else s.runStream l c eng st d st.stepStart.toNat

/-- The bytes of a stream have committed, those of a remote one up to byte `acked` of its source: progress, and at the last byte DONE
(08 R245). -/
def State.streamDone (s : State) (c : Nat) (eng : Fin 4) (acked : Nat) (det : List Detection) : State × Bool :=
  match s.running, (s.core c).headStream eng with
  | some l, some (st, d) =>
    let k := s.core c
    let ln := st.line.toNat
    if s.inTakeover c || k.streamState st.line != 2 || !st.started || (!d.remote && (k.dw ln 2).toNat != d.total) then (s, false)
    else if d.remote && decide (acked < d.total) then
      (s.modCore c fun k => k.setDw ln 2 (.ofNat 32 (max (k.dw ln 2).toNat (min acked st.sent / 64 * 64))), false)
    else s.streamDetect l c eng st det fun s =>
      let s := s.replayStream l c eng st d (st.det ++ det)
      if (s.core c).streamState st.line = 2 then s.endStream l c eng st d else (s, true)
  | _, _ => (s, false)

/-- A HALTED stream goes on from its progress (08 R247); one that waited for a held request goes on where it waits (08 R222). -/
def State.resumeStream (s : State) (c : Nat) (eng : Fin 4) : State :=
  match s.running, (s.core c).headStream eng with
  | some l, some (st, d) =>
    let at' := ((s.core c).dw st.line.toNat 2).toNat
    match (s.core c).streamState st.line with
    | 3 => s.runStream l c eng st d at'
    | 2 =>
      let done := if d.remote then st.sent else at'
      if st.started && decide (done < d.total) then s.runStream l c eng st d done else s
    | _ => s
  | _, _ => s

/-- Under a new epoch an ACTIVE remote stream goes on from its last acknowledged byte (11 R333). -/
def State.rewindRemote (s : State) (c : Nat) (eng : Fin 4) : State :=
  match (s.core c).headStream eng with
  | some (st, d) =>
    if d.remote && st.started && (s.core c).streamState st.line == 2 then
      s.modCore c fun k => k.modEngHead eng fun t => { t with sent := (k.dw st.line.toNat 2).toNat }
    else s
  | none => s

/-- Remote bytes of a job commit at this device, which signals after the last byte and then acknowledges (08 R245, R248). They wait under
flow control while the job's launch does not run here. -/
def State.remoteArrival (s : State) (src : BitVec 12) (core : Fin 64) (toMem : Bool) (jobTag : Word) (addr : Dword) (bytes : List Byte) (last : Bool)
    (sig : Option (Fin 16)) : State × Bool :=
  match s.running with
  | none => (s, false)
  | some l =>
    if l.jobTag ≠ jobTag then (s, false) else
    let w : State × Option XFail :=
      if toMem then s.vwriteNow none l.ctx addr.toNat bytes
      else (s.modCore core.val fun k => if inOst addr.toNat bytes.length then k.ostWrite addr.toNat bytes else k, none)
    match w.2 with
    | some e => (w.1.haltOn l e (some (core.val, 0)) 2 0, true)
    | none =>
      let r := if last then w.1.signalOpt l core.val sig { code := 0, core := some core.val } else (w.1, false)
      (r.1.emit (.remoteAck src bytes.length), r.2)

/-! ### SEXP (13 R397) -/

/-- Hand over one page if it is present, not sent, and full enough. -/
def State.sexpPage (s : State) (c : Nat) (ctx : BitVec 8) (u : KvUse) (d : ExportDesc) (va : Nat) : State :=
  match s.seePage (s.physOf c) ctx u va with
  | .page x =>
    let h := s.khdr u.q.val x
    if !h.sent && (h.fill == 16 || (d.part && h.fill != 0)) then s.handOff d.seq u.q x h.layer (u.r.pageIndex d.kva va) else s
  | _ => s

def runSexp (line : BitVec 10) (s : State) (l : Launch) (c : Nat) (ins : Issued) : Began :=
  let k := s.core c
  let info := ins.info c
  if !lineOk line.toNat 1 then .error s info eDesc
  else
    match parseExport (k.lineWords line.toNat 16) with
    | none => .error s info eDesc
    | some d =>
      match s.kvUse l.ctx d.kva with
      | none => .error s info eKvLayout
      | some u =>
        let start (ly : Nat) : Nat := d.kva + (d.layerFirst + ly) * 2 ^ u.r.lshift.toNat
        if d.pages ≠ 0 ∧ start (d.layers - 1) + (d.pageFirst + d.pages) * u.r.page > u.r.start + u.r.bytes then .error s info eKvLayout
        else
          let vas := ((List.range d.layers).map fun ly => (List.range d.pages).map fun i => start ly + (d.pageFirst + i) * u.r.page).flatten
          { s := vas.foldl (fun s va => s.sexpPage c l.ctx u d va) s }

end Sys2Proof.Machine
end

