-- ==== Sys2Proof/Machine/Coll.lean ====
section
/-!
DEFINITION. Collectives (12 R341-R367).
-/

namespace Sys2Proof.Machine

/-! ### A member's place -/

/-- A member's geometry in a collective: group, its own place, the root's, and which rings close. -/
structure Geo where
  g : Group
  me : Nat × Nat × Nat
  root : Nat × Nat × Nat
  closed : Bool × Bool × Bool
  deriving DecidableEq, Repr

def Geo.n (g : Geo) (a : Axis) : Nat := axisOf g.g.sides a
def Geo.i (g : Geo) (a : Axis) : Nat := axisOf g.me a
def Geo.r (g : Geo) (a : Axis) : Nat := axisOf g.root a
def Geo.closes (g : Geo) : Axis → Bool
  | .x => g.closed.1 | .y => g.closed.2.1 | .z => g.closed.2.2

def placeIn (g : Group) (p : Nat × Nat × Nat) : Nat × Nat × Nat := (g.place p .x, g.place p .y, g.place p .z)

def State.geo (s : State) (x : Sched) (g : Group) (root : Nat) : Geo :=
  { g := g, me := placeIn g (x.pos x.self.toNat), root := placeIn g (x.pos root),
    closed := (s.ringClosed g .x, s.ringClosed g .y, s.ringClosed g .z) }

/-- A reduce runs this axis on the members that reach it (12 R351). -/
def Geo.takesPart (g : Geo) : Axis → Bool
  | .x => true
  | .y => g.i .x == g.r .x
  | .z => g.i .x == g.r .x && g.i .y == g.r .y

/-- A ring's result goes from the last place to the root's by the shorter way, ties in the + direction (12 R351). -/
def Geo.resultPlus (g : Geo) (a : Axis) : Bool := g.closes a && decide (g.r a + 1 ≤ g.n a - 1 - g.r a)
/-- This place lies on the result's way, after the last place. -/
def Geo.onWay (g : Geo) (a : Axis) : Bool :=
  g.i a != g.n a - 1 && (if g.resultPlus a then decide (g.i a ≤ g.r a) else decide (g.r a ≤ g.i a))

/-- Chunks that this member sends in a reduce, for one chunk number. -/
def Geo.reduceSends (g : Geo) : Nat :=
  ([Axis.x, .y, .z].map fun a =>
    if !g.takesPart a || g.n a ≤ 1 then 0
    else (if g.i a != g.n a - 1 || g.r a != g.n a - 1 then 1 else 0) + (if g.onWay a && g.i a != g.r a then 1 else 0)).foldl (· + ·) 0

/-- The axis on which a broadcast reaches this member: none at the root. -/
def Geo.arrives (g : Geo) : Option Axis :=
  if g.i .z != g.r .z then some .z else if g.i .y != g.r .y then some .y else if g.i .x != g.r .x then some .x else none

/-- A broadcast reaches this member moving in the + direction. -/
def Geo.arrivesPlus (g : Geo) (a : Axis) : Bool :=
  if g.closes a then decide ((g.i a + g.n a - g.r a) % g.n a ≤ g.n a / 2) else decide (g.r a < g.i a)

/-- How a broadcast from the root comes to this member: axis and direction; none at the root. -/
def Geo.way (g : Geo) : Option (Axis × Bool) := g.arrives.map fun a => (a, g.arrivesPlus a)

/-- Where a broadcast's data goes on from this member: along the ring it came on, and around its own later rings (12 R347, R353). -/
def Geo.sends (g : Geo) : List (Axis × Bool) :=
  let own (axes : List Axis) := (axes.map fun a => [true, false].filterMap fun plus =>
    if goesOn (g.closes a) (g.n a) (g.i a) (g.i a) plus then some (a, plus) else none).flatten
  match g.way with
  | none => own [.x, .y, .z]
  | some (a, plus) => (if goesOn (g.closes a) (g.n a) (g.r a) (g.i a) plus then [(a, plus)] else []) ++ own (axesAfter a)

/-- Where what a member of the group says to all of it goes on from this member (12 R347, R361). -/
def State.spreads (s : State) (x : Sched) (g : Group) (sender : BitVec 12) : List (Axis × Bool) := (s.geo x g sender.toNat).sends

/-! ### Descriptors (12 R343) -/

structure CollDesc where
  reduce : Bool
  rop : Nat
  fmt : Nat
  ragged : Bool
  onFail : Bool
  srcMem : Bool
  dstMem : Bool
  id : BitVec 12
  root : BitVec 12
  origin : BitVec 12
  sides : BitVec 12
  tag : Word
  count : Nat
  src : Nat
  dst : Nat
  deadline : Nat
  deriving DecidableEq, Repr

def parseColl (ws : List Word) : CollDesc :=
  let w0 := wAt ws 0
  let w1 := wAt ws 1
  let w2 := wAt ws 2
  let dl := wbits (wAt ws 9) 16 16
  { reduce := wbits w0 13 3 != 0, rop := wbits w0 11 2, fmt := wbits w0 7 4, ragged := bit1 w0 6, onFail := bit1 w0 5, srcMem := bit1 w0 4,
    dstMem := bit1 w0 3, id := .ofNat 12 (wbits w1 20 12), root := .ofNat 12 (wbits w1 8 12), origin := .ofNat 12 (wbits w2 20 12),
    sides := .ofNat 12 (wbits w2 8 12), tag := wAt ws 3, count := (wAt ws 4).toNat, src := (dAt ws 5).toNat, dst := (dAt ws 7).toNat,
    deadline := if dl = 0 then 256 else dl }

/-- Field rules that need no box (12 R343, R344). -/
def collFields (ws : List Word) : Option Code :=
  let w0 := wAt ws 0
  let d := parseColl ws
  if wbits w0 28 4 ≠ 6 ∨ wbits w0 16 12 ≠ 1 ∨ wbits w0 13 3 > 1 ∨ d.rop = 3 ∨ (d.reduce = false ∧ d.rop ≠ 0) ∨ (d.reduce ∧ d.ragged) ∨
      wbits w0 0 3 ≠ 0 ∨ wbits (wAt ws 1) 0 8 ≠ 0 ∨ wbits (wAt ws 2) 0 8 ≠ 0 ∨ d.count > 0x10000000 ∨ wbits (wAt ws 9) 0 16 ≠ 0 ∨
      wAt ws 10 ≠ 0 ∨ wAt ws 15 ≠ 0 ∨ d.id = 0xFFF then some eDesc
  else if d.fmt ≥ 8 then some eFmtReserved
  else if d.fmt ≠ 3 ∧ d.fmt ≠ 4 ∧ d.fmt ≠ 6 ∧ d.fmt ≠ 7 then some eFmtIllegal
  else none

def CollDesc.group (d : CollDesc) : Group := groupOf d.origin d.sides

/-- The group, the root and this member fit (12 R344). -/
def CollDesc.groupOk (d : CollDesc) (x : Sched) : Bool :=
  let g := d.group
  ([Axis.x, .y, .z].all fun a => decide (axisOf g.o a + axisOf g.sides a ≤ axisOf x.box a)) &&
    decide (d.root.toNat < x.map.length) && g.has (x.pos d.root.toNat) && g.has (x.pos x.self.toNat)

/-- Bytes of a buffer. -/
def CollDesc.bytes (d : CollDesc) : Nat := d.count * fmtBytes d.fmt
def CollDesc.reads (d : CollDesc) (self : BitVec 12) : Bool := d.reduce || d.root == self
def CollDesc.writes (d : CollDesc) (self : BitVec 12) : Bool := d.reduce == (d.root == self)

/-- Operand-store ranges of the buffers in use (12 R344). -/
def CollDesc.ranges (d : CollDesc) (self : BitVec 12) : Option Code :=
  let n := d.bytes
  let src := d.reads self && !d.srcMem
  let dst := d.writes self && !d.dstMem
  if (src && !inOst d.src n) || (dst && !inOst d.dst n) then some eLocalBound
  else if d.reduce && src && dst && rangesMeet d.src n d.dst n then some eCollOverlap
  else none

/-! ### A collective in progress -/

def Coll.desc (c : Coll) : CollDesc := parseColl c.words

def State.putColl (s : State) (c : Coll) : State :=
  { s with col := { s.col with colls := s.col.colls.map fun d => if d.jobTag == c.jobTag && d.collId == c.collId then c else d } }
def State.dropColl (s : State) (c : Coll) : State :=
  { s with col := { s.col with colls := s.col.colls.filter fun d => !(d.jobTag == c.jobTag && d.collId == c.collId) } }
def State.collOf (s : State) (jobTag : Word) (id : BitVec 12) : Option Coll := s.col.colls.find? fun c => c.jobTag == jobTag && c.collId == id

/-- The resident launch of a job. -/
def State.jobLaunch (s : State) (jobTag : Word) : Option Launch :=
  match s.resident with
  | some l => if l.jobTag == jobTag then some l else none
  | none => none

/-- Write W11 to W14 of the record (12 R343). A collective that runs again has its record cleared too (12 R366). -/
def State.setRecord (s : State) (c : Coll) (state : Nat) (valid : Bool) : State :=
  if c.isBarrier then s
  else s.modCore c.core.val fun k => k.setWords c.line.toNat 11 (if state ≤ 3 then collRecord state false 0 0 0 0 0 else collRecord state valid 0 0 c.flags c.written s.fab.cnt)

/-- Elements that the data phase moves (12 R350). -/
def Coll.elements (c : Coll) : Nat :=
  let d := c.desc
  if d.ragged then ((c.entries.find? fun e => e.member == d.root).map (·.count.toNat)).getD 0 else d.count
def CollDesc.perChunk (d : CollDesc) : Nat := if d.reduce then 64 else 256 / fmtBytes d.fmt
def Coll.chunks (c : Coll) : Nat := ceilDiv c.elements c.desc.perChunk
/-- Elements of a chunk. -/
def Coll.inChunk (c : Coll) (ch : Nat) : Nat := min c.desc.perChunk (c.elements - ch * c.desc.perChunk)

/-- What a member works on: the state, its collective, and the access that failed. -/
structure CSt where
  s : State
  c : Coll
  fail : Option XFail := none

/-- A value on the wire: F16 widened exactly, F32 read under R48 (12 R352). -/
def widen (fmt : Nat) (w : Word) : Word :=
  if fmt = 7 then w else if fmt = 6 then canon32 w else (rneF32 true (decodeAny fmt false w)).bits

/-- One step of a ring (12 R352). -/
def ringOp (fmt rop : Nat) (acc v : Word) : Word × Flags :=
  if fmt = 7 then
    if rop = 0 then satI32 (i32 acc + i32 v) else if rop = 1 then (if i32 acc < i32 v then v else acc, 0) else (if i32 v < i32 acc then v else acc, 0)
  else
    let a := f32 acc
    let b := f32 v
    if rop = 0 then
      let x := a.add b
      let r := rneF32 true x
      (r.bits, r.cvtFlags ||| flagIf (x.isNan && !a.isNan && !b.isNan) fInvalid)
    else ((rneF32 true (if rop = 1 then a.max b else a.min b)).bits, 0)

def combine (fmt rop : Nat) (acc v : List Byte) : List Byte × Flags :=
  let rs := ((leWords 64 acc).zip (leWords 64 v)).map fun p => ringOp fmt rop p.1 p.2
  (wordBytes (rs.map (·.1)), rs.foldl (fun f r => f ||| r.2) 0)

/-- Read this member's chunk from its source, as it goes on the wire. -/
def CSt.source (x : CSt) (ctx : BitVec 8) (ch : Nat) : Except XFail (List Byte) :=
  let d := x.c.desc
  let w := fmtBytes d.fmt
  let n := x.c.inChunk ch * w
  let at' := d.src + ch * d.perChunk * w
  let bs := if d.srcMem then x.s.vreadNow none ctx at' n else .ok ((x.s.core x.c.core.val).ostRead at' n)
  match bs with
  | .error e => .error e
  | .ok bs =>
    .ok (((if d.reduce then wordBytes ((List.range (n / w)).map fun i => widen d.fmt (elemAt bs w i)) else bs) ++ List.replicate 256 0).take 256)

/-- Write a chunk's elements to the destination. -/
def CSt.write (x : CSt) (ctx : BitVec 8) (ch : Nat) (bs : List Byte) (flags : Flags) : CSt :=
  let d := x.c.desc
  let a := d.dst + ch * d.perChunk * fmtBytes d.fmt
  let c := { x.c with written := x.c.written + x.c.inChunk ch, flags := x.c.flags ||| flags }
  if d.dstMem then
    match x.s.vwriteNow none ctx a bs with
    | (s, some e) => { x with s := s, fail := some e }
    | (s, none) => { x with s := s, c := c }
  else { x with s := x.s.modCore c.core.val fun k => k.ostWrite a bs, c := c }

/-- Send a chunk one ring place on. -/
def CSt.send (x : CSt) (sched : Sched) (g : Geo) (a : Axis) (plus result : Bool) (ch : Nat) (bs : List Byte) : CSt :=
  let p := x.s.hopTo sched g.g (a, plus)
  let s := if x.s.portUp p then x.s.emit (.coll p x.c.jobTag x.c.collId a result ch bs) else x.s
  { x with s := s.sendFlit p 1 (s.ringNext sched g.g (a, plus)) 0 x.c.collId ch bs, c := { x.c with sent := x.c.sent + 1 } }

/-- The root's result: converted once, RNE, INF, to fmt (12 R352). -/
def CSt.result (x : CSt) (ctx : BitVec 8) (ch : Nat) (bs : List Byte) : CSt :=
  let d := x.c.desc
  let ws := (leWords 64 bs).take (x.c.inChunk ch)
  if d.fmt = 7 ∨ d.fmt = 6 then x.write ctx ch (wordBytes ws) 0
  else
    let rs := ws.map fun w => roundTo d.fmt false true .rne (f32 w)
    x.write ctx ch ((rs.map fun r => leBytes 2 r.bits.toNat).flatten) (rs.foldl (fun f r => f ||| r.cvtFlags) 0)

def nextAxis : Axis → Option Axis
  | .x => some .y | .y => some .z | .z => none

/-- A ring's value reaches this member as its own value for an axis (`enter`), or a partial for that axis has met it
(`meet`); `fuel` counts the axes left (12 R351, R357). -/
def CSt.reduceGo (ctx : BitVec 8) (sched : Sched) (g : Geo) (ch : Nat) : Nat → CSt → Axis → Option (List Byte) → List Byte → CSt
  | 0, x, _, _, _ => x
  | fuel + 1, x, a, acc?, v =>
    let d := x.c.desc
    let done (x : CSt) (r : List Byte) : CSt :=
      match nextAxis a with
      | none => x.result ctx ch r
      | some b => x.reduceGo ctx sched g ch fuel b none r
    let last := g.i a == g.n a - 1
    let out (x : CSt) (r : List Byte) : CSt :=
      if last then (if g.r a == g.i a then done x r else x.send sched g a (g.resultPlus a) true ch r) else x.send sched g a true false ch r
    let meet (x : CSt) (acc : List Byte) : CSt :=
      let r := combine d.fmt d.rop acc v
      out { x with c := { x.c with flags := x.c.flags ||| r.2 } } r.1
    match acc? with
    | some acc => meet x acc
    | none =>
      if g.i a = 0 then out x v
      else
        match x.c.parts.find? fun p => p.1 == a && !p.2.1 && p.2.2.1 == ch with
        | some p => meet { x with c := { x.c with parts := x.c.parts.filter fun q => !(q.1 == a && !q.2.1 && q.2.2.1 == ch) } } p.2.2.2
        | none => { x with c := { x.c with parts := x.c.parts ++ [(a, true, ch, v)] } }

def gotKey (a : Axis) (result : Bool) : Nat := 2 * axisNo a + b2n result

/-- A chunk arrives at a member in its data phase, on the way that its place gives it (12 R351, R353). -/
def CSt.arrive (ctx : BitVec 8) (sched : Sched) (g : Geo) (x : CSt) (a : Axis) (result : Bool) (ch : Nat) (data : List Byte) : CSt :=
  let x := { x with c := { x.c with got := smod 0 x.c.got (gotKey a result) (· + 1) } }
  if !x.c.desc.reduce then
    let y := x.write ctx ch (data.take (x.c.inChunk ch * fmtBytes x.c.desc.fmt)) 0
    if y.fail.isSome then y else g.sends.foldl (fun y d => y.send sched g d.1 d.2 false ch data) y
  else if result then
    if g.i a == g.r a then
      match nextAxis a with
      | none => x.result ctx ch data
      | some b => x.reduceGo ctx sched g ch 3 b none data
    else x.send sched g a (g.resultPlus a) true ch data
  else
    match a with
    | .x =>
      match x.source ctx ch with
      | .error e => { x with fail := some e }
      | .ok v => x.reduceGo ctx sched g ch 3 .x (some data) v
    | _ =>
      match x.c.parts.find? fun p => p.1 == a && p.2.1 && p.2.2.1 == ch with
      | some p => CSt.reduceGo ctx sched g ch 3 { x with c := { x.c with parts := x.c.parts.filter fun q => !(q.1 == a && q.2.1 && q.2.2.1 == ch) } } a (some data) p.2.2.2
      | none => { x with c := { x.c with parts := x.c.parts ++ [(a, false, ch, data)] } }

/-- This member starts chunks of its own: the root of a broadcast, and place 0 of an X ring. -/
def Geo.starts (g : Geo) (d : CollDesc) : Bool := if d.reduce then g.i .x == 0 else g.me == g.root

/-- Start the next chunk, unless its read or write fails. -/
def CSt.start (ctx : BitVec 8) (sched : Sched) (g : Geo) (x : CSt) : CSt :=
  let ch := x.c.started
  match x.source ctx ch with
  | .error e => { x with fail := some e }
  | .ok v =>
    let y := if x.c.desc.reduce then x.reduceGo ctx sched g ch 4 .x none v else g.sends.foldl (fun y d => y.send sched g d.1 d.2 false ch v) x
    match y.fail with
    | some e => { x with fail := some e }
    | none => { y with c := { y.c with started := ch + 1 } }

/-! ### The engines (12 R357, R358) -/

/-- An engine has room for one more chunk of a collective: each holds up to 64, which are in flight until they are acknowledged. -/
def State.engineRoom (s : State) (id : BitVec 12) : Bool :=
  allPorts.all fun p =>
    let q := s.port p
    decide (((q.replay.map (·.2) ++ q.backlog).filter fun f => f.cls == 1 && f.tag == id && f.src == s.devid && f.chunk != 0xFFFFFF).length < 64)

/-- The collective engine carries the data of one collective at a time, the lowest id first (entry 39). -/
def State.carries (s : State) (c : Coll) : Bool :=
  !c.galliard || !(s.col.colls.any fun d => d.galliard && d.jobTag == c.jobTag && d.phase == .data && decide (d.collId < c.collId))

/-! ### Completion and failure -/

def Core.flightPc (k : Core) (serial : Nat) : BitVec 20 := ((k.flight.find? fun f => f.ins.serial == serial).map (·.ins.pc)).getD 0

/-- The COLL that issued a collective completes (04 R113). -/
def State.collDone (s : State) (l : Launch) (c : Coll) : State × Bool :=
  match (s.core c.core.val).flight.find? fun f => f.ins.serial == c.serial with
  | some f => s.completeFlight l c.core.val f
  | none => (s, false)

/-- A collective is DONE (12 R355). -/
def State.finishColl (s : State) (l : Launch) (c : Coll) : State × Bool :=
  let s := (s.setRecord c 4 true).dropColl c
  let s := { s with col := { s.col with done := satInc s.col.done,
                                        finished := (s.col.finished.filter fun d => !(d.jobTag == c.jobTag && d.collId == c.collId)) ++ [c] } }
  if c.rerun then (s, false) else s.collDone l c

/-- A collective fails: its record, then R362. The launch barrier's failure ends the launch (01 R25). -/
def State.failColl (s : State) (l : Launch) (c : Coll) (code : Code) (culprit : BitVec 12) : State × Bool :=
  let s := s.dropColl c
  let info : StopInfo :=
    { code := code, core := if c.isBarrier then none else some c.core.val, pc := (s.core c.core.val).flightPc c.serial, source := 1,
      detail := culprit.setWidth 64 }
  if c.isBarrier then (s.stop l info, true)
  else
    let s := s.recordFailure c code culprit
    if c.desc.onFail then (if c.rerun then (s, false) else s.collDone l c) else (s.stop l info, true)

/-- A failing access halts the launch; the collective is HALTED at its chunk (12 R364, R365). -/
def State.haltColl (s : State) (l : Launch) (c : Coll) (e : XFail) : State :=
  let c := { c with phase := .halted }
  let s := (s.putColl c).modCore c.core.val fun k => k.setDw c.line.toNat 11 0x30000000
  s.haltOn l e (some (c.core.val, (s.core c.core.val).flightPc c.serial)) 1 c.line.toNat

/-- Put back what a member worked on; a failing access halts it as `keep` leaves it. -/
def State.collWork (l : Launch) (x : CSt) (keep : Coll) : State × Bool :=
  match x.fail with
  | none => (x.s.putColl x.c, false)
  | some e => (x.s.haltColl l keep e, true)

/-- Detections in the arithmetic or data path of an engine during a chunk's step; true is a residue (12 R365, 14 R416). -/
def State.engineDetect (s : State) (port : Fin 6) (c : Coll) (det : List Bool) : State × Coll :=
  match det with
  | [] => (s, c)
  | d :: rest =>
    let code := if d then eResidue else eParity
    let kind : BitVec 4 := if c.galliard then 6 else 4
    let unit := if c.galliard then 0 else port.val
    let failed := !rest.isEmpty
    let base : RecInfo := { code := code, source := 0, kind := kind, unit := .ofNat 12 unit, qid := (s.jobLaunch c.jobTag).map (·.qid) }
    let n := if failed then (s.notePermanent kind unit, true) else s.noteEvent kind unit
    let s := n.1.countReplay
    let s := if failed then { s with err := { s.err with failedReplays := satInc s.err.failedReplays } } else s
    let s := s.log { base with cls := if n.2 then 2 else 1, outcome := 1 }
    if !n.2 then (s, c)
    else if c.galliard then (s.logDrain { base with cls := 2, nested := failed } none, c)
    else
      -- the collective engine takes every collective of the device over (12 R358)
      let s := s.log { base with cls := 2, outcome := 4, nested := failed }
      ({ s with col := { s.col with fenced := s.col.fenced ||| (1#6 <<< port.val), colls := s.col.colls.map fun d => { d with galliard := true } } },
       { c with galliard := true })

/-- This member may start its next chunk of a collective. -/
def State.mayStart (s : State) (x : Sched) (c : Coll) : Bool :=
  c.phase == .data && (s.geo x c.desc.group c.desc.root.toNat).starts c.desc && decide (c.started < c.chunks) && s.carries c && s.engineRoom c.collId

/-- Start the next chunk of a collective; `det` meets it. -/
def State.startChunk (s : State) (l : Launch) (x : Sched) (c : Coll) (det : List Bool) : State × Bool :=
  let g := s.geo x c.desc.group c.desc.root.toNat
  let e := s.engineDetect (s.hopTo x g.g (if c.desc.reduce then (.x, true) else g.sends.head?.getD (.x, true))) c det
  if (e.1.jobLaunch c.jobTag).isNone then (e.1, true)
  else State.collWork l (CSt.start l.ctx x g { s := e.1, c := e.2 }) e.2

/-- The collective whose turn comes after that of id `last`: chunk by chunk in ascending id (12 R357). -/
def nextInTurn (last : BitVec 12) (cs : List Coll) : Option Coll :=
  let low (l : List Coll) : Option Coll := l.foldl (fun b c => match b with | none => some c | some d => some (if c.collId < d.collId then c else d)) none
  (low (cs.filter fun c => decide (last < c.collId))).or (low cs)

def pumpGo : Nat → BitVec 12 → List Bool → State → State × Bool
  | 0, _, _, s => (s, false)
  | fuel + 1, last, det, s =>
    match s.running with
    | none => (s, false)
    | some l =>
      match s.schedOf l with
      | none => (s, false)
      | some x =>
        match nextInTurn last (s.col.colls.filter fun c => c.jobTag == l.jobTag && s.mayStart x c) with
        | none => (s, false)
        | some c =>
          let r := s.startChunk l x c det
          let q := pumpGo fuel c.collId [] r.1
          (q.1, r.2 || q.2)

/-- This member's own chunks start while the engines have room; `det` meets the first of them. -/
def State.pump (s : State) (det : List Bool) : State × Bool :=
  pumpGo (s.col.colls.foldl (fun n c => if c.phase == .data then n + (c.chunks - c.started) else n) 0) 0xFFF det s

/-! ### The count phase (12 R347, R348) -/

def Coll.entry (c : Coll) (self : BitVec 12) : CEntry :=
  let d := c.desc
  { member := self, op := if d.reduce then 1 else 0, rop := .ofNat 2 d.rop, fmt := .ofNat 4 d.fmt, ragged := d.ragged, root := d.root,
    origin := d.origin, sides := d.sides, tag := d.tag, count := .ofNat 32 d.count }

/-- Entry of the launch or resume barrier: a broadcast of nothing over the job, tagged with it (01 R25). -/
def barrierEntry (l : Launch) (x : Sched) (root : BitVec 12) : CEntry :=
  { member := x.self, op := 0, rop := 0, fmt := 0, ragged := false, root := root, origin := 0,
    sides := toNib3 (x.box.1 - 1, x.box.2.1 - 1, x.box.2.2 - 1), tag := l.jobTag, count := .ofNat 32 l.members }

def entryGroup (e : CEntry) : Group := groupOf e.origin e.sides

/-- Members of a group. -/
def Sched.members (x : Sched) (g : Group) : List Nat := (List.range x.map.length).filter fun m => g.has (x.pos m)

def Coll.hasAll (c : Coll) (x : Sched) : Bool := (x.members (c.group x)).all fun m => c.entries.any fun e => e.member.toNat == m

/-- Lowest member of some entries. -/
def lowestMember (es : List CEntry) : Option (BitVec 12) :=
  es.foldl (fun m e => match m with | none => some e.member | some a => some (if e.member < a then e.member else a)) none

/-- The verdict of R348: a code and culprit, or match. -/
def verdict (anchor : CEntry) (es : List CEntry) : Option (Code × BitVec 12) :=
  match lowestMember (es.filter fun e => { e with member := anchor.member, count := anchor.count, again := anchor.again } != anchor) with
  | some m => some (eCollMismatch, m)
  | none =>
    if !anchor.ragged then (lowestMember (es.filter fun e => e.count != anchor.count)).map fun m => (eCollMismatch, m)
    else
      match es.find? fun e => e.member == anchor.root with
      | none => none
      | some r => (lowestMember (es.filter fun e => e.member != r.member && decide (e.count < r.count))).map fun m => (eCollShortBuffer, m)

/-- A collective in its count phase: a stored abort fails it; with every entry it decides its verdict. The barrier's match
waits for the start beat. -/
def State.judge (s : State) (l : Launch) (c : Coll) : State × Bool :=
  match c.failure with
  | some f => s.failColl l c f.1 f.2
  | none =>
    match s.schedOf l with
    | none => (s, false)
    | some x =>
      if !c.hasAll x then (s, false)
      else
        let g := c.group x
        let anchor := (memberAtPlace x g (0, 0, 0)).bind fun m => c.entries.find? fun e => e.member.toNat == m
        match anchor with
        | none => (s, false)
        | some a =>
          match verdict a c.entries with
          | some f => s.failColl l c f.1 f.2
          | none =>
            if c.isBarrier then (s, false)
            else
              let c := { c with phase := .data }
              let s := (s.putColl c).setRecord c 2 false
              if c.elements = 0 then s.finishColl l c else (s, false)

/-- Decide every collective of the running launch that can be decided; then its chunks start. -/
def State.decideAll (s : State) (det : List Bool) : State × Bool :=
  let r := (s.col.colls.filter fun c => c.phase == .count).foldl (fun r c =>
    match r.1.jobLaunch c.jobTag, r.1.collOf c.jobTag c.collId with
    | some l, some c =>
      if c.phase == .count && (c.isBarrier || l.run == .running) then let q := r.1.judge l c; (q.1, r.2 || q.2) else r
    | _, _ => r) (s, false)
  let q := r.1.pump det
  (q.1, r.2 || q.2)

/-- This member joins a count phase: its own entry, those that came early, and an abort that did. -/
def State.joinCount (s : State) (x : Sched) (c : Coll) (own : CEntry) : State :=
  let mine (j : Word) (i : BitVec 12) : Bool := j == c.jobTag && i == c.collId
  let early := (s.col.early.filter fun e => mine e.1 e.2.1).map (·.2.2)
  let abort := s.col.aborts.find? fun a => mine a.1 a.2.1
  let c := { c with entries := own :: early, failure := abort.map fun a => (a.2.2.1, a.2.2.2) }
  let s := { s with col := { s.col with colls := s.col.colls ++ [c], early := s.col.early.filter fun e => !mine e.1 e.2.1,
                                        aborts := s.col.aborts.filter fun a => !mine a.1 a.2.1,
                                        finished := s.col.finished.filter fun d => !mine d.jobTag d.collId,
                                        waits := s.col.waits.filter fun w => !mine w.1 w.2.1 } }
  s.sendControl x (c.group x) c.jobTag c.collId (s.ringStarts (c.group x) (x.pos x.self.toNat) [.x, .y, .z]) (.entry own)

/-- The collective engine carries what begins now (12 R358, R369). -/
def ColBlk.byGalliard (b : ColBlk) : Bool := b.galliardOnly || b.testGalliard || b.fenced != 0

/-- COLL begins (12 R343-R345). -/
def runColl (line : BitVec 10) (s : State) (l : Launch) (c : Nat) (ins : Issued) : Began :=
  let k := s.core c
  let info := ins.info c
  let ws := k.lineWords line.toNat 16
  match s.schedOf l with
  | none => .error s info eDesc
  | some x =>
    if !lineOk line.toNat 1 then .error s info eDesc
    else
      match collFields ws with
      | some e => .error s info e
      | none =>
        let d := parseColl ws
        if !d.groupOk x then .error s info eDesc
        else
          match d.ranges x.self with
          | some e => .error s info e
          | none =>
            let st := if k.collLines.contains line then wbits (k.dw line.toNat 11) 28 4 else 0
            if (1 ≤ st ∧ st ≤ 3) ∨ (s.collOf l.jobTag d.id).isSome then .error s info eCollBusy
            else
              let co : Coll := { jobTag := l.jobTag, collId := d.id, core := Fin.ofNat 64 c, line := line, serial := ins.serial, words := ws,
                                 galliard := s.col.byGalliard, epoch := x.epoch }
              let s := s.setCore c { k with collLines := addLine k.collLines line }
              let s := s.setRecord co 1 false
              { s := s.joinCount x co (co.entry x.self) }

/-! ### Arrivals -/

/-- The schedule under which a job's flits are forwarded: its launch's, or the one used last (12 R346). -/
def State.jobSched (s : State) (jobTag : Word) : Option Sched :=
  match (s.launches.find? fun l => l.jobTag == jobTag).bind s.schedOf with
  | some x => some x
  | none => (s.scheds.filter fun x => x.jobTag == jobTag).foldl (fun b x => match b with | none => some x | some y => some (if y.lastUse < x.lastUse then x else y)) none

/-- A collective as it runs again in full under a new epoch (12 R366). -/
def Coll.again (c : Coll) (x : Sched) : Coll :=
  { c with phase := .count, entries := [], counted := 0, flags := 0, written := 0, sent := 0, started := 0, got := [], parts := [], stalled := none,
           failure := none, epoch := x.epoch }

/-- Run a collective again: its record is cleared, and its entry says so. -/
def State.runAgain (s : State) (x : Sched) (c : Coll) : State :=
  let c := c.again x
  (s.setRecord c 1 false).joinCount x c { c.entry x.self with again := true }

/-- Keep an entry that came early: the first of its member. -/
def State.keepEntry (s : State) (jobTag : Word) (id : BitVec 12) (e : CEntry) : State :=
  if s.col.early.any fun q => q.1 == jobTag && q.2.1 == id && q.2.2.member == e.member then s
  else { s with col := { s.col with early := s.col.early ++ [(jobTag, id, e)] } }

/-- An entry of a member that runs a collective again brings back one that is DONE here (12 R366). -/
def State.bringBack (s : State) (x : Sched) (jobTag : Word) (id : BitVec 12) : State :=
  match s.col.finished.find? fun (c : Coll) => c.jobTag == jobTag && c.collId == id && c.epoch != x.epoch with
  | some c => s.runAgain x { c with rerun := true }
  | none => s

/-- An entry arrives and goes on around this member's rings (12 R347). One for a collective that is still to run again here, or that has
not begun, is kept. -/
def State.countEntry (s : State) (port : Fin 6) (jobTag : Word) (id : BitVec 12) (e : CEntry) (det : List Bool) : State × Bool :=
  match s.jobSched jobTag with
  | none => (s, false)
  | some x =>
    let g := entryGroup e
    if !s.portUp port || !g.has (x.pos x.self.toNat) || !g.has (x.pos e.member.toNat) then (s, false)
    else
      let s := s.sendControl x g jobTag id (s.spreads x g e.member) (.entry e)
      let s :=
        match s.collOf jobTag id with
        | some c =>
          if c.epoch != x.epoch then s.keepEntry jobTag id e
          else if c.entries.any fun q => q.member == e.member then s else s.putColl { c with entries := c.entries ++ [e] }
        | none =>
          let old := s.col.early.any fun q => q.1 == jobTag && q.2.1 == id && q.2.2.member == e.member
          let s := s.keepEntry jobTag id e
          if e.again && !old && (s.running.any fun (l : Launch) => l.jobTag == jobTag) then s.bringBack x jobTag id else s
      s.decideAll det

/-- A chunk arrives (12 R357). It waits under flow control while this member's part is not in its data phase, its launch does not run, or
its engines have no room. -/
def State.collChunk (s : State) (port : Fin 6) (jobTag : Word) (id : BitVec 12) (a : Axis) (result : Bool) (ch : Nat) (data : List Byte)
    (det : List Bool) : State × Bool :=
  match s.jobLaunch jobTag, s.collOf jobTag id with
  | some l, some c =>
    match s.schedOf l with
    | none => (s, false)
    | some x =>
      if !s.portUp port || s.running.isNone || c.phase != .data || ch ≥ c.chunks || data.length != 256 || !s.carries c || !s.engineRoom id then (s, false)
      else
        let e := s.engineDetect port c det
        if (e.1.jobLaunch jobTag).isNone then (e.1, true)
        else
          let g := e.1.geo x e.2.desc.group e.2.desc.root.toNat
          let r := CSt.arrive l.ctx x g { s := e.1, c := e.2 } a result ch data
          State.collWork l r { e.2 with stalled := some (a, result, ch, data) }
  | _, _ => (s, false)

/-- Every chunk that a member sends and every element that it writes (12 R355). -/
def State.collAllDone (s : State) (x : Sched) (c : Coll) : Bool :=
  let d := c.desc
  let g := s.geo x d.group d.root.toNat
  let per := if d.reduce then g.reduceSends else g.sends.length
  c.phase == .data && c.sent == per * c.chunks && (!d.writes x.self || c.written == c.elements)

/-- The acknowledgements that end this member's part have come (12 R355). -/
def State.collComplete (s : State) (jobTag : Word) (id : BitVec 12) : State × Bool :=
  match s.running, s.collOf jobTag id with
  | some l, some c =>
    match s.schedOf l with
    | some x =>
      if l.jobTag == jobTag && !c.isBarrier && s.collAllDone x c then
        let r := s.finishColl l c
        let q := r.1.pump []
        (q.1, r.2 || q.2)
      else (s, false)
    | none => (s, false)
  | _, _ => (s, false)

/-- The ring neighbour that a member in its data phase waits on: the first that owes it a chunk, or an acknowledgement (12 R360). -/
def State.waitsOn (s : State) (x : Sched) (c : Coll) : BitVec 12 :=
  let d := c.desc
  let g := s.geo x d.group d.root.toNat
  let place (a : Axis) (plus : Bool) : Option Nat := memberAtPlace x g.g (setAxis g.me a (if plus then (g.i a + 1) % g.n a else (g.i a + g.n a - 1) % g.n a))
  let owed (a : Axis) (r : Bool) : Bool := decide (sget 0 c.got (gotKey a r) < c.chunks)
  let ins : List (Option Nat) :=
    if d.reduce then
      ([Axis.x, .y, .z].map fun a =>
        if !g.takesPart a || g.n a ≤ 1 then []
        else (if g.i a != 0 && owed a false then [place a false] else []) ++
          (if g.onWay a && owed a true then [place a (!g.resultPlus a)] else [])).flatten
    else match g.arrives with
      | some a => if owed a false then [place a (!g.arrivesPlus a)] else []
      | none => []
  let outs : List (Option Nat) :=
    if d.reduce then
      ([Axis.x, .y, .z].map fun a => if !g.takesPart a || g.n a ≤ 1 then []
        else if g.i a != g.n a - 1 then [place a true] else if g.r a != g.i a then [place a (g.resultPlus a)] else []).flatten
    else g.sends.map fun e => place e.1 e.2
  match (ins ++ outs).filterMap id with
  | m :: _ => .ofNat 12 m
  | [] => x.self

/-- Lowest member whose entry has not come. -/
def Coll.missing (c : Coll) (x : Sched) : BitVec 12 :=
  .ofNat 12 (((x.members (c.group x)).find? fun m => !c.entries.any fun e => e.member.toNat == m).getD x.self.toNat)

/-- The end of the chain of waits that starts at this member, as far as it knows it; a member that has halted waits on no other (12 R360). -/
def State.chainEnd (s : State) (l : Launch) (x : Sched) (c : Coll) : BitVec 12 :=
  let n := s.waitsOn x c
  if l.run != .running || c.phase == .halted || n == x.self then x.self
  else ((s.col.waits.find? fun w => w.1 == c.jobTag && w.2.1 == c.collId && w.2.2.1 == n).map (·.2.2.2)).getD n

/-- The ring neighbours of this member. -/
def Geo.neighbours (g : Geo) : List (Axis × Bool) :=
  ([Axis.x, .y, .z].map fun a =>
    if g.n a ≤ 1 then []
    else (if g.closes a || decide (g.i a + 1 < g.n a) then [(a, true)] else []) ++ (if g.closes a || decide (0 < g.i a) then [(a, false)] else [])).flatten

/-- At each boundary a member in its data phase tells its ring neighbours the end of its chain of waits (12 R360, entry 39). -/
def State.tellWaits (s : State) : State :=
  match s.resident with
  | none => s
  | some l =>
    match s.schedOf l with
    | none => s
    | some x =>
      (s.col.colls.filter fun c => c.jobTag == l.jobTag && c.phase != .count).foldl (fun s c =>
        let g := s.geo x c.desc.group c.desc.root.toNat
        s.sendControl x g.g c.jobTag c.collId g.neighbours (.waits x.self (s.chainEnd l x c))) s

/-- A control flit with a member's wait state comes to this device. -/
def State.takeWaits (s : State) (id : BitVec 12) (data : List Byte) : State :=
  match Config.controlOf data with
  | some (jobTag, .waits m last) =>
    { s with col := { s.col with waits := (s.col.waits.filter fun w => !(w.1 == jobTag && w.2.1 == id && w.2.2.1 == m)) ++ [(jobTag, id, m, last)] } }
  | _ => s

/-- A collective's deadline has passed (12 R360). That of a launch which a link loss suspends does not count; a halted member fails on
resume (12 R367). -/
def State.collDeadline (s : State) (jobTag : Word) (id : BitVec 12) : State × Bool :=
  match s.jobLaunch jobTag, s.collOf jobTag id with
  | some l, some c =>
    match s.schedOf l with
    | none => (s, false)
    | some x =>
      if c.isBarrier || c.counted < c.desc.deadline || c.failure.isSome || l.suspended.isSome then (s, false)
      else
        let culprit := if c.phase == .count then c.missing x else s.chainEnd l x c
        let s := s.sendAbort l c eCollTimeout culprit
        if l.run == .running then s.failColl l c eCollTimeout culprit
        else (s.putColl { c with failure := some (eCollTimeout, culprit) }, false)
  | _, _ => (s, false)

/-- An abort goes on in the manner of entries and fails an unfinished collective. One for a collective that is to begin here is kept: its
sender's entry has come before it, since both take the same way. Any other is of a use that is over here (12 R361, entry 39). -/
def State.collAbort (s : State) (port : Fin 6) (jobTag : Word) (id : BitVec 12) (a : CAbort) : State × Bool :=
  match s.jobSched jobTag with
  | none => (s, false)
  | some x =>
    let g := groupOf a.origin a.sides
    if !s.portUp port || !g.has (x.pos x.self.toNat) || !g.has (x.pos a.sender.toNat) then (s, false)
    else
      let s := s.sendControl x g jobTag id (s.spreads x g a.sender) (.abort a)
      match s.collOf jobTag id with
      | none =>
        if (s.col.early.any fun q => q.1 == jobTag && q.2.1 == id && q.2.2.member == a.sender) &&
            !(s.col.aborts.any fun b => b.1 == jobTag && b.2.1 == id) then
          ({ s with col := { s.col with aborts := s.col.aborts ++ [(jobTag, id, a.code, a.culprit)] } }, false)
        else (s, false)
      | some c =>
        if c.failure.isSome then (s, false)
        else
          match s.jobLaunch jobTag with
          | some l =>
            if c.isBarrier || l.run == .running then s.failColl l c a.code a.culprit
            else (s.putColl { c with failure := some (a.code, a.culprit) }, false)
          | none => (s.putColl { c with failure := some (a.code, a.culprit) }, false)

/-! ### Resume -/

/-- A collective of a launch that goes on after a halt: a kept failure takes effect, and a HALTED one goes on from its chunk (12 R364, R367). -/
def State.resumeColl (s : State) (l : Launch) (c : Coll) : State × Bool :=
  match c.failure with
  | some f => s.failColl l c f.1 f.2
  | none =>
    if c.phase != .halted then (s, false)
    else
      let stalled := c.stalled
      let c := { c with phase := .data, stalled := none }
      let s := (s.putColl c).setRecord c 2 false
      match stalled, s.schedOf l with
      | some (a, res, ch, data), some x =>
        State.collWork l (CSt.arrive l.ctx x (s.geo x c.desc.group c.desc.root.toNat) { s := s, c := c } a res ch data) { c with stalled := some (a, res, ch, data) }
      | _, _ => (s, false)

/-- Collectives go on after a halt; what came meanwhile may decide one (12 R348). -/
def State.resumeColls (s : State) (l : Launch) : State × Bool :=
  let r := (s.col.colls.filter fun c => c.jobTag == l.jobTag && !c.isBarrier).foldl (fun r c =>
    if (r.1.launchOf l.qid).isNone then r else let q := r.1.resumeColl l c; (q.1, r.2 || q.2)) (s, false)
  let q := r.1.decideAll []
  (q.1, r.2 || q.2)

/-- After a link loss, every unfinished collective of the job runs again in full under the new epoch, and with them those DONE here that
another member runs again (12 R366). A failure that was kept stays. -/
def State.rerunColls (s : State) (l : Launch) : State × Bool :=
  match s.schedOf l with
  | none => (s, false)
  | some x =>
    let mine := s.col.colls.filter fun c => c.jobTag == l.jobTag && !c.isBarrier
    let s := { s with col := { s.col with colls := s.col.colls.filter fun c => c.jobTag != l.jobTag || c.isBarrier } }
    let s := mine.foldl (fun s c =>
      let s := s.runAgain x c
      match c.failure, s.collOf c.jobTag c.collId with
      | some f, some d => s.putColl { d with failure := some f }
      | _, _ => s) s
    let back := s.col.early.filter fun e => e.1 == l.jobTag && e.2.2.again
    (back.foldl (fun s e => if (s.collOf l.jobTag e.2.1).isSome then s else s.bringBack x l.jobTag e.2.1) s).decideAll []

end Sys2Proof.Machine
end

