-- ==== Sys2Proof/Machine/Units.lean ====
section
/-!
DEFINITION. The units: SYN instructions (04 R112, R117-R120), the instruction at a queue's head (R100, R122), completion
(R113), the wait limit (R115), and how units go on after a halt (R133).
-/

namespace Sys2Proof.Machine

/-! ### SYN instructions -/

def runTsig (t : Fin 16) (n : BitVec 16) (s : State) (l : Launch) (c : Nat) (ins : Issued) : Began :=
  let r := s.signal l c t n.toNat (ins.info c)
  if r.2 then .error s (ins.info c) eTokenOver else { s := r.1, fly := false }

/-- TWAIT begins when its counter holds n, and takes n (04 R109, R112). -/
def runTwait (t : Fin 16) (n : BitVec 16) (s : State) (_l : Launch) (c : Nat) (_ins : Issued) : Began :=
  { s := s.modCore c fun k => k.setTok t (k.tok t - n), fly := false }

/-- WAITBEAT completes at once when its beat has begun, else at that boundary (04 R117). -/
def runWaitbeat (m : Word) (s : State) (l : Launch) (_c : Nat) (_ins : Issued) : Began :=
  { s := s, fly := !decide (m ≤ l.beat s.fab.cnt) }

/-- BEATMARK meets the obligation and sets the next (04 R118). -/
def runBeatmark (m : Word) (s : State) (l : Launch) (c : Nat) (ins : Issued) : Began :=
  if m ≠ 0xFFFFFFFF ∧ m < l.beat s.fab.cnt then .error s (ins.info c) eBeatOrder
  else { s := s.modCore c fun k => { k with obligation := if m = 0xFFFFFFFF then none else some m }, fly := false }

/-! ### The device barrier (04 R120) -/

/-- This core counts as joined to barrier n. -/
def Core.hasJoined (k : Core) (n : Nat) : Bool := k.ended || decide (n ≤ k.joined)

/-- The LBAR that has joined and stands at the head of SYN. -/
def Core.barHead (k : Core) : Option Issued :=
  match k.qSyn with
  | i :: _ => if i.op == .lbar && i.joinedBar then some i else none
  | [] => none

/-- The next barrier is passed when every core has joined it; the LBARs that joined it complete. -/
def State.passBarrier (s : State) (l : Launch) : State × Bool :=
  let n := s.barPassed + 1
  let cores := List.range 64
  if (cores.all fun c => (s.core c).hasJoined n) && cores.any fun c => (s.core c).barHead.isSome then
    cores.foldl (fun (r : State × Bool) c =>
      match (r.1.core c).barHead with
      | some i =>
        if (r.1.launchOf l.qid).isNone then r
        else
          let q := (r.1.modCore c fun k => { k with qSyn := k.qSyn.drop 1 }).signalOpt l c i.sg (i.info c)
          (q.1, r.2 || q.2)
      | none => r) ({ s with barPassed := n }, false)
  else (s, false)

/-- An LBAR at the head of SYN joins once every earlier instruction of its core has completed; it keeps the head. -/
def State.joinBar (s : State) (l : Launch) (c : Nat) (i : Issued) (det : List Detection) : State × Bool :=
  let k := s.core c
  if i.joinedBar || k.stopped || s.inTakeover c || !k.tokOk i.wt || !k.allDoneBefore i.serial then (s, false)
  else
    match s.detect c (i.info c) (i.det ++ det) with
    | (s, .moved left) =>
      (s.modCore c fun k => { k.takeTok i.wt with qSyn := { i with wt := none, det := left } :: k.qSyn.drop 1 }, true)
    | (s, .stop info fenced) => (s.stopLost l info fenced, true)
    | (s, .go) =>
      if (s.launchOf l.qid).isNone then (s, true) else
      let s := s.modCore c fun k =>
        { k.takeTok i.wt with joined := k.joined + 1, qSyn := { i with wt := none, joinedBar := true, det := [] } :: k.qSyn.drop 1 }
      let r := s.passBarrier l
      (r.1, r.2 || !(i.det ++ det).isEmpty)

/-! ### The head of a queue -/

/-- What a unit does with an instruction; `p` says where a halted one goes on. -/
def runOp (p : Resume) (s : State) (l : Launch) (c : Nat) (ins : Issued) : Began :=
  match ins.op with
  | .mma _ line prob m n k => runMma line prob m n k p s l c ins
  | .attn _ line prob m n k => runAttn line prob m n k p s l c ins
  | .epi line off b t => runEpi line off b t p s l c ins
  | .accinit mask i32 => runAccinit mask i32 s l c ins
  | .vprog td ta tb tp line => runVprog td ta tb tp line s l c ins
  | .vred td ta rop axis => runVred td ta rop axis s l c ins
  | .vld tv fmt uns off => runVld tv fmt uns off s l c ins
  | .vst tv fmt uns off => runVst tv fmt uns off s l c ins
  | .vcvt ta cvt off => runVcvt ta cvt off s l c ins
  | .vaccr tv tile rblk cblk => runVaccr tv tile rblk cblk s l c ins
  | .vaccw tv tile rblk cblk => runVaccw tv tile rblk cblk s l c ins
  | .vmov td ta => runVmov td ta s l c ins
  | .vfill td w => runVfill td w s l c ins
  | .sarm line eng => runSarm line eng s l c ins
  | .sexp line => runSexp line s l c ins
  | .tsig t n => runTsig t n s l c ins
  | .twait t n => runTwait t n s l c ins
  | .waitbeat m => runWaitbeat m s l c ins
  | .beatmark m => runBeatmark m s l c ins
  | .coll line => runColl line s l c ins
  | .lbar => { s := s, fly := false }

/-- Begin the instruction at the head of a unit's queue (04 R100, R112, R122). A collective that has begun is decided at once
when every entry is there. -/
def State.beginHead (s : State) (c : Nat) (u : CUnit) (det : List Detection) : State × Bool :=
  match s.running, (s.core c).unitQ u with
  | some l, i :: _ =>
    match i.op with
    | .lbar => s.joinBar l c i det
    | .coll _ =>
      let r := s.beginUnit c u det (runOp {})
      let q := r.1.decideAll []
      (q.1, r.2 || q.2)
    | _ => s.beginUnit c u det (runOp {})
  | _, _ => (s, false)

/-- Issue a unit instruction: it enters its unit's queue, and begins at once if it is alone there (entry 7). -/
def State.issue (s : State) (h : Ih) (bits : Dword) (u : CUnit) (op : Core → UOp) : State × Bool :=
  let r := s.enqueue h bits u op
  if r.2 then r.1.beginHead h.core.val u [] else (r.1, false)

/-! ### Completion -/

/-- Instructions whose completion a command of its own or a boundary brings. -/
def UOp.endsElsewhere : UOp → Bool
  | .sarm .. => true | .coll _ => true | .waitbeat _ => true | _ => false

/-- An instruction in flight completes. -/
def State.completeSerial (s : State) (c serial : Nat) : State × Bool :=
  match s.running, (s.core c).flight.find? fun f => f.ins.serial == serial with
  | some l, some f =>
    if f.ins.op.endsElsewhere || f.haltedAt.isSome || s.inTakeover c then (s, false) else s.completeFlight l c f
  | _, _ => (s, false)

/-- WAITBEATs whose beat has begun complete (04 R117). -/
def State.completeWaits (s : State) : State × Bool :=
  match s.running with
  | none => (s, false)
  | some l =>
    (List.range 64).foldl (fun (r : State × Bool) c =>
      ((r.1.core c).flight.filter fun f => match f.ins.op with | .waitbeat m => decide (m ≤ l.beat s.fab.cnt) | _ => false).foldl
        (fun (r : State × Bool) f =>
          if (r.1.launchOf l.qid).isNone then r else let q := r.1.completeFlight l c f; (q.1, r.2 || q.2)) r) (s, false)

/-! ### The wait limit (04 R115) -/

/-- The instruction at a queue's head waits: on its token, in a TWAIT, or in an LBAR. -/
def Core.headWaits (k : Core) (i : Issued) : Bool :=
  !k.tokOk i.wt || (match i.op with
    | .twait t n => decide (((k.takeTok i.wt).tok t).toNat < n.toNat)
    | .lbar => true
    | _ => false)

/-- A boundary passes: every wait counts it. An LBAR or a TWAIT counts its token's wait and its own as one (entry 32). -/
def Core.countWaits (k : Core) : Core :=
  let up : List Issued → List Issued
    | [] => []
    | i :: r => { i with waited := if k.headWaits i then i.waited + 1 else i.waited } :: r
  { k with qMxu := up k.qMxu, qVec := up k.qVec, qStm := up k.qStm, qSyn := up k.qSyn }

/-- The wait limit of a core's image (04 R129). -/
def State.waitLimit (s : State) (l : Launch) (c : Nat) : Nat :=
  let n := match s.imageOf l with
    | some i => ((i.cores.find? fun k => k.core == c).map (·.waitLimit)).getD 0
    | none => 0
  if n = 0 then 1048576 else n

/-- The counter that a head waits on. -/
def Issued.counter (i : Issued) (k : Core) : Nat :=
  match i.wt with
  | some t => if k.tokOk i.wt then (match i.op with | .twait u _ => u.val | _ => 0) else t.val
  | none => match i.op with | .twait u _ => u.val | _ => 0

/-- A wait has met its limit: the queue stops with E_WAIT_LIMIT. -/
def State.expireWait (s : State) (c : Nat) (u : CUnit) : State × Bool :=
  match s.resident, (s.core c).unitQ u with
  | some l, i :: _ =>
    let k := s.core c
    if l.suspended.isNone && k.headWaits i && decide (s.waitLimit l c ≤ i.waited) then
      (s.stop l { i.info c with code := eWaitLimit, cause := .ofNat 5 (i.counter k) }, true)
    else (s, false)
  | _, _ => (s, false)

/-! ### After a halt (04 R133) -/

/-- A halted instruction goes on where it stopped. -/
def State.resumeFlight (s : State) (l : Launch) (c : Nat) (f : Flight) : State × Bool :=
  let s := s.modCore c fun k => { k with flight := k.flight.filter fun g => g.ins.serial != f.ins.serial }
  finishBegin l c f.unit f.ins (runOp { at? := f.haltedAt, trap := f.trap, marks := f.marks, flags := f.flags, redo := f.redo } s l c f.ins)

def allEngines : List (Fin 4) := [0, 1, 2, 3]

/-- Everything that a halt stopped goes on: instructions, streams, collectives. A further halt or a stop ends it. -/
def State.resumeUnits (s : State) (qid : BitVec 12) : State × Bool :=
  let cores := List.range 64
  let go (r : State × Bool) (f : State → Launch → State × Bool) : State × Bool :=
    match r.1.running with
    | some l => if l.qid = qid then (let q := f r.1 l; (q.1, r.2 || q.2)) else r
    | none => r
  let r := cores.foldl (fun r c =>
    ((r.1.core c).flight.filter fun f => f.haltedAt.isSome).foldl (fun r f => go r fun s l => s.resumeFlight l c f) r) (s, false)
  let r := cores.foldl (fun r c => allEngines.foldl (fun r e => go r fun s _ => (s.resumeStream c e, false)) r) r
  go r fun s l => s.resumeColls l

end Sys2Proof.Machine
end

