-- ==== Sys2Proof/Machine/Kv.lean ====
section
/-!
DEFINITION. The registers of translation and KV pools (08 R230, R237, R250, 10 R287, R288, R309, R310), KV operations
(10 R294-R296), prefix lookup and publication (10 R299-R307).
-/

namespace Sys2Proof.Machine

/-! ### Per-path state (19 R532) -/

def State.pathRegs (s : State) : Path → PathRegs
  | .queue => s.pathQ
  | .service => s.pathS

def State.modPath (s : State) (p : Path) (f : PathRegs → PathRegs) : State :=
  match p with
  | .queue => { s with pathQ := f s.pathQ }
  | .service => { s with pathS := f s.pathS }

/-- An ignored write to a context register sets XLT_CTX_SEL.err; an accepted one clears it (08 R250). -/
def State.ctxErr (s : State) (p : Path) (e : Bool) : State := s.modPath p fun r => { r with ctxErr := e }
/-- The same for XLT_KVP_SEL.err (10 R310). -/
def State.poolErr (s : State) (p : Path) (e : Bool) : State := s.modPath p fun r => { r with poolErr := e }

/-! ### Contexts (08 R230) -/

/-- A queue with an accepted, unfinished launch is bound to the context. -/
def State.ctxBusy (s : State) (c : BitVec 8) : Bool := s.launches.any fun l => l.ctx == c

def State.setCtx (s : State) (c : BitVec 8) (x : Ctx) : State := { s with xlt := { s.xlt with ctxs := sset {} s.xlt.ctxs c.toNat x } }

def State.wCtxSel (s : State) (p : Path) (v : Word) : State := s.modPath p fun r => { r with ctx := .ofNat 8 (wbits v 0 8), ctxErr := false }

def State.wCtxRoot (s : State) (p : Path) (v : Word) : State :=
  let c := (s.pathRegs p).ctx
  if s.ctxBusy c then s.ctxErr p true
  else (s.setCtx c { s.ctxOf c with rootValid := bit1 v 31, rootPfn := .ofNat 25 (wbits v 0 25) }).ctxErr p false

def State.wKvSel (s : State) (p : Path) (v : Word) : State := s.modPath p fun r => { r with region := .ofNat 3 (wbits v 0 3), ctxErr := false }

def Region.meets (a b : Region) : Bool := a.valid && b.valid && rangesMeet a.start a.bytes b.start b.bytes

/-- Change the selected region: ignored while the context runs or when regions would overlap. -/
def State.wRegion (s : State) (p : Path) (ok : Bool) (f : Region → Region) : State :=
  let r := s.pathRegs p
  let c := s.ctxOf r.ctx
  let i := r.region.toNat
  let new := f (c.region i)
  if !ok || s.ctxBusy r.ctx || ((List.range 8).any fun j => j != i && new.meets (c.region j)) then s.ctxErr p true
  else (s.setCtx r.ctx { c with regions := sset {} c.regions i new }).ctxErr p false

def State.wKvBase (s : State) (p : Path) (v : Word) : State :=
  s.wRegion p (decide (wbits v 27 4 ≤ 4)) fun r => { r with valid := bit1 v 31, gran := .ofNat 4 (wbits v 27 4), base := .ofNat 27 (wbits v 0 27) }

def State.wKvLen (s : State) (p : Path) (v : Word) : State := s.wRegion p true fun r => { r with len := .ofNat 27 (wbits v 0 27) }

def State.wKvLsh (s : State) (p : Path) (v : Word) : State :=
  let n := wbits v 0 6
  s.wRegion p (decide (n = 0 ∨ (21 ≤ n ∧ n ≤ 40))) fun r => { r with lshift := .ofNat 6 n }

/-- XLT_INV (08 R237): a write while busy, or of scope 0b1x, is ignored. -/
def State.wInv (s : State) (v : Word) : State :=
  if s.xlt.invBusy || decide (wbits v 29 2 ≥ 2) then s
  else { s with xlt := { s.xlt with invBusy := true, invScope := .ofNat 2 (wbits v 29 2), invCtx := .ofNat 8 (wbits v 0 8) } }

/-- Every matching entry is gone, and busy clears. -/
def State.invDone (s : State) : State :=
  if !s.xlt.invBusy then s
  else
    let s := s.invalidate (s.xlt.invScope == 0) s.xlt.invCtx
    { s with xlt := { s.xlt with invBusy := false } }

/-! ### Pools (10 R287, R288) -/

/-- The four ranges of a pool. -/
def Pool.ranges (p : Pool) (q : Nat) : List (Nat × Nat) :=
  let x := p.pages
  [(p.frames.toNat * 4096, x * granOf q), (p.hdr.toNat * 64, 64 * x), (p.stack.toNat * 64, 4 * x), (p.recl.toNat * 64, 32 * x)]

def State.pfxRange (s : State) : Nat × Nat := (s.xlt.pfxBase.toNat * 64, 32 * 2 ^ s.xlt.pfxLog2.toNat)

def pairwiseMeet : List (Nat × Nat) → Bool
  | [] => false
  | a :: t => (t.any fun b => rangesMeet a.1 a.2 b.1 b.2) || pairwiseMeet t

def enabledRanges (s : State) (but : Nat) : List (Nat × Nat) :=
  ((List.range 5).map fun q => if q != but && (s.pool q).en then (s.pool q).ranges q else []).flatten ++
    (if s.xlt.pfxEn then [s.pfxRange] else [])

/-- The check of an enable (10 R288). -/
def State.poolOk (s : State) (q : Nat) (p : Pool) : Bool :=
  let rs := p.ranges q
  decide (p.pages ≥ 1) && p.frames.toNat * 4096 % granOf q == 0 && (rs.all fun r => decide (r.1 + r.2 ≤ allocBytes)) &&
    !pairwiseMeet rs && !(rs.any fun a => (enabledRanges s q).any fun b => rangesMeet a.1 a.2 b.1 b.2)

/-- No entry of the reclaim queue is valid. -/
def State.noCandidate (s : State) (q : Nat) : Bool :=
  let p := s.pool q
  (List.range p.reclLen).all fun i => let e := s.reclEntry q (p.reclHead + i); !s.reclValid q e.1 e.2

def State.wPoolSel (s : State) (p : Path) (v : Word) : State :=
  if wbits v 0 3 ≥ 5 then s.poolErr p true else s.modPath p fun r => { r with pool := .ofNat 3 (wbits v 0 3), poolErr := false }

/-- XLT_KVP_CFG: enable, disable, or the geometry of a disabled pool. -/
def State.wPoolCfg (s : State) (p : Path) (v : Word) : State :=
  let q := (s.pathRegs p).pool.toNat
  let o := s.pool q
  let heads : BitVec 4 := .ofNat 4 (wbits v 8 4)
  let dim : BitVec 7 := .ofNat 7 (wbits v 0 7)
  if o.en then
    -- only en may change, from 1 to 0, and only when every page is free
    if bit1 v 31 || o.busy || heads != o.heads || dim != o.dim || o.free != o.count || !s.noCandidate q then s.poolErr p true
    else (s.modPool q fun o => { o with en := false, free := 0, reclHead := 0, reclLen := 0 }).poolErr p false
  else
    let n := { o with heads := heads, dim := dim }
    if !bit1 v 31 then (s.modPool q fun _ => n).poolErr p false
    else if !s.poolOk q n then s.poolErr p true
    else (s.modPool q fun _ => { n with en := true, busy := true, free := 0, reclHead := 0, reclLen := 0 }).poolErr p false

/-- A setting of the selected pool other than en: not while it is enabled. -/
def State.wPool (s : State) (p : Path) (f : Pool → Pool) : State :=
  let q := (s.pathRegs p).pool.toNat
  if (s.pool q).en then s.poolErr p true else (s.modPool q f).poolErr p false

/-- Initialisation ends: headers zero, free stack X - 1 down to 0 with index 0 on top, free X. -/
def State.poolReady (s : State) (q : Nat) : State :=
  let p := s.pool q
  if !(p.en && p.busy) then s
  else
    let x := p.pages
    -- full bursts are written with their code (08 R223)
    let s := s.modHbm fun m =>
      { m with code := sclear (sclear m.code (p.hdr.toNat * 2) (2 * x)) (p.stack.toNat * 2) (4 * x / 32), mem := swrite hbmDefault (sclear m.mem (p.hdr.toNat * 64) (64 * x)) (p.stack.toNat * 64)
                        ((List.range x).map fun j => leBytes 4 (x - 1 - j)).flatten }
    let s := s.ownRead (p.stack.toNat * 64 + 4 * x / 32 * 32) (4 * x % 32)
    s.modPool q fun p => { p with busy := false, free := p.count }

/-! ### The prefix table's registers (10 R310) -/

def State.wPfxBase (s : State) (v : Word) : State :=
  if s.xlt.pfxEn then s else { s with xlt := { s.xlt with pfxBase := .ofNat 31 (wbits v 0 31) } }

/-- Live entries in a table of `n` bytes at `base`: byte 15 of an entry holds its state. -/
def State.liveEntries (s : State) (base n : Nat) : Nat :=
  (s.hbm.mem.filter fun e => decide (base ≤ e.1) && decide (e.1 < base + n) && e.1 % 32 == 15 && decide (e.2.toNat / 64 = 1)).length

def State.wPfxCfg (s : State) (v : Word) : State :=
  let t := wbits v 0 5
  let r : Nat × Nat := (s.xlt.pfxBase.toNat * 64, 32 * 2 ^ t)
  if t < 16 ∨ t > 24 ∨ r.1 + r.2 > allocBytes then s
  else if ((List.range 5).any fun q => (s.pool q).en && ((s.pool q).ranges q).any fun a => rangesMeet a.1 a.2 r.1 r.2) then s
  else
    let live := if bit1 v 31 && !s.xlt.pfxEn then .ofNat 25 (s.liveEntries r.1 r.2) else s.xlt.pfxLive
    { s with xlt := { s.xlt with pfxEn := bit1 v 31, pfxLog2 := .ofNat 5 t, pfxLive := live } }

/-! ### KV operations (10 R295) -/

/-- The VAs that an operation visits, each with its page number i. -/
def kvVisits (r : Region) (va layers pages : Nat) : List (Nat × Nat) :=
  ((List.range layers).map fun ly => (List.range pages).map fun i => (va + ly * 2 ^ r.lshift.toNat + i * r.page, i)).flatten

/-- The refusal of an operation: 0 when there is none. -/
def State.kvRefusal (s : State) (ctx : BitVec 8) (va layers pages : Nat) : BitVec 3 :=
  if s.launches.any fun l => l.ctx == ctx && (match l.run with | .halted _ => false | _ => true) then 1
  else
    match s.kvUse ctx va with
    | none => 2
    | some u =>
      if va % u.r.page ≠ 0 ∨ (layers > 1 ∧ u.r.lshift = 0) ∨
          (pages ≠ 0 ∧ va + (layers - 1) * 2 ^ u.r.lshift.toNat + pages * u.r.page > u.r.start + u.r.bytes) then 2
      else if (kvVisits u.r va layers pages).any fun e => match s.walkTo0 ctx e.1 false with | .ok _ => false | .error _ => true then 3
      else 0

/-- A table entry that an operation of the device visits is lost: the access is repeated in vain, and there is no queue to halt (14 R409;
DESIGN CHOICE, entry 38). -/
def State.walkerLost (s : State) (pa : Nat) : State :=
  (s.log { code := eHbmDetect, source := 0, cls := 1, outcome := 1, kind := 3, unit := .ofNat 12 (Config.stackOf (pa / 4096)).val, cause := 2,
           detail := .ofNat 64 pa }).countReplay

/-- One entry of a DROP or RELEASE; one that is lost stays. -/
def State.kvVisit (s : State) (ctx : BitVec 8) (r : Region) (isDrop : Bool) (e : Nat × Nat) : State :=
  match s.walkTo0 ctx e.1 false with
  | .error _ => s
  | .ok entry =>
    let v := s.pte entry
    if s.hbm.poisoned (entry / 32) then s.walkerLost entry
    else if pteState v = 2 then (if isDrop then s else s.setPte entry 0)
    else if pteState v = 1 then
      match s.pageAt r (ptePa v) with
      | some x =>
        let h := s.khdr r.gran.toNat x
        (s.setPte entry (if isDrop then absentEntry h.layer.toNat h.fill.toNat e.2 else 0)).unmapPage r.gran.toNat x
      | none => s.setPte entry (if isDrop then absentEntry (r.layer e.1) 0 e.2 else 0)
    else s

/-- A write to XLT_KVOP_CMD with op 1 (DROP) or 2 (RELEASE). -/
def State.wKvOp (s : State) (v : Word) : State :=
  let op := wbits v 8 2
  if s.xlt.opBusy || (op != 1 && op != 2) then s
  else
    let ctx : BitVec 8 := .ofNat 8 (wbits v 0 8)
    let s := { s with xlt := { s.xlt with opKind := .ofNat 2 op, opCtx := ctx } }
    let va := s.xlt.opVa.toNat
    let layers := wbits s.xlt.opCnt 24 8 + 1
    let pages := wbits s.xlt.opCnt 0 24
    let no := s.kvRefusal ctx va layers pages
    if no ≠ 0 then { s with xlt := { s.xlt with opResult := no } }
    else
      match s.kvUse ctx va with
      | none => s
      | some u =>
        let s := (kvVisits u.r va layers pages).foldl (fun s e => s.kvVisit ctx u.r (op == 1) e) s
        let s := s.invalidate false ctx
        { s with xlt := { s.xlt with opBusy := true } }

/-- Every entry has been visited: the context's TLB entries go, and busy clears with result 0. -/
def State.kvOpDone (s : State) : State :=
  if !s.xlt.opBusy then s
  else
    let s := s.invalidate false s.xlt.opCtx
    { s with xlt := { s.xlt with opBusy := false, opResult := 0 } }

/-! ### Prefix lookup (10 R299, R304, R305) -/

structure PfxReq where
  fmt : Nat
  layers : Nat
  model : Nat
  seqVa : Nat
  nTok : Nat
  prep : Nat
  tokVa : Nat
  deriving DecidableEq, Repr

def parsePfxReq (ws : List Word) : Option PfxReq :=
  let w0 := wAt ws 0
  if wbits w0 28 4 < 8 ∧ wbits w0 0 20 = 0 ∧ wAt ws 7 = 0 ∧ ((ws.drop 10).take 6).all (· == 0) ∧ (wAt ws 5).toNat / 16 ≤ 8192 then
    some { fmt := wbits w0 28 4, layers := wbits w0 20 8 + 1, model := (dAt ws 1).toNat, seqVa := (dAt ws 3).toNat,
           nTok := (wAt ws 5).toNat, prep := (wAt ws 6).toNat, tokVa := (dAt ws 8).toNat }
  else none

/-- The prefix hashes of whole chunks (10 R299), as bytes and read big-endian. -/
def prefixHashes (model : Nat) : List (List Nat) → List Byte → List (BitVec 96)
  | [], _ => []
  | c :: t, h =>
    let d := (sha256 (h ++ leBytes 8 model ++ (c.map fun k => leBytes 4 k).flatten)).take 12
    .ofNat 96 (d.foldl (fun a b => a * 256 + b.toNat) 0) :: prefixHashes model t d

def chunksOf (toks : List Nat) (n : Nat) : List (List Nat) := (List.range n).map fun i => (toks.drop (16 * i)).take 16

/-- Token ids of a page's slots as its header holds them (10 R284). -/
def packTokens (ids : List Nat) : BitVec 320 := .ofNat 320 (((List.range 16).map fun i => ids.getD i 0 * 2 ^ (20 * i)).foldl (· + ·) 0)

/-- Level-0 entries of chunk i, one a layer. -/
def pfxVas (u : KvUse) (r : PfxReq) (i : Nat) : List Nat :=
  (List.range r.layers).map fun ly => r.seqVa + ly * 2 ^ u.r.lshift.toNat + i * u.r.page

/-- Level-0 entries of some chunks: where the first walk that fails ends. -/
def State.pfxEntries (s : State) (ctx : BitVec 8) (vas : List Nat) : Except XFail (List (Nat × Nat)) :=
  vas.mapM fun va =>
    match s.walkTo0 ctx va false with
    | .ok e => if s.hbm.poisoned (e / 32) then .error (walkFail va (.lost e)) else .ok (va, e)
    | .error w => .error (walkFail va w)

/-- A live table entry of a chunk in one layer: its place, its page, and whether the page holds the chunk. -/
def State.pfxHit (s : State) (u : KvUse) (fmt : Nat) (hash : BitVec 96) (toks : BitVec 320) (va : Nat) : Option (Nat × Nat × Bool) :=
  (s.pfxLookup hash (u.r.layer va) u.q.val).1.map fun j =>
    let x := (s.pfxEntry j).page.toNat
    let h := s.khdr u.q.val x
    (j, x, h.tokens == toks && h.fmt.toNat == fmt && h.pstate == 2)

/-- Note what a lookup meets that is lost: an entry, or the header of its page. -/
def State.pfxSee (s : State) (u : KvUse) (hash : BitVec 96) (va : Nat) : State :=
  let s := s.pfxRead hash (u.r.layer va) u.q.val
  match (s.pfxLookup hash (u.r.layer va) u.q.val).1 with
  | some j => s.ownRead ((s.pool u.q.val).hdrPa (s.pfxEntry j).page.toNat) 64
  | none => s

/-- Match chunks from i on: the state with collisions counted, and the pages of each matched chunk. -/
def pfxMatch (u : KvUse) (r : PfxReq) : Nat → List (BitVec 96 × List Nat) → State → State × List (List (Nat × Nat × Nat))
  | _, [], s => (s, [])
  | i, (hash, ids) :: rest, s =>
    let hits := (pfxVas u r i).map fun va => (s.pfxHit u r.fmt hash (packTokens ids) va).map fun e => (va, e)
    let s := (pfxVas u r i).foldl (fun s va => s.pfxSee u hash va) s
    let bad := (hits.filter fun e => match e with | some e => !e.2.2.2 | none => false).length
    let s := { s with xlt := { s.xlt with pfxCollide := (List.range bad).foldl (fun n _ => satInc n) s.xlt.pfxCollide } }
    if hits.all fun e => match e with | some e => e.2.2.2 | none => false then
      let t := pfxMatch u r (i + 1) rest s
      (t.1, (hits.filterMap fun e => e.map fun e => (e.1, e.2.1, e.2.2.1)) :: t.2)
    else (s, [])

/-- Map one matched page in one layer: refcount, entry with wr = 0, stamp. -/
def State.pfxMap (s : State) (ctx : BitVec 8) (u : KvUse) (e : Nat × Nat × Nat) : State :=
  match s.walkTo0 ctx e.1 false with
  | .error _ => s
  | .ok entry =>
    let h := s.khdr u.q.val e.2.2
    let s := s.setKhdr u.q.val e.2.2 { h with refcount := h.refcount + 1 }
    let s := s.mapPage u.q.val e.2.2 entry false
    s.setPfx e.2.1 { s.pfxEntry e.2.1 with stamp := lo32 s.fab.cnt }

/-- Pages of one chunk from the free stack; none when it runs empty within the chunk. -/
def pfxPages (u : KvUse) : List Nat → State → Option (List (Nat × Nat) × State)
  | [], s => some ([], s)
  | va :: t, s =>
    match s.popPage u.q.val with
    | none => none
    | some (x, s) => (pfxPages u t s).map fun r => ((va, x) :: r.1, r.2)

/-- Prepare chunks: their number, and the pages that may be published. -/
def pfxPrepare (ctx : BitVec 8) (u : KvUse) (r : PfxReq) : Nat → List (BitVec 96 × List Nat) → State →
    State × Nat × List (Fin 5 × Nat × BitVec 8 × Nat)
  | _, [], s => (s, 0, [])
  | i, (hash, ids) :: rest, s =>
    match pfxPages u (pfxVas u r i) s with
    | none => (s, 0, [])
    | some (ps, s) =>
      let s := ps.foldl (fun s e =>
        match s.walkTo0 ctx e.1 false with
        | .error _ => s
        | .ok entry =>
          let s := s.newKhdr u.q.val e.2 { fmt := .ofNat 4 r.fmt, layer := .ofNat 8 (u.r.layer e.1), pstate := 1, refcount := 1,
                                           pubReq := true, hash := hash, tokens := packTokens ids }
          s.mapPage u.q.val e.2 entry true) s
      let t := pfxPrepare ctx u r (i + 1) rest s
      (t.1, t.2.1 + 1, (ps.map fun e => (u.q, e.2, ctx, e.1)) ++ t.2.2)

/-- How a command that reads memory can fail: a code with the words of its result. -/
abbrev CmdFail := Code × List Word

/-- The result of a failed translation or read: the cause in W0 and the virtual address in W2-W3 (13 R383). -/
def XFail.result (e : XFail) : CmdFail := (e.code, [.ofNat 32 e.cause, 0, .ofNat 32 e.va, .ofNat 32 (e.va / 2 ^ 32)])

/-- PREFIX_LOOKUP: the state with matched and prepared counts (10 R305). -/
def State.prefixLookup (s : State) (qid : BitVec 12) (ctx : BitVec 8) (va : Nat) : Except CmdFail (State × Nat × Nat) :=
  match s.vread none ctx va 64 with
  | .error e => .error e.result
  | .ok bs =>
    match parsePfxReq (leWords 16 bs) with
    | none => .error (ePfxRequest, [])
    | some r =>
      match s.kvUse ctx r.seqVa with
      | none => .error (ePfxRequest, [])
      | some u =>
        let c := r.nTok / 16
        if !s.xlt.pfxEn || r.seqVa % u.r.page ≠ 0 || (decide (r.layers > 1) && u.r.lshift == 0) ||
            (decide (c > 0) && decide (r.seqVa + (r.layers - 1) * 2 ^ u.r.lshift.toNat + c * u.r.page > u.r.start + u.r.bytes)) then .error (ePfxRequest, [])
        else
          match s.vread none ctx r.tokVa (4 * r.nTok) with
          | .error e => .error e.result
          | .ok tb =>
            let toks := (leWords r.nTok tb).map (·.toNat)
            if toks.any fun t => decide (t ≥ 2 ^ 20) then .error (ePfxRequest, [])
            else
              match s.pfxEntries ctx ((List.range c).map fun i => pfxVas u r i).flatten with
              | .error e => .error e.result
              | .ok es =>
                if es.any fun e => pteState (s.pte e.2) != 0 then .error (ePfxRequest, [])
                else
                  let chunks := chunksOf toks c
                  let hs := (prefixHashes r.model chunks (List.replicate 12 0)).zip chunks
                  let m := pfxMatch u r 0 hs s
                  let s := m.2.foldl (fun s ps => ps.foldl (fun s e => s.pfxMap ctx u e) s) m.1
                  let matched := m.2.length
                  let held := (s.xlt.ranges.filter fun g => g.qid == qid).length
                  let n := if held ≥ 16 then 0 else min r.prep (c - matched)
                  let p := pfxPrepare ctx u r matched ((hs.drop matched).take n) s
                  let s := if p.2.2.isEmpty then p.1
                    else { p.1 with xlt := { p.1.xlt with ranges := p.1.xlt.ranges ++ [{ qid := qid, pages := p.2.2 }] } }
                  .ok (s, matched, p.2.1)

/-! ### Publication at commit (10 R306) -/

/-- Treat one prepared page; true when it stays pending. -/
def State.publishPage (s : State) (e : Fin 5 × Nat × BitVec 8 × Nat) : State × Bool :=
  let q := e.1.val
  let x := e.2.1
  let h := s.khdr q x
  let entry := if s.maps e.2.2.1 e.2.2.2 q x then (s.walkTo0 e.2.2.1 e.2.2.2 false).toOption else none
  match entry with
  | none => (s, false)
  | some a =>
    if !h.pubReq || h.pstate != 1 then (s, false)
    else if h.fill != 16 then (s, true)
    else
      let r := s.pfxInsert h.hash h.layer.toNat q x
      if r.2 then (((r.1.setKhdr q x { h with pstate := 2, pubReq := false }).mapPage q x a false).invalidate false e.2.2.1, false)
      else (r.1.setKhdr q x { h with pubReq := false }, false)

def publishPages : List (Fin 5 × Nat × BitVec 8 × Nat) → State → State × List (Fin 5 × Nat × BitVec 8 × Nat)
  | [], s => (s, [])
  | e :: t, s =>
    let r := s.publishPage e
    let q := publishPages t r.1
    (q.1, if r.2 then e :: q.2 else q.2)

/-- Publish the ranges of a queue; those with nothing pending leave it. -/
def State.publish (s : State) (qid : BitVec 12) : State :=
  let mine := s.xlt.ranges.filter fun r => r.qid == qid
  let s := { s with xlt := { s.xlt with ranges := s.xlt.ranges.filter fun r => r.qid != qid } }
  mine.foldl (fun s r =>
    let t := publishPages r.pages s
    if t.2.isEmpty then t.1 else { t.1 with xlt := { t.1.xlt with ranges := t.1.xlt.ranges ++ [{ r with pages := t.2 }] } }) s

end Sys2Proof.Machine
end

