-- ==== Sys2Proof/Machine/Rdma.lean ====
section
/-!
DEFINITION. The export engine's queue pairs (13 R394-R401): opening and closing, sending, acknowledgements, retries, rates.
-/

namespace Sys2Proof.Machine

def pmtuBytes (p : BitVec 3) : Nat := 128 * 2 ^ p.toNat

/-- Packets of a page of pool q at a path MTU. -/
def packets (q : Nat) (pmtu : BitVec 3) : Nat := (granOf q + pmtuBytes pmtu - 1) / pmtuBytes pmtu

def Handoff.last (h : Handoff) (pmtu : BitVec 3) : Option (BitVec 24) :=
  h.psn.map fun p => p + .ofNat 24 (packets h.pool.val pmtu) - 1

/-- a is at or before b, modulo 2^24. -/
def psnLe (a b : BitVec 24) : Bool := decide ((b - a).toNat < 2 ^ 23)

/-- The open subscriber with a local QPN: its sequence and slot. -/
def State.subOf (s : State) (lqpn : BitVec 24) : Option (Word × Nat) :=
  (s.exp.seqs.filterMap fun e =>
    ([0, 1, 2, 3].find? fun u => let b := sget ({} : Sub) e.2.subs u; b.isOpen && b.lqpn == lqpn).map fun u => (BitVec.ofNat 32 e.1, u)).head?

/-- The network fields of a subscriber's packets (13 R394, R396). -/
def State.roceNet (s : State) (b : Sub) : Net :=
  { ipv6 := b.ipv6, srcAddr := s.ownAddr b.ipv6, dstAddr := b.raddr, srcPort := b.sport, dstPort := 4791, mac := b.mac, dscp := s.qce.dscp }

/-- The packets of one RDMA WRITE of `bs` from PSN `first` on (13 R394, R398). -/
def writePackets (pmtu : BitVec 3) (first : BitVec 24) (addr : Dword) (rkey imm : Word) (bs : List Byte) : List RdmaPkt :=
  let m := pmtuBytes pmtu
  let n := (bs.length + m - 1) / m
  (List.range n).map fun i =>
    let last := i + 1 == n
    { op := if i = 0 then (if last then .onlyImm else .first) else if last then .lastImm else .middle,
      psn := first + .ofNat 24 i, reth := if i = 0 then some (addr, rkey, bs.length) else none,
      imm := if last then some imm else none, bytes := (bs.drop (i * m)).take m }

/-- Send a page's packets from PSN `from'` on: one RDMA WRITE whose last packet carries the immediate (13 R398); packets sent
again are as they were (13 R395). A page that cannot be read drops every open subscriber of the sequence (14 R409). -/
def State.sendPage (s : State) (seq : Word) (u : Nat) (h : Handoff) (first from' : BitVec 24) : State :=
  let b := s.sub seq u
  let g := granOf h.pool.val
  let pa := (s.pool h.pool.val).framePa h.pool.val h.page
  match s.hbm.poisonIn pa g with
  | some _ => s.dropSubs seq 6
  | none =>
    let at' : Dword := b.rBase + .ofNat 64 (h.layer.toNat * b.lstride.toNat + h.index * g)
    let imm : Word := .ofNat 32 (b.tag.toNat * 2 ^ 21 + h.layer.toNat * 2 ^ 13 + h.index % 8192)
    ((writePackets b.pmtu first at' b.rkey imm (s.hbm.read pa g)).drop (from' - first).toNat).foldl
      (fun s p => s.emit (.rdma (s.roceNet b) b.rqpn p)) s

def Sub.inFlight (b : Sub) : Nat := (b.queue.filter fun h => h.psn.isSome).length

/-- A subscriber's next page can go: one waits, and there is room in the window (13 R395, R399). -/
def Sub.ready (b : Sub) : Bool := b.isOpen && (b.queue.any fun h => h.psn.isNone) && decide (b.inFlight < b.window) && b.rnrWait.isNone

/-- The turn is a subscriber's (13 R395): no other that is ready comes sooner in ascending local QPN after the one that sent last.
DESIGN CHOICE: one below the port rate may be passed over, since its rate decides when it sends (entry 49). -/
def State.turn (s : State) (lqpn : BitVec 24) : Bool :=
  let away (q : BitVec 24) : Nat := (q - s.exp.lastTurn - 1).toNat
  !(s.exp.seqs.any fun e => e.2.subs.any fun b => b.2.ready && decide (b.2.rate ≥ 65536) && decide (away b.2.lqpn < away lqpn))

/-- Send the next page of a subscriber whose turn it is (13 R395, R399). -/
def State.pageSend (s : State) (lqpn : BitVec 24) : State :=
  match s.subOf lqpn with
  | none => s
  | some (seq, u) =>
    let b := s.sub seq u
    match b.queue.findIdx? fun h => h.psn.isNone with
    | none => s
    | some i =>
      if !b.ready || !s.turn lqpn || s.err.drained then s
      else
        match b.queue[i]? with
        | none => s
        | some h =>
          let s := s.modSub seq u fun b =>
            { b with queue := b.queue.set i { h with psn := some b.psn }, psn := b.psn + .ofNat 24 (packets h.pool.val b.pmtu) }
          let s := { s with exp := { s.exp with lastTurn := lqpn } }
          s.sendPage seq u h b.psn b.psn

/-- An ACK covers every PSN up to `psn`: pages whose last PSN it covers are acknowledged, in order (13 R399). -/
def State.roceAcked (s : State) (seq : Word) (u : Nat) (psn : BitVec 24) : State :=
  let b := s.sub seq u
  if b.una == b.psn || !psnLe b.una psn || !psnLe psn (b.psn - 1) then s
  else
    let done := b.queue.takeWhile fun h => match h.last b.pmtu with | some e => psnLe e psn | none => false
    let s := done.foldl (fun s h => s.clearPend h.pool.val h.page u) s
    s.modSub seq u fun b => { b with una := psn + 1, acked := b.acked + done.length, queue := b.queue.drop done.length, tries := 0, rnrTries := 0 }

/-- Go back to the first unacknowledged PSN (13 R395). -/
def State.goBack (s : State) (seq : Word) (u : Nat) : State :=
  let b := s.sub seq u
  b.queue.foldl (fun s h =>
    match h.psn with
    | none => s
    | some p => if (s.sub seq u).isOpen then s.sendPage seq u h p (if psnLe p b.una then b.una else p) else s) s

/-- A retry after a sequence-error NAK or a timeout: 7 tries, then the subscriber is dropped. -/
def State.retrySub (s : State) (seq : Word) (u : Nat) : State :=
  if (s.sub seq u).una == (s.sub seq u).psn then s
  else if (s.sub seq u).tries ≥ 7 then s.dropSub seq u 2
  else (s.modSub seq u fun b => { b with tries := b.tries + 1 }).goBack seq u

def State.withSub (s : State) (lqpn : BitVec 24) (f : State → Word → Nat → State) : State :=
  match s.subOf lqpn with
  | some (seq, u) => f s seq u
  | none => s

def State.roceAck (s : State) (lqpn psn : BitVec 24) : State := s.withSub lqpn fun s seq u => s.roceAcked seq u psn
/-- A NAK acknowledges what stands before its PSN. -/
def State.nakSequence (s : State) (lqpn psn : BitVec 24) : State :=
  s.withSub lqpn fun s seq u => (s.roceAcked seq u (psn - 1)).retrySub seq u
def State.nakRnr (s : State) (lqpn psn : BitVec 24) (timer : Nat) : State :=
  s.withSub lqpn fun s seq u =>
    let s := s.roceAcked seq u (psn - 1)
    if (s.sub seq u).rnrTries ≥ 7 then s.dropSub seq u 2
    else s.modSub seq u fun b => { b with rnrTries := b.rnrTries + 1, rnrWait := some timer }
def State.rnrExpiry (s : State) (lqpn : BitVec 24) : State :=
  s.withSub lqpn fun s seq u =>
    if (s.sub seq u).rnrWait.isNone then s else (s.modSub seq u fun b => { b with rnrWait := none }).goBack seq u
def State.nakRemote (s : State) (lqpn : BitVec 24) : State := s.withSub lqpn fun s seq u => s.dropSub seq u 3
def State.roceTimeout (s : State) (lqpn : BitVec 24) : State :=
  s.withSub lqpn fun s seq u => if (s.sub seq u).rnrWait.isSome then s else s.retrySub seq u
/-- A CNP halves the rate; 50 us without one raise it by 1/64 of the port rate (13 R395). -/
def State.cnp (s : State) (lqpn : BitVec 24) : State :=
  s.withSub lqpn fun s seq u => s.modSub seq u fun b => { b with rate := b.rate / 2 }
def State.rateUp (s : State) (lqpn : BitVec 24) : State :=
  s.withSub lqpn fun s seq u => s.modSub seq u fun b => { b with rate := min 65536 (b.rate + 1024) }

/-! ### EXPORT_OPEN and EXPORT_CLOSE (13 R396, R400) -/

def State.lqpnUsed (s : State) (lqpn : BitVec 24) : Bool :=
  s.exp.seqs.any fun e => e.2.subs.any fun b => b.2.opened && b.2.lqpn == lqpn

/-- Word i of the command is word i - 1 of `b`. -/
def State.exportOpen (s : State) (qid : BitVec 12) (b : List Word) : State × CmdFail :=
  let w (i : Nat) : Word := wAt b (i - 1)
  let seq := w 1
  let u := wbits (w 2) 30 2
  let ipv6 := bit1 (w 2) 29
  let pmtu := wbits (w 2) 24 3
  let lqpn : BitVec 24 := .ofNat 24 (wbits (w 2) 0 24)
  let win := wbits (w 16) 0 8
  let lag := wbits (w 17) 0 16
  let ok := wbits (w 2) 27 2 == 0 && decide (3 ≤ pmtu ∧ pmtu ≤ 5) && decide (0x1000 ≤ lqpn.toNat ∧ lqpn.toNat ≤ 0x1FFF) &&
    wbits (w 3) 24 8 == 0 && wbits (w 4) 24 8 == 0 && (ipv6 || (w 5 == 0 && w 6 == 0 && w 7 == 0)) && wbits (w 9) 0 16 == 0 &&
    wbits (w 11) 16 16 == 0 && wbits (w 16) 8 13 == 0 && wbits (w 17) 16 16 == 0
  let e := s.expSeq seq
  if !ok || (s.sub seq u).opened || e.closing.isSome || s.lqpnUsed lqpn then (s, (eExportOpen, []))
  else
    let psn : BitVec 24 := .ofNat 24 (wbits (w 4) 0 24)
    let b' : Sub :=
      { isOpen := true, opened := true, qid := qid, ipv6 := ipv6, pmtu := .ofNat 3 pmtu, lqpn := lqpn, rqpn := .ofNat 24 (wbits (w 3) 0 24),
        psn := psn, una := psn, raddr := w 5 ++ w 6 ++ w 7 ++ w 8, sport := .ofNat 16 (wbits (w 9) 16 16),
        mac := .ofNat 48 (wbits (w 11) 0 16 * 2 ^ 32 + (w 10).toNat), rBase := w 13 ++ w 12, rkey := w 14, lstride := w 15,
        tag := .ofNat 11 (wbits (w 16) 21 11), window := if win = 0 then 64 else win, lagLimit := if lag = 0 then 1024 else lag }
    (s.modSub seq u fun _ => b', (0, [.ofNat 32 e.handoffs]))

/-- A close begins: the code that refuses it, if any. -/
def State.exportClose (s : State) (qid : BitVec 12) (seq : Word) : State × Option Code :=
  let e := s.expSeq seq
  if e.closing.isSome || !(e.subs.any fun b => b.2.opened) then (s, some eExportOpen)
  else (s.modSeq seq fun e => { e with closing := some qid }, none)

/-- Result words of a close. -/
def ExpSeq.report (e : ExpSeq) : List Word :=
  ([0, 1, 2, 3].map fun u =>
    let b := sget ({} : Sub) e.subs u
    if b.opened then [BitVec.ofNat 32 b.made, .ofNat 32 b.acked, .ofNat 32 (b.cause.toNat * 2 ^ 24 + 1)] else [0, 0, 0]).flatten

/-- The close completes once every open subscriber has acknowledged its hand-offs; QPs and slots are released. True when it
completed. -/
def State.exportCloseDone (s : State) (seq : Word) : State × Bool :=
  let e := s.expSeq seq
  match e.closing with
  | none => (s, false)
  | some qid =>
    if e.openSubs.any fun u => !(s.sub seq u).queue.isEmpty then (s, false)
    else
      let s := s.modSeq seq fun e => { e with subs := [], closing := none }
      match (s.queue qid).cur with
      | some (m, _) => ((s.complete qid m.cookie { cmd := 6, type := 1, result := e.report }).clearCur qid, true)
      | none => (s, true)

end Sys2Proof.Machine
end

