-- ==== Sys2Proof/Machine/Topo.lean ====
section
/-!
DEFINITION. The live-link map: the beat tree (11 R311, R324), its timing constants (R325), holds on a boundary (R326-R331), lost links and
links that enter service (R316, R323, R331, R334).
-/

namespace Sys2Proof.Machine

/-! ### Topology -/

/-- The port at the far end of a link. -/
def oppPort (p : Nat) : Nat := if p % 2 = 0 then p + 1 else p - 1

/-- The device that port p of device d leads to (11 R311). -/
def State.nbrOf (s : State) (d p : Nat) : Option Nat :=
  let a := portAxis (Fin.ofNat 6 p)
  let n := s.sysDim a
  let i := devCoord d a
  let plus := p % 2 == 0
  if n ≤ 1 then none
  else if n = 2 then (if plus && i == 0 then some (setDevCoord d a 1) else if !plus && i == 1 then some (setDevCoord d a 0) else none)
  else some (setDevCoord d a (if plus then (i + 1) % n else (i + n - 1) % n))

/-- Two names of the same link. -/
def State.sameLink (s : State) (a b : LinkId) : Bool :=
  a == b || (s.nbrOf a.dev.toNat a.port.val == some b.dev.toNat && b.port.val == oppPort a.port.val)
def State.hasLink (s : State) (ls : List LinkId) (k : LinkId) : Bool := ls.any fun l => s.sameLink l k
def State.dropLink (s : State) (ls : List LinkId) (k : LinkId) : List LinkId := ls.filter fun l => !s.sameLink l k

/-- The link at a port, seen from this end and from the far end. -/
def State.linkEnds (s : State) (p : Fin 6) : LinkId × LinkId := (⟨s.devid, p⟩, ⟨(s.port p).nbr, Fin.ofNat 6 (oppPort p.val)⟩)
/-- This device's port of a link. -/
def State.ownPorts (s : State) (k : LinkId) : List (Fin 6) := allPorts.filter fun p => s.sameLink ⟨s.devid, p⟩ k

/-- The link at port p of device d is in service, as the map has it; of its own links this device knows more. -/
def State.inMap (s : State) (d p n : Nat) : Bool :=
  let k : LinkId := ⟨.ofNat 12 d, Fin.ofNat 6 p⟩
  !s.hasLink s.fab.dead k && !s.hasLink s.fab.untrained k &&
    (d != s.devid.toNat || s.portUp (Fin.ofNat 6 p)) && (n != s.devid.toNat || s.portUp (Fin.ofNat 6 (oppPort p)))

/-- A device whose fabric island passes symbols on: live, or drained (14 R427). -/
def State.present (s : State) (d : Nat) : Bool := (s.fab.liveIds ++ s.fab.drainedIds).any fun i => i.toNat == d

/-- Neighbours over live links: (port, device). -/
def State.liveNbrs (s : State) (d : Nat) : List (Nat × Nat) :=
  [0, 1, 2, 3, 4, 5].filterMap fun p =>
    match s.nbrOf d p with
    | some n => if s.present n && s.inMap d p n then some (p, n) else none
    | none => none

/-- Distances from a root, breadth first. -/
def State.bfs (s : State) : Nat → List Nat → Nat → List (Nat × Nat) → List (Nat × Nat)
  | 0, _, _, seen => seen
  | fuel + 1, front, dist, seen =>
    let next := (front.map fun d => (s.liveNbrs d).map (·.2)).flatten.foldl
      (fun l n => if (seen.any fun e => e.1 == n) || l.contains n then l else l ++ [n]) []
    if next.isEmpty then seen else s.bfs fuel next (dist + 1) (seen ++ next.map fun n => (n, dist + 1))

def State.distances (s : State) (root : Nat) : List (Nat × Nat) := s.bfs 64 [root] 0 [(root, 0)]

/-- A device's parent: the lowest port whose neighbour is one hop closer to the root (11 R324). -/
def State.parentPort (s : State) (ds : List (Nat × Nat)) (d : Nat) : Option (Nat × Nat) :=
  match ds.find? fun e => e.1 == d with
  | none => none
  | some e => (s.liveNbrs d).find? fun n => ds.any fun f => f.1 == n.2 && f.2 + 1 == e.2

/-- Ports to the children of this device in the tree of a root. -/
def State.children (s : State) (root : Nat) : List (Fin 6) :=
  let ds := s.distances root
  let me := s.devid.toNat
  (s.liveNbrs me).filterMap fun n => if (s.parentPort ds n.2).any fun q => q.1 == oppPort n.1 && q.2 == me then some (Fin.ofNat 6 n.1) else none

/-- Port toward a device. -/
def State.portToward (s : State) (dev : Nat) : Option (Fin 6) :=
  (s.parentPort (s.distances dev) s.devid.toNat).map fun q => Fin.ofNat 6 q.1

/-- Port to the parent, and ports to the children, in the beat tree. -/
def State.treeParent (s : State) : Option (Fin 6) := if s.fab.isLeader then none else s.portToward s.fab.leader.toNat
def State.treeChildren (s : State) : List (Fin 6) := s.children s.fab.leader.toNat

/-! ### Timing constants (11 R325) -/

/-- Delay of a link in 1/16 fabric cycle. -/
def State.delayOf (s : State) (d p n : Nat) : Nat :=
  if d = s.devid.toNat then (s.port (Fin.ofNat 6 p)).delta.toNat
  else if n = s.devid.toNat then (s.port (Fin.ofNat 6 (oppPort p))).delta.toNat
  else Config.linkDelay d p

/-- Sum along the tree path from the root: link delay and 24 fabric cycles a hop. -/
def State.pathDelay (s : State) (ds : List (Nat × Nat)) : Nat → Nat → Nat
  | 0, _ => 0
  | fuel + 1, d =>
    match s.parentPort ds d with
    | some (p, n) => s.delayOf n (oppPort p) d + 384 + s.pathDelay ds fuel n
    | none => 0

/-- A_lead and h in units of 10 ns, over the live devices; 24 units of 1/16 fabric cycle make 1 ns. -/
def State.timing (s : State) : Nat × Nat :=
  let ds := s.distances s.fab.leader.toNat
  let d := (ds.filter fun e => s.fab.liveIds.any fun i => i.toNat == e.1).foldl (fun m e => max m (s.pathDelay ds 64 e.1)) 0
  let a := ceilDiv (d + 1200) 240
  (a, ceilDiv (a * 240 + d + 1200) 240)

def State.retime (s : State) : State :=
  let t := s.timing
  { s with fab := { s.fab with aLead := .ofNat 12 t.1, horizon := .ofNat 12 t.2 } }

/-! ### A launch and a link (11 R331) -/

/-- A launch is affected when its box holds both ends. -/
def State.affectedBy (s : State) (l : Launch) (k : LinkId) : Bool :=
  match s.schedOf l with
  | none => false
  | some x =>
    let has (d : Nat) : Bool := x.map.any fun p => s.devAt x p == d
    has k.dev.toNat && (s.nbrOf k.dev.toNat k.port.val).any has

/-! ### Who holds (04 R118, 11 R326, R327, R330-R332) -/

/-- The boundaries that a launch's obligations can hold, each with its core: beat m of the launch ends at boundary S + m + 1. A launch that
is suspended, or that a loss which no boundary has marked affects, holds none. -/
def State.holdsOf (s : State) (l : Launch) (marks : List (Nat × Word)) : List (Nat × Dword) :=
  match l.start with
  | none => []
  | some a => if l.suspended.isSome || s.fab.unmarked.any (s.affectedBy l) then [] else marks.map fun m => (m.1, a + m.2.setWidth 64 + 1)

def State.residentHolds (s : State) : List (Nat × Dword) :=
  match s.resident with
  | some l => s.holdsOf l ((List.range 64).filterMap fun c => (s.core c).obligation.map fun m => (c, m))
  | none => []

/-- Those of the resident launch, and of stopped launches whose COMPLETION has not left (11 R330). A drained device holds none (14 R427). -/
def State.obligations (s : State) : List (Nat × Dword) :=
  if s.err.drained then [] else s.residentHolds ++ (s.heldObls.map fun h => s.holdsOf h.launch h.marks).flatten

/-- Logical cores whose obligation holds the next boundary. -/
def State.holders (s : State) : List Nat := (s.obligations.filter fun o => o.2 == s.fab.cnt + 1).map (·.1)

/-- Obligations that assert HOLD: from the boundary's check point until it passes. -/
def State.asserted (s : State) : List (Nat × Dword) := s.obligations.filter fun o => decide (s.fab.cnt < o.2) && decide (o.2 ≤ s.fab.checkedTo)

/-- Lowest of the holders that reach this device: its children and itself. -/
def State.lowestHolder (s : State) : Option (BitVec 12) :=
  let hs := allPorts.filterMap (fun p => (s.port p).childHold) ++ (if s.fab.holding then [s.devid] else [])
  hs.foldl (fun b h => match b with
    | none => some h
    | some m => some (if h < m then h else m)) none

/-- What combines to a new lowest holder travels up the tree; the leader notes it. -/
def State.tellHold (old : Option (BitVec 12)) (s : State) : State :=
  let new := s.lowestHolder
  let s := match s.fab.isLeader, new with
    | true, some h =>
      { s with fab := { s.fab with lastStretch := some (match s.fab.lastStretch with
          | some b => (if h < b.1 then h else b.1, b.2) | none => (h, 0)) } }
    | _, _ => s
  if new = old then s
  else
    match s.treeParent, new with
    | some p, some h => s.emit (.sym p (.hold true h))
    | some p, none => s.emit (.sym p (.hold false (old.getD 0)))
    | none, _ => s

/-- Assert or release this device's own HOLD. -/
def State.refreshHold (s : State) : State :=
  let hs := s.asserted
  let sets := hs.foldl (fun (t : Sparse (BitVec 8)) (o : Nat × Dword) => smod 0 t o.2.toNat fun m => m ||| (1#8 <<< (o.1 / 8))) s.fab.heldSets
  State.tellHold s.lowestHolder { s with fab := { s.fab with holding := !hs.isEmpty, heldSets := sets } }

/-- The live-link map has changed: HOLDs of former children go, the present parent learns of this device's, and the timing follows
(11 R324-R326). -/
def State.mapChanged (s : State) : State :=
  let kids := s.treeChildren
  let s := allPorts.foldl (fun s p => if kids.contains p then s else s.modPort p fun q => { q with childHold := none }) s
  let s := match s.treeParent, s.lowestHolder with
    | some p, some h => s.emit (.sym p (.hold true h))
    | _, _ => s
  s.retime

/-! ### Lost links (11 R316, R323, R331) -/

/-- A launch halts with E_LINK_DOWN, suspended from now on; a barrier that it waits in is dropped. -/
def State.haltForLoss (s : State) (l : Launch) (k : LinkId) : State :=
  let s := if l.cond == .pending then s
    else
      let s := match s.collOf l.jobTag 0xFFF with | some c => s.dropColl c | none => s
      s.modLaunch l.qid fun l => { l with suspended := l.suspended.or (some s.fab.cnt), goAt := none, resumeOrder := none, barrierDue := false }
  s.halt l eLinkDown { code := eLinkDown, port := k.port.val, dev := some k.dev }

/-- The lowest live device; none when no device is live. -/
def State.lowestLive (s : State) : Option Nat :=
  s.fab.liveIds.foldl (fun b i => match b with | none => some i.toNat | some m => some (min m i.toNat)) none

/-- Only the part of the system that holds the lowest live device keeps the beat: a device of another part leaves it, with its launches
halted, and one of this part no longer counts those that left (11 R323). -/
def State.partition (s : State) (k : LinkId) : State :=
  match s.lowestLive with
  | none => s
  | some m =>
    let ds := s.distances m
    if ds.any fun e => e.1 == s.devid.toNat then
      { s with fab := { s.fab with liveIds := s.fab.liveIds.filter fun i => ds.any fun e => e.1 == i.toNat } }
    else
      let s := { s with fab := { s.fab with parted := true, live := false, isLeader := false, announced := [], holding := false, unmarked := [], liveIds := [] } }
      s.launches.foldl (fun s l => s.haltForLoss l k) s

def Port.lose (q : Port) : Port :=
  { q with state := .down, downs := satInc q.downs, replay := [], backlog := [], tries := 0, discarding := false, switch := none, childHold := none }

/-- This device learns of a loss, unless it knows of it: it takes its own end down, floods the loss on, and its tree changes. A link that
was lost before is lost again when it has been in standby. -/
def State.learnLoss (s : State) (k : LinkId) (but : Option (Fin 6)) : State :=
  let mine := (s.ownPorts k).filter fun p => s.linkPorts.contains p
  let known := s.hasLink s.fab.unmarked k || (s.hasLink s.fab.dead k && !s.hasLink s.fab.standby k)
  if known && mine.isEmpty then s
  else
    let add (ls : List LinkId) : List LinkId := if s.hasLink ls k then ls else ls ++ [k]
    let s := { s with fab := { s.fab with dead := add s.fab.dead, unmarked := add s.fab.unmarked, standby := s.dropLink s.fab.standby k,
                                          untrained := s.dropLink s.fab.untrained k } }
    let s := mine.foldl (fun s p => s.modPort p Port.lose) s
    let s := s.symOn (s.linkPorts.filter fun p => some p != but) (.link (.loss k))
    s.mapChanged.partition k

/-- A port's link goes down (11 R316). -/
def State.linkDown (s : State) (p : Fin 6) : State := if s.linkPorts.contains p then s.learnLoss (s.linkEnds p).1 none else s

/-! ### Links that return (11 R334) -/

/-- A link is in standby. -/
def State.learnStandby (s : State) (k : LinkId) (but : Option (Fin 6)) : State :=
  if s.hasLink s.fab.standby k then s
  else
    let s := { s with fab := { s.fab with standby := s.fab.standby ++ [k], dead := if s.hasLink s.fab.dead k then s.fab.dead else s.fab.dead ++ [k] } }
    s.symOn (s.linkPorts.filter fun p => some p != but) (.link (.standby k))

def Port.enter (q : Port) : Port :=
  { q with state := .up, rxSeq := 0, txSeq := 0, discarding := false, replay := [], backlog := [], tries := 0 }

/-- A link enters service: this device's end of it, if it has one, and the map. -/
def State.learnService (s : State) (k : LinkId) (but : Option (Fin 6)) : State :=
  let mine := (s.ownPorts k).filter fun p => (s.port p).state == .standby
  if mine.isEmpty && !s.hasLink s.fab.dead k && !s.hasLink s.fab.untrained k then s
  else
    let s := { s with fab := { s.fab with dead := s.dropLink s.fab.dead k, standby := s.dropLink s.fab.standby k, untrained := s.dropLink s.fab.untrained k } }
    let s := mine.foldl (fun s p => s.modPort p Port.enter) s
    (s.symOn (s.linkPorts.filter fun p => some p != but) (.link (.service k))).mapChanged

/-- The links of a slot's route, each named by the end that it leaves. -/
def State.routeLinks (s : State) (dev : Nat) : List (Axis × Bool × Nat) → List LinkId
  | [] => []
  | (a, plus, n) :: t =>
    let sys := s.sysDim a
    let at' (i : Nat) : Nat := setDevCoord dev a ((devCoord dev a + (if plus then i else i * (sys - 1))) % sys)
    ((List.range n).map fun i => ⟨.ofNat 12 (at' i), hopPort a sys (devCoord (at' i) a) plus⟩) ++ s.routeLinks (at' n) t

/-- The links that an epoch's routes use, as far as this device's image says: those of its slots, and those to neighbours in the box, over
which collectives step, but where a slot takes another way there (11 R320, R334, 12 R342, entry 56). -/
def State.epochLinks (s : State) (x : Sched) : List LinkId :=
  let used := x.slots.filter (·.used)
  (used.map fun t => s.routeLinks s.devid.toNat t.legs).flatten ++
    (allPorts.filter fun p => (s.nbrOf s.devid.toNat p.val).any fun n =>
      (x.map.any fun m => s.devAt x m == n) && !(used.any fun t => s.routeEnd x t == some n)).map fun p => ⟨s.devid, p⟩

/-- At the boundary at which a launch begins or goes on, the links in standby that its epoch's routes use enter service (11 R334). -/
def State.enterService (s : State) (l : Launch) : State :=
  match s.schedOf l with
  | none => s
  | some x =>
    (s.epochLinks x).foldl (fun s k =>
      if s.hasLink s.fab.standby k || (s.ownPorts k).any fun p => (s.port p).state == .standby then s.learnService k none else s) s

end Sys2Proof.Machine
end

