-- ==== Sys2Proof/Machine/Life.lean ====
section
/-!
DEFINITION. The life of a launch: acceptance (13 R383, 09 R274, R275), residency, save and restore (04 R103, R135, R136),
the launch and resume barriers (01 R25, 11 R332-R334), commit (13 R384, 10 R306).
-/

namespace Sys2Proof.Machine

/-- Halted, and not resumed while it is saved. -/
def Launch.isHalted (l : Launch) : Bool := l.run.isHalted && l.resumeOrder.isNone

/-! ### Acceptance -/

/-- The fields of a LAUNCH body: word i of the command is word i - 1 of `b`. -/
structure LaunchReq where
  handle : BitVec 4
  cont : Bool
  epoch : BitVec 16
  jobTag : Word
  lead : BitVec 12
  members : Nat
  deadline : Nat
  argLen : Nat
  argVa : Nat
  seqVa : Nat
  nSeq : Nat
  seqMax : Nat
  bktVa : Nat
  resVa : Nat
  resLen : Nat
  /-- every res field is 0 -/
  resOk : Bool
  deriving DecidableEq, Repr

def parseLaunch (b : List Word) : LaunchReq :=
  let w (i : Nat) : Word := wAt b (i - 1)
  let d (i : Nat) : Nat := (dAt b (i - 1)).toNat
  let dl := wbits (w 4) 16 16
  { handle := .ofNat 4 (wbits (w 1) 28 4), cont := bit1 (w 1) 27, epoch := .ofNat 16 (wbits (w 1) 0 16), jobTag := w 2,
    lead := .ofNat 12 (wbits (w 3) 20 12), members := wbits (w 3) 8 12 + 1, deadline := if dl = 0 then 256 else dl,
    argLen := wbits (w 4) 0 9, argVa := d 5, seqVa := d 7, nSeq := wbits (w 9) 16 16, seqMax := wbits (w 9) 0 16, bktVa := d 10,
    resVa := d 12, resLen := wbits (w 14) 0 7,
    resOk := wbits (w 1) 16 11 == 0 && wbits (w 3) 0 8 == 0 && wbits (w 4) 9 7 == 0 && wbits (w 14) 7 25 == 0 }

/-- Member index of a device in a schedule's box. -/
def State.memberOf (s : State) (x : Sched) (dev : BitVec 12) : Option Nat := x.map.findIdx? fun p => s.devAt x p == dev.toNat

def Sched.volume (x : Sched) : Nat := x.box.1 * x.box.2.1 * x.box.2.2

/-- Why a LAUNCH is rejected without effect (13 R383, 14 R427), before its memory is read. -/
def State.launchRefusal (s : State) (r : LaunchReq) : Option Code :=
  if s.err.drained then some eDrained
  else if (sget none s.images r.handle.toNat).isNone then some eImageHandle
  else
    match s.sched r.jobTag r.epoch with
    | none => some eSchedEpoch
    | some x =>
      if r.members ≠ x.volume ∨ s.memberOf x r.lead = none then some eSchedEpoch
      else if r.nSeq > r.seqMax ∨ (r.cont = true ∧ r.nSeq > 512) then some eSeqList
      else if r.argLen > 256 ∨ r.resLen > 64 ∨ r.resOk = false ∨ (r.nSeq ≠ 0 ∧ r.bktVa = 0) then some eCqtMsg
      else none

/-- Bucket of a page count (09 R274). -/
def bucketOf (p : Nat) : Nat := if p ≤ 1 then 0 else Nat.log2 (p - 1) + 1

/-- Words of the bucket table (09 R275) for page counts in list order. -/
def bucketTable (ps : List Nat) : List Word :=
  let ix := (List.range ps.length).mergeSort fun i j =>
    let a := ps.getD i 0
    let b := ps.getD j 0
    decide (bucketOf a < bucketOf b) || (bucketOf a == bucketOf b && (decide (a < b) || (a == b && decide (i ≤ j))))
  let count (b : Nat) : Nat := (ps.filter fun p => bucketOf p == b).length
  let first (b : Nat) : Nat := (ps.filter fun p => decide (bucketOf p < b)).length
  (((List.range 14).map fun b => [BitVec.ofNat 32 (count b), BitVec.ofNat 32 (first b)]).flatten) ++ ix.map fun i => .ofNat 32 i

/-- Translate and read what an acceptance reads, and write the bucket table. The state is kept with a failed write. -/
def State.acceptMemory (s : State) (ctx : BitVec 8) (r : LaunchReq) : State × Except CmdFail (List Byte) :=
  let tableLen := 112 + 4 * r.nSeq
  let pre : Except XFail Unit := do
    let _ ← s.xlat none ctx false r.argVa r.argLen
    let _ ← s.xlat none ctx false r.seqVa (16 * r.nSeq)
    if r.nSeq ≠ 0 then let _ ← s.xlat none ctx true r.bktVa tableLen
    .ok ()
  match pre with
  | .error e => (s, .error e.result)
  | .ok _ =>
    match s.vread none ctx r.argVa r.argLen, s.vread none ctx r.seqVa (16 * r.nSeq) with
    | .error e, _ => (s, .error e.result)
    | _, .error e => (s, .error e.result)
    | .ok args, .ok seqs =>
      let ps := (List.range r.nSeq).map fun i => ceilDiv (leNat ((seqs.drop (16 * i + 4)).take 4)) 16
      if ps.any fun p => decide (p > 8192) then (s, .error (eSeqList, []))
      else if r.nSeq = 0 then (s, .ok args)
      else
        match s.vwrite none ctx r.bktVa (wordBytes (bucketTable ps)) with
        | (s, some e) => (s, .error e.result)
        | (s, none) => (s, .ok args)

/-- Accept a launch: latch the values of 01 R30 and the rest (13 R383, 14 R422, 15 R443). -/
def State.acceptLaunch (s : State) (qid : BitVec 12) (cookie : Word) (r : LaunchReq) (args : List Byte) : State :=
  let q := s.queue qid
  let l : Launch :=
    { qid := qid, cookie := cookie, handle := r.handle, epoch := r.epoch, jobTag := r.jobTag, lead := r.lead, members := r.members,
      deadline := r.deadline, args := args, resVa := .ofNat 64 r.resVa, resLen := r.resLen, seed := q.seed, nanMode := q.nanMode, ctx := q.ctx,
      strict := s.err.strict, salt := s.err.salt + 1, swapPeriod := s.tst.period, swapPhase := s.tst.phase }
  let s := s.modQueue qid fun q => { q with qstate := 1, handle := r.handle, epoch := r.epoch, jobTag := r.jobTag, bktVa := .ofNat 64 r.bktVa,
                                            bktWritten := r.nSeq != 0 }
  { s with launches := s.launches ++ [l], err := { s.err with salt := s.err.salt + 1 },
           pwr := { s.pwr with live := s.pwr.live.filter (· != qid) ++ [qid] } }

/-! ### Residency (04 R103, R129, R135) -/

/-- Descriptors of a core's lines, in lines from 2: first line and kind (04 R538). -/
def descWalk (k : Core) : Nat → Nat → List (Nat × Nat)
  | 0, _ => []
  | fuel + 1, line =>
    if line ≥ 1024 then []
    else
      let kind := wbits (k.dw line 0) 28 4
      if kind = 0 then descWalk k fuel (line + 1)
      else (line, kind) :: descWalk k fuel (line + max 1 (wbits (k.dw line 0) 16 12))

def packUnits (us : List (BitVec 3)) : Word := .ofNat 32 (((List.range us.length).map fun i => (us.getD i 0).toNat * 8 ^ i).foldl (· + ·) 0)

/-- Line 0: the core header (04 R129). -/
def ImageCore.header (i : ImageCore) : List Word :=
  padWords 16 [.ofNat 32 (2 ^ 24 + i.core * 2 ^ 18), .ofNat 32 (8 * i.code.length), .ofNat 32 i.entry, .ofNat 32 i.waitLimit,
    packUnits (i.tokenUnits.take 10), packUnits ((i.tokenUnits.drop 10).take 6)]

/-- Line 1: the slot table. -/
def ImageCore.slotLine (i : ImageCore) : List Word :=
  (List.range 16).map fun j => .ofNat 32 ((i.slots.getD (2 * j) 0).toNat + (i.slots.getD (2 * j + 1) 0).toNat * 65536)

/-- A core with no code has a program of one END (04 R128). -/
def emptyCore (c : Nat) : ImageCore :=
  { core := c, code := [0x1E00000000000000], entry := 0, waitLimit := 0, slots := [], lines := [], tokenUnits := List.replicate 16 7 }

def Image.coreOf (i : Image) (c : Nat) : ImageCore := (i.cores.find? fun k => k.core == c).getD (emptyCore c)

/-- The registers and stores of a core before its first instruction (04 R103, R124, 08 R239, 12 R345). -/
def freshCore (i : ImageCore) (self members : Nat) (args : List Byte) : Core :=
  let k : Core := {}
  let k := (((k.setS 1 (.ofNat 32 i.core)).setS 2 (.ofNat 32 self)).setS 3 (.ofNat 32 members)).setS 4 (.ofNat 32 args.length)
  let k := { k with ost := swrite 0 [] 0 args, dsc := swrite 0 [] 0 (i.header ++ i.slotLine ++ i.lines),
                    d := swrite 0 [] 0 i.slots, pc := .ofNat 20 i.entry }
  let ds := descWalk k 1024 2
  let pick (kind : Nat) : List (BitVec 10) := (ds.filter fun e => e.2 == kind).map fun e => .ofNat 10 e.1
  let k := { k with streamLines := pick 5, collLines := pick 6 }
  let k := k.streamLines.foldl (fun k ln => ((k.setStreamState ln.toNat 0).setDw ln.toNat 2 0).setDw ln.toNat 15 0) k
  k.collLines.foldl (fun k ln => k.setWords ln.toNat 11 [0, 0, 0, 0]) k

/-- Join the launch barrier, or the resume barrier under a new epoch (01 R25, 11 R333). -/
def State.joinBarrier (s : State) (l : Launch) : State × Bool :=
  match s.schedOf l with
  | none => (s, false)
  | some x =>
    let root : BitVec 12 := .ofNat 12 ((s.memberOf x l.lead).getD 0)
    -- the collective engine carries the barriers (12 R358)
    let c : Coll := { jobTag := l.jobTag, collId := 0xFFF, core := 0, line := 0, serial := 0, words := [], epoch := x.epoch, galliard := true }
    let s := s.modLaunch l.qid fun l => { l with run := .barrier }
    (s.joinCount x c (barrierEntry l x root)).decideAll []

/-- The launch that takes the cores: the first saved one that was resumed, else the first pending one (04 R135); one that a lost link has
halted waits for its resume (11 R331). -/
def State.nextLaunch (s : State) : Option Launch :=
  let saved := s.launches.filter fun l => l.cond == .saved && l.resumeOrder.isSome
  match saved.foldl (fun (b : Option Launch) l =>
      match b with
      | none => some l
      | some a => some (if l.resumeOrder.getD 0 < a.resumeOrder.getD 0 then l else a)) none with
  | some l => some l
  | none => s.launches.find? fun l => l.cond == .pending && !l.run.isHalted

/-- The cores are free for another launch. -/
def State.coresFree (s : State) : Bool := s.resident.isNone && s.saving.isNone && s.restoring.isNone

/-- A launch becomes resident. -/
def State.becomeResident (s : State) : State × Bool :=
  match s.nextLaunch with
  | none => (s, false)
  | some l =>
    if !s.coresFree || s.err.drained then (s, false)
    else if l.cond == .saved then ({ s with restoring := some l.qid }, false)
    else
      match s.imageOf l, s.schedOf l with
      | some i, some x =>
        let cores : Sparse Core := (List.range 64).foldl (fun t c =>
          sset ({} : Core) t c (freshCore (i.coreOf c) x.self.toNat l.members l.args)) []
        let s := { s with cores := cores, barPassed := 0 }
        let s := s.modLaunch l.qid fun l => { l with cond := .resident }
        s.joinBarrier l
      | _, _ => (s, false)

/-! ### Going on -/

/-- S grows by the boundaries for which the launch was suspended (04 R136, 11 R332). -/
def Launch.wake (l : Launch) (cnt : Dword) : Launch :=
  { l with start := match l.suspended with | some k => l.start.map fun a => a + (cnt - k) | none => l.start,
           suspended := none, resumeOrder := none, run := .running }

/-- A halted launch goes on at once. -/
def State.goOn (s : State) (qid : BitVec 12) : State × Bool :=
  let s := s.modLaunch qid fun l => l.wake s.fab.cnt
  let s := s.modQueue qid fun q => { q with qstate := 1 }
  s.resumeUnits qid

/-- The root has seen its barrier's count phase complete, or its start beat has come (01 R25). -/
def State.barrierDone (s : State) (start : Dword) : State :=
  match s.resident with
  | none => s
  | some l =>
    match s.schedOf l, s.collOf l.jobTag 0xFFF with
    | some x, some c =>
      if l.run != .barrier || !c.hasAll x || c.failure.isSome then s
      else
        let root := s.memberOf x l.lead == some x.self.toNat
        let at' := if root then s.fab.cnt + 16 else start
        -- the start beat is broadcast as a collective's data is (01 R25, 12 R353)
        let g := s.geo x (c.group x) ((s.memberOf x l.lead).getD 0)
        let s := (s.dropColl c).sendControl x g.g l.jobTag 0xFFF g.sends (.start at')
        s.modLaunch l.qid fun l => { l with run := .starting, goAt := some at' }
    | _, _ => s

/-- The boundary of the start beat: the launch begins, or goes on after a resume barrier. -/
def State.beginLaunch (s : State) : State × Bool :=
  match s.resident with
  | none => (s, false)
  | some l =>
    match l.goAt with
    | none => (s, false)
    | some g =>
      if l.run != .starting || decide (s.fab.cnt.toNat < g.toNat) then (s, false)
      else
        match l.start with
        | none =>
          (({ s with launches := s.launches.map fun m =>
              if m.qid == l.qid then { m with run := .running, start := some g, goAt := none, suspended := none } else m } : State).enterService l, false)
        | some _ =>
          let s := s.modLaunch l.qid fun m => { m.wake g with goAt := none }
          let s := (s.modQueue l.qid fun q => { q with qstate := 1 }).enterService l
          match s.launchOf l.qid with
          | none => (s, false)
          | some l =>
            let r := ((List.range 64).foldl (fun s c => allEngines.foldl (fun s e => s.rewindRemote c e) s) s).rerunColls l
            let q := r.1.resumeUnits l.qid
            (q.1, r.2 || q.2)

/-- The launch barrier's deadline passes (01 R25, 12 R360). -/
def State.barrierLate (s : State) : State × Bool :=
  match s.resident with
  | none => (s, false)
  | some l =>
    match s.schedOf l, s.collOf l.jobTag 0xFFF with
    | some x, some c =>
      if l.run != .barrier || decide (c.counted < l.deadline) then (s, false)
      else
        let m := c.missing x
        (s.sendAbort l c eCollTimeout m).failColl l c eCollTimeout m
    | _, _ => (s, false)

/-! ### Save and restore (04 R135, R136) -/

/-- A halted launch gives up the cores when another waits for them. -/
def State.startSave (s : State) : State :=
  match s.resident with
  | some l => if l.isHalted && s.saving.isNone && s.nextLaunch.isSome && !s.err.drained then { s with saving := some l.qid } else s
  | none => s

def State.saveDone (s : State) : State :=
  match s.saving with
  | none => s
  | some q =>
    let s := s.modLaunch q fun l =>
      { l with cond := .saved, saved := s.cores, barPassed := s.barPassed, suspended := l.suspended.or (some s.fab.cnt) }
    { s with saving := none, cores := [], barPassed := 0 }

def State.restoreDone (s : State) : State × Bool :=
  match s.restoring with
  | none => (s, false)
  | some q =>
    match s.launchOf q with
    | none => ({ s with restoring := none }, false)
    | some l =>
      let s := { s with restoring := none, cores := l.saved, barPassed := l.barPassed }
      let s := s.modLaunch q fun l => { l with cond := .resident, saved := [] }
      if l.barrierDue || l.start.isNone then
        let s := s.modLaunch q fun l => { l with resumeOrder := none, barrierDue := false }
        s.joinBarrier l
      else s.goOn q

/-! ### RESUME (13 R381, 11 R333) -/

/-- A RESUME's refusal. -/
def State.resumeRefusal (s : State) (q : BitVec 12) (epoch : Option (BitVec 16)) : Option Code :=
  match s.launchOf q with
  | none => some eQueueState
  | some l =>
    if !l.isHalted then some eQueueState
    else
      match epoch with
      | none => none
      | some e =>
        -- the epoch changes only at a resume after a link loss (11 R322)
        if l.run != .halted eLinkDown then some eSchedEpoch else
        match s.sched l.jobTag e, s.schedOf l with
        | some x, some y => if x.box = y.box ∧ x.origin = y.origin ∧ x.map = y.map then none else some eSchedEpoch
        | _, _ => some eSchedEpoch

/-- Resume a halted launch: at once, through the resume barrier, or when it has been restored. -/
def State.resumeLaunch (s : State) (q : BitVec 12) (epoch : Option (BitVec 16)) : State × Bool :=
  match s.launchOf q with
  | none => (s, false)
  | some l =>
    -- the last use of an epoch's image ends when the launch leaves it (11 R319)
    let s := if epoch.isSome then s.endUse l else s
    let s := s.modLaunch q fun l => { l with resumeEpoch := epoch.or l.resumeEpoch }
    -- a resume after a lost link is a recovery (14 R428, R429)
    let s := if l.run == .halted eLinkDown then s.bumpEpoch q else s
    if l.cond == .pending then
      ((s.modLaunch q fun l => { l with run := .fresh }).modQueue q fun q => { q with qstate := 1 }, true)
    else if l.cond == .saved || s.saving == some q then
      let n := s.useClock + 1
      ({ (s.modLaunch q fun l => { l with resumeOrder := some n, barrierDue := epoch.isSome }).modQueue q (fun q => { q with qstate := 1 }) with useClock := n }, false)
    else if epoch.isSome || l.start.isNone then
      match (s.modQueue q fun q => { q with qstate := 1 }).launchOf q with
      | some l => (s.modQueue q fun q => { q with qstate := 1 }).joinBarrier l
      | none => (s, false)
    else s.goOn q

/-! ### Commit (04 R110, 13 R384) -/

/-- The result bytes of a launch; what cannot be read is a free value of its address (entry 18). -/
def State.resultBytes (s : State) (l : Launch) : List Byte :=
  match s.vread none l.ctx l.resVa.toNat l.resLen with
  | .ok bs => bs
  | .error _ => (List.range l.resLen).map fun i => Config.lostResult (l.resVa.toNat + i)

/-- The read of its result bytes is held (08 R222). -/
def State.resultHeld (s : State) (l : Launch) : Bool :=
  match s.vread none l.ctx l.resVa.toNat l.resLen with | .ok _ => false | .error e => e.isHeld

/-- The launch completes on the device. -/
def State.commit (s : State) (l : Launch) : State :=
  let s := s.publish l.qid
  let result := s.resultBytes l
  let s := s.endUse l
  let s := { s with launches := s.launches.filter fun x => x.qid != l.qid, cores := [], barPassed := 0, col := s.col.leave l.jobTag }
  let s := s.complete l.qid l.cookie { cmd := 2, type := 1, result := leWords 16 result, launch := true, lost := l.lost }
  s.idleQueue l.qid

/-- Commit when every core has retired END and no shadow compare is outstanding (04 R110, 14 R423). -/
def State.commitIfDone (s : State) : State × Bool :=
  match s.running with
  | none => (s, false)
  | some l =>
    if ((List.range 64).all fun c => (s.core c).ended) && !(s.err.shadows.any fun x => x.qid == l.qid) && !s.resultHeld l then (s.commit l, true)
    else (s, false)

/-- END at the sequencer: it waits for every earlier instruction; the core's obligation and counts go (04 R110). -/
def State.endCore (s : State) (h : Ih) (bits : Dword) : State × Bool :=
  let c := h.core.val
  if !(s.core c).allDoneBefore (s.core c).serialNo then
    -- it waits for them, and shows the token it lacks (04 R138)
    (if (s.canIssue c).isSome then s.modCore c fun k => { k with seqWait := if k.tokOk h.wt then none else h.wt } else s, false)
  else
    let r := s.seq h bits fun s _ c => .ok (s.modCore c fun k => { k with obligation := none, ended := true })
    match r.1.running with
    | none => r
    | some l =>
      if !(r.1.core c).ended then r
      else
        let q := (r.1.modCore c fun k => { k with k := [] }).passBarrier l
        let t := q.1.commitIfDone
        (t.1, r.2 || q.2 || t.2)

/-- The launch beat has reached 0xFFFF_FFFF (04 R116). -/
def State.beatRange (s : State) : State × Bool :=
  match s.running with
  | none => (s, false)
  | some l =>
    match l.start with
    | some a =>
      if (s.fab.cnt - a).toNat ≥ 0xFFFFFFFF then
        (s.stop l { code := eBeatRange, kind := 8, detail := s.fab.cnt }, true)
      else (s, false)
    | none => (s, false)

end Sys2Proof.Machine
end

