-- ==== Sys2Proof/Machine/Test.lean ====
section
/-!
DEFINITION. In-field test (15 R438-R452): swaps, state copies (14 R413), test slots, on-demand tests, port tests.
-/

namespace Sys2Proof.Machine

/-! ### Packs -/

/-- Index of the next case of a kind, from i on. -/
def Pack.nextCase (p : Pack) (port : Bool) (i : Nat) : Option Nat :=
  (List.range p.cases.length).find? fun j => decide (i ≤ j) && (p.cases[j]?.map (·.port)) == some port

/-- The staged pack becomes active (15 R438). -/
def State.activatePack (s : State) : State :=
  match s.tst.stg with
  | some p => { s with tst := { s.tst with act := some p, stg := none } }
  | none => s

def State.setSlot (s : State) (set : Nat) (t : Option Test) : State := { s with tst := { s.tst with slots := sset none s.tst.slots set t } }
def State.slotTest (s : State) (set : Nat) : Option Test := sget none s.tst.slots set

/-- A unit has rejoined once (15 R451). -/
def State.hasRejoined (s : State) (kind : BitVec 4) (unit : Nat) : Bool :=
  (s.err.history ++ s.err.heldHistory).any fun h => h.kind == kind && h.unit == unit && h.what == .rejoin

/-! ### Starting -/

/-- A core enters its set's slot with the active pack. A fenced core keeps its role (15 R448, R451). -/
def State.startTest (s : State) (set : Nat) (p : Fin 9) (why : TestWhy) : State :=
  match s.tst.act with
  | none => s
  | some pk =>
    let first := pk.nextCase false 0
    let s := match why with | .fenced | .rejoin _ => s | _ => s.setRole set p.val 0xA
    let s := { s with tst := { s.tst with lastTested := sset (8 : Fin 9) s.tst.lastTested set p } }
    s.setSlot set (some { pcore := p, why := why, pack := pk, case := first.getD pk.cases.length, retried := false,
                          verdict := if first.isSome then .running else .pass, began := s.fab.cnt })

/-! ### Swaps (15 R443-R445) -/

/-- A takeover or swap of the set is under way. -/
def State.copying (s : State) (set : Nat) : Bool := s.err.takeovers.any fun t => t.set.val == set

/-- The set has a spare that is free for a swap. -/
def State.canSwap (s : State) (set : Nat) : Bool :=
  (s.coreWith set 8).isSome && (s.slotTest set).isNone && !s.copying set

/-- The next physical core after the one tested last that holds a logical role. -/
def State.nextTested (s : State) (set : Nat) : Option (Fin 9) :=
  let last := (sget (8 : Fin 9) s.tst.lastTested set).val
  ((List.range 9).map fun i => (last + 1 + i) % 9).find? (fun p => decide ((s.role set p).toNat < 8)) |>.map (Fin.ofNat 9 ·)

/-- An on-demand test that waits for a swap of this set. -/
def State.swapWanted (s : State) (set : Nat) : Option TestReq :=
  s.tst.requests.find? fun r => r.set.val == set && !r.served && !r.rejoin && decide ((s.role set r.pcore.val).toNat < 8)

/-- The set that swaps at a swap point, with its core (15 R444). -/
def State.swapChoice (s : State) : Option (Fin 8 × Fin 9) :=
  let sets : List (Fin 8) := [0, 1, 2, 3, 4, 5, 6, 7]
  match sets.find? fun i => s.canSwap i.val && (s.swapWanted i.val).isSome with
  | some i => (s.swapWanted i.val).map fun r => (i, r.pcore)
  | none =>
    match sets.find? fun i => s.tst.rotEn && s.tst.act.isSome && s.tst.due.getLsbD i.val && s.canSwap i.val with
    | some i => (s.nextTested i.val).map fun p => (i, p)
    | none => none

/-- One swap point: at most one set begins its swap. -/
def State.swapOnce (s : State) : State :=
  if s.err.drained then s
  else
    match s.swapChoice with
    | none => s
    | some (i, p) =>
      match s.coreWith i.val 8 with
      | none => s
      | some d =>
        let s := (s.activatePack).beginTakeover i p (.ofNat 9 d) .swap
        { s with tst := { s.tst with
            due := s.tst.due &&& ~~~(1#8 <<< i.val), lastSwap := sset 0 s.tst.lastSwap i.val s.err.opsec,
            requests := s.tst.requests.map fun r => if r.set == i && r.pcore == p && !r.rejoin then { r with served := true } else r } }

/-- This moment is a swap point outside every launch (15 R443). -/
def State.noLaunch (s : State) : Bool := s.launches.isEmpty

/-- The boundary just passed is a swap point of the running launch. -/
def State.atSwapPoint (s : State) : Bool :=
  match s.running with
  | some l =>
    let b := (l.beat s.fab.cnt).toNat
    l.swapPeriod != 0 && decide (b > 0) && b % l.swapPeriod.toNat == l.swapPhase.toNat
  | none => false

/-! ### Requests (15 R448-R451) -/

/-- What is done about a request now: it is refused with a cause, starts a test, or waits. -/
inductive TestNow where
  | refuse (cause : BitVec 8)
  | start (why : TestWhy)
  | wait
  deriving DecidableEq, Repr

def State.testNow (s : State) (r : TestReq) : TestNow :=
  let set := r.set.val
  let role := (s.role set r.pcore.val).toNat
  let free := (s.slotTest set).isNone && !s.copying set
  if s.tst.act.isNone && s.tst.stg.isNone then .refuse 1
  else if r.rejoin then
    if role ≠ 9 then .refuse 3
    else if s.hasRejoined 1 (9 * set + r.pcore.val) then .refuse 4
    else if (s.coreWith set 8).isSome then .refuse Config.rejoinRefusalCause
    else if free then .start (.rejoin false) else .wait
  else if role = 9 then (if free then .start .fenced else .wait)
  else if role = 8 then (if free then .start .spare else .wait)
  else if role = 0xA then .wait
  else if (s.coreWith set 8).isNone && (s.coreWith set 0xA).isNone && !s.copying set then .refuse 2
  else .wait

/-- Serve the requests that no longer have to wait. -/
def State.serveTests (s : State) : State :=
  (s.tst.requests.filter fun r => !r.served).foldl (fun s r =>
    match s.testNow r with
    | .wait => s
    | .refuse c =>
      let s := { s with tst := { s.tst with requests := s.tst.requests.filter fun q => q != r } }
      s.answerTest r.qid eTestRefused [.ofNat 32 c.toNat]
    | .start why =>
      let s := (s.activatePack).startTest r.set.val r.pcore why
      { s with tst := { s.tst with requests := s.tst.requests.map fun q => if q == r then { q with served := true } else q } }) s

/-- A port test begins outside a running launch or at a swap point, once no collective is unfinished (15 R452). -/
def State.beginPortTest (s : State) : State :=
  match s.tst.ports with
  | t :: rest =>
    if t.begun || (s.running.isSome && !s.atSwapPoint) || s.col.colls.any (fun c => !c.isBarrier) then s
    else
      let s := s.activatePack
      match s.tst.act with
      | none => s
      | some pk =>
        let none? := t.ports == 0 || (pk.nextCase true 0).isNone
        { s with tst := { s.tst with ports := { t with begun := true, pack := pk, case := 0, verdict := if none? then .pass else .running,
                                                       began := s.fab.cnt } :: rest },
                 col := { s.col with testGalliard := true } }
  | [] => s

/-- The moments outside launches are swap points: every set that wants a swap begins one, and waiting tests go on. -/
def State.testMoments (s : State) : State :=
  let s := s.serveTests
  let s := if s.noLaunch then [0, 1, 2, 3, 4, 5, 6, 7].foldl (fun s (_ : Nat) => s.swapOnce) s else s
  s.beginPortTest

/-- ROTATION_DUE (15 R442). -/
def State.rotationDue (s : State) (set : Fin 8) : State :=
  if s.tst.rotEn && (s.coreWith set.val 8).isSome && decide (s.err.opsec ≥ sget 0 s.tst.lastSwap set.val + s.tst.interval.toNat)
  then { s with tst := { s.tst with due := s.tst.due ||| (1#8 <<< set.val) } } else s

/-! ### The state copy (14 R413) -/

/-- Words of the copy that failed twice: granules are re-fetched; none when one cannot be. -/
def copyWords (c : Nat) : List CopyFault → State → Option State
  | [], s => some s
  | .granule g good :: t, s => (s.refetchGranule c g.toNat good).bind (copyWords c t)
  | .other :: _, _ => none
  | .spare :: t, s => copyWords c t s

/-- A request that waited for a swap which failed waits for the next one. -/
def State.unserve (s : State) (set : Fin 8) (p : Fin 9) : State :=
  { s with tst := { s.tst with requests := s.tst.requests.map fun r => if r.set == set && r.pcore == p then { r with served := false } else r } }

/-- The copy ends: the core map is rewritten and the spare goes on, or the launch or the device stops. -/
def State.takeoverDone (s : State) (set : Fin 8) (bad : List CopyFault) : State × Bool :=
  match s.err.takeovers.find? fun t => t.set == set with
  | none => (s, false)
  | some t =>
    let role := s.role set.val t.src.val
    let c := 8 * set.val + role.toNat
    let s := { s with err := { s.err with takeovers := s.err.takeovers.filter fun x => x.set != set } }
    let pass (s : State) : State := s.setRole set.val t.dst.val role
    if bad.contains .spare then
      -- a detection in a recovery path makes the spare permanent (14 R413, R416, R421)
      let s := (s.notePermanent 1 (9 * set.val + t.dst.val)).markFenced set.val t.dst.val true
      (match t.why with | .fence => s.noSpare set.val t.src.val true | .swap => s.unserve set t.src, true)
    else
      match t.why, copyWords c bad s with
      | .fence, some s => ((pass s).markFenced set.val t.src.val false, true)
      | .swap, some s =>
        let s := pass s
        (({ s with tst := { s.tst with swaps := s.tst.swaps + 1 } } : State).startTest set.val t.src .swap, true)
      | why, none =>
        let unit := coreUnit (9 * set.val + t.src.val)
        let s := match s.resident with
          | some l => (s.stop l { code := eRecoveryFault, core := some c, pc := (s.core c).pc, source := 5, cls := 2, kind := 1, unit := unit }).setQueueErr l.qid eRecoveryFault
          | none => s.log { code := eRecoveryFault, source := 5, cls := 2, kind := 1, unit := unit }
        (match why with
          | .fence => (pass s).markFenced set.val t.src.val false
          | .swap => s.unserve set t.src, true)

/-! ### Running a case (15 R440, R441) -/

/-- Bytes of a set's test area. -/
def testArea : Nat := 64 * 1048576

/-- Digest of output bytes: the first 16 of SHA-256, big-endian. -/
def digest128 (bs : List Byte) : BitVec 128 := .ofNat 128 (((sha256 bs).take 16).foldl (fun a b => a * 256 + b.toNat) 0)

/-- Input and output of a case in the test area: zeroes after the input, then what the code leaves as output. -/
def State.loadCase (s : State) (set : Nat) (c : TCase) (out : List Byte) : State :=
  let base := set * testArea
  let n := c.input.length
  let area := sclear s.tst.area (base + n) c.outLen
  { s with tst := { s.tst with area := swrite 0 (swrite 0 area base c.input) (base + n) (out.take c.outLen) } }

def State.caseDigest (s : State) (set : Nat) (c : TCase) : BitVec 128 :=
  digest128 (sread 0 s.tst.area (set * testArea + c.input.length) c.outLen)

/-- The verdict of a finished case: none goes on to the next. -/
def caseVerdict (expect got : BitVec 128) : Option TestVerdict := if got = expect then none else some .mismatch

/-- The limit of a case has passed: so many boundaries since it began (15 R436, R440). -/
def State.caseLate (s : State) (began : Dword) (c : TCase) : Bool := decide (c.limit ≤ (s.fab.cnt - began).toNat)

/-- A granule of the test area is retired (08 R222) by `retire`. -/
def State.slotCase (s : State) (set : Fin 8) (o : CaseOutcome) (retire : State → BitVec 25 → State) : State :=
  match s.slotTest set.val with
  | none => s
  | some t =>
    match t.pack.cases[t.case]? with
    | none => s
    | some c =>
      if t.verdict != .running then s
      else if s.caseLate t.began c then s.setSlot set.val (some { t with verdict := .limit })
      else
        match o with
        | .detection => s.setSlot set.val (some { t with verdict := .detection })
        | .hbmDetect g =>
          let s := retire s g
          s.setSlot set.val (some (if t.retried then { t with verdict := .abandoned } else { t with retried := true, began := s.fab.cnt }))
        | .ended bytes =>
          let s := s.loadCase set.val c bytes
          match caseVerdict c.expect (s.caseDigest set.val c) with
          | some v => s.setSlot set.val (some { t with verdict := v })
          | none =>
            match t.pack.nextCase false (t.case + 1), t.why with
            | some j, _ => s.setSlot set.val (some { t with case := j, retried := false, began := s.fab.cnt })
            | none, .rejoin false =>
              s.setSlot set.val (some { t with why := .rejoin true, case := (t.pack.nextCase false 0).getD 0, retried := false, began := s.fab.cnt })
            | none, _ => s.setSlot set.val (some { t with case := t.pack.cases.length, verdict := .pass })

/-- Engines that a port test selects, lowest first, and the port cases of its pack. -/
def PortTest.engines (t : PortTest) : List Nat := (List.range 6).filter fun p => t.ports.getLsbD p
def PortTest.portCases (t : PortTest) : List Nat := (List.range t.pack.cases.length).filter fun j => (t.pack.cases[j]?.map (·.port)) == some true
def PortTest.engineNow (t : PortTest) : Nat := t.engines.getD (t.case / max 1 t.portCases.length) 0
def PortTest.caseNow (t : PortTest) : Nat := t.portCases.getD (t.case % max 1 t.portCases.length) 0

/-- Replace the port test at the front. -/
def State.setPortTest (s : State) (t : PortTest) : State := { s with tst := { s.tst with ports := t :: s.tst.ports.drop 1 } }

/-- A case on a port engine (15 R452). Its bytes stand above the sets' areas. -/
def State.portCase (s : State) (o : CaseOutcome) (retire : State → BitVec 25 → State) : State :=
  match s.tst.ports with
  | [] => s
  | t :: _ =>
    match t.pack.cases[t.caseNow]? with
    | none => s
    | some c =>
      if !t.begun || t.verdict != .running then s
      else if s.caseLate t.began c then s.setPortTest { t with verdict := .limit }
      else
        match o with
        | .detection => s.setPortTest { t with verdict := .detection }
        | .hbmDetect g =>
          let s := retire s g
          s.setPortTest (if t.retried then { t with verdict := .abandoned } else { t with retried := true, began := s.fab.cnt })
        | .ended bytes =>
          let s := s.loadCase 8 c bytes
          match caseVerdict c.expect (s.caseDigest 8 c) with
          | some v => s.setPortTest { t with verdict := v }
          | none =>
            let n := t.case + 1
            s.setPortTest { t with case := n, retried := false, began := s.fab.cnt, verdict := if n < t.engines.length * t.portCases.length then .running else .pass }

/-- The limit of the case under way passes before END. -/
def State.caseLimit (s : State) (site : TestSite) : State :=
  match site with
  | .slot set =>
    match s.slotTest set.val with
    | some t =>
      if t.verdict == .running && (t.pack.cases[t.case]?).any (s.caseLate t.began) then s.setSlot set.val (some { t with verdict := .limit }) else s
    | none => s
  | .ports =>
    match s.tst.ports with
    | t :: _ =>
      if t.begun && t.verdict == .running && (t.pack.cases[t.caseNow]?).any (s.caseLate t.began) then s.setPortTest { t with verdict := .limit } else s
    | [] => s

/-! ### Verdicts (15 R441, R445, R449, R451, R452) -/

/-- Code of a verdict in W0 [31:24] of the result and in TST_LAST.result. -/
def TestVerdict.code : TestVerdict → Nat
  | .running => 0 | .pass => 1 | .detection => 2 | .mismatch => 3 | .limit => 4 | .abandoned => 5

/-- Cause of E_TEST_FAIL. -/
def TestVerdict.cause : TestVerdict → BitVec 5
  | .detection => 1 | .mismatch => 2 | .limit => 3 | _ => 0

/-- Count a verdict and latch TST_LAST. -/
def State.countVerdict (s : State) (v : TestVerdict) (set pcore index : Nat) : State :=
  { s with tst := { s.tst with
      passes := if v = .pass then satInc s.tst.passes else s.tst.passes,
      fails := if v = .detection ∨ v = .mismatch ∨ v = .limit then satInc s.tst.fails else s.tst.fails,
      abandoned := if v = .abandoned then satInc s.tst.abandoned else s.tst.abandoned,
      last := .ofNat 32 (set * 2 ^ 28 + pcore * 2 ^ 24 + v.code * 2 ^ 21 + index % 65536) } }

/-- The result of a TEST_REQUEST. -/
def testResult (v : TestVerdict) (set pcore index : Nat) (seq : Word) : List Word :=
  [.ofNat 32 (v.code * 2 ^ 24 + set * 2 ^ 20 + pcore * 2 ^ 16 + index % 65536), seq]

/-- A failed unit: its history entries and its record of E_TEST_FAIL. -/
def State.testFailed (s : State) (v : TestVerdict) (kind : BitVec 4) (hu : Nat) (unit : BitVec 12) (index : Nat) : State :=
  let s := s.history kind hu (.testFail v.cause)
  let s := s.history kind hu (if v = .mismatch then .suspect else .permanent)
  let r : RecInfo := { code := eTestFail, source := 5, cls := if v = .mismatch then 3 else 2, kind := kind, unit := unit,
                       cause := v.cause, detail := .ofNat 64 index }
  if v = .mismatch then s.logDrain r none else s.log { r with outcome := 4 }

/-- The end of a core test: its verdict is applied. -/
def State.endSlotTest (s : State) (set : Fin 8) : State × Bool :=
  match s.slotTest set.val with
  | none => (s, false)
  | some t =>
    if t.verdict == .running then (s, false)
    else
      let p := t.pcore.val
      let u := 9 * set.val + p
      let rejoin := match t.why with | .rejoin _ => true | _ => false
      -- a failure while rejoining has the consequences of one with no detection
      let v := t.verdict
      let s := (s.setSlot set.val none).countVerdict v set.val p t.case
      let served := s.tst.requests.filter fun r => r.served && r.set == set && r.pcore == t.pcore
      let s := { s with tst := { s.tst with requests := s.tst.requests.filter fun r => !(r.served && r.set == set && r.pcore == t.pcore) } }
      let s := served.foldl (fun s r => s.answerTest r.qid 0 (testResult v set.val p t.case t.pack.seq)) s
      let mine := s.role set.val p == 0xA && !(s.err.takeovers.any fun x => x.set == set)
      match v with
      | .pass =>
        let s := s.history 1 u (.pass t.pack.seq)
        if rejoin then
          ((((s.setRole set.val p 8).history 1 u .rejoin).log
            { code := evUnitRejoined, source := 5, kind := 1, unit := coreUnit u }), true)
        else (if mine then s.setRole set.val p 8 else s, true)
      | .abandoned => (if mine then s.setRole set.val p 8 else s, true)
      | .running => (s, false)
      | v =>
        let w := if rejoin then TestVerdict.mismatch else v
        let s := s.testFailed w 1 u (coreUnit u) t.case
        (if w = .mismatch then s else s.fence set t.pcore false, true)

/-- The end of a port test. -/
def State.endPortTest (s : State) : State × Bool :=
  match s.tst.ports with
  | [] => (s, false)
  | t :: _ =>
    if !t.begun || t.verdict == .running then (s, false)
    else
      let v := t.verdict
      let index := if v = .pass then t.pack.cases.length else t.caseNow
      let s := ({ s with tst := { s.tst with ports := s.tst.ports.drop 1 } } : State).countVerdict v 0 15 index
      let s := { s with col := { s.col with testGalliard := false } }
      let s := s.answerTest t.qid 0 (testResult v 0 15 index t.pack.seq)
      match v with
      | .pass =>
        (t.engines.foldl (fun s p =>
          let s := s.history 4 p (.pass t.pack.seq)
          if s.col.fenced.getLsbD p && !s.hasRejoined 4 p then
            let s := { s with col := { s.col with fenced := s.col.fenced &&& ~~~(1#6 <<< p), rejoined := s.col.rejoined ||| (1#6 <<< p) } }
            (s.history 4 p .rejoin).log { code := evUnitRejoined, source := 5, kind := 4, unit := .ofNat 12 p }
          else s) s, true)
      | .detection | .limit =>
        let p := t.engineNow
        let s := s.testFailed v 4 p (.ofNat 12 p) t.caseNow
        ({ s with col := { s.col with fenced := s.col.fenced ||| (1#6 <<< p) } }, true)
      | .mismatch => let p := t.engineNow; (s.testFailed v 4 p (.ofNat 12 p) t.caseNow, true)
      | .abandoned => (s, true)
      | .running => (s, false)

def State.testEnd (s : State) (site : TestSite) : State × Bool :=
  match site with
  | .slot set => s.endSlotTest set
  | .ports => s.endPortTest

/-! ### TEST_REQUEST (15 R447, R450) -/

/-- A TEST or REJOIN: refused at once with a code and result, or entered as waiting. -/
def State.requestTest (s : State) (qid : BitVec 12) (rejoin : Bool) (b : List Word) : State × Option CmdFail :=
  let w := wAt b 0
  let phys := bit1 w 27
  let core := wbits w 16 6
  let set := wbits w 12 4
  let pc := wbits w 8 4
  if wbits w 22 5 ≠ 0 ∨ wbits w 0 2 ≠ 0 ∨ wbits w 2 6 ≠ 0 ∨ (b.drop 1).any (· != 0) ∨ set > 7 ∨ pc > 8 ∨
      (phys = true ∧ core ≠ 0) ∨ (phys = false ∧ (set ≠ 0 ∨ pc ≠ 0)) then (s, some (eCqtMsg, []))
  else if s.err.drained then (s, some (eTestRefused, [.ofNat 32 5]))
  else
    let i := if phys then 9 * set + pc else (s.physOf core).getD (9 * (core / 8))
    let r : TestReq := { qid := qid, rejoin := rejoin, set := .ofNat 8 (i / 9), pcore := .ofNat 9 (i % 9), served := false }
    match s.testNow r with
    | .refuse c => (s, some (eTestRefused, [.ofNat 32 c.toNat]))
    | _ => ({ s with tst := { s.tst with requests := s.tst.requests ++ [r] } }, none)

def State.requestPorts (s : State) (qid : BitVec 12) (b : List Word) : State × Option CmdFail :=
  let w := wAt b 0
  if wbits w 8 20 ≠ 0 ∨ wbits w 0 2 ≠ 0 ∨ (b.drop 1).any (· != 0) then (s, some (eCqtMsg, []))
  else if s.err.drained then (s, some (eTestRefused, [.ofNat 32 5]))
  else if s.tst.act.isNone && s.tst.stg.isNone then (s, some (eTestRefused, [.ofNat 32 1]))
  else ({ s with tst := { s.tst with ports := s.tst.ports ++
      [{ qid := qid, ports := .ofNat 6 (wbits w 2 6), pack := ⟨0, [], []⟩, case := 0, verdict := .running, begun := false }] } }, none)

end Sys2Proof.Machine
end

