-- ==== Sys2Proof/Machine/Power.lean ====
section
/-!
DEFINITION. Power (chapter 16): operating points, limit, pacing, temperature, group budgets, ramps, energy, and the
registers that set them.
-/

namespace Sys2Proof.Machine

def State.pset (s : State) (i : Nat) : PSet := sget {} s.pwr.sets i
def State.modSet (s : State) (i : Nat) (f : PSet → PSet) : State := { s with pwr := { s.pwr with sets := smod {} s.pwr.sets i f } }
def State.modSets (s : State) (f : PSet → PSet) : State := (List.range 8).foldl (fun s i => s.modSet i f) s
def State.modPwr (s : State) (f : Pwr → Pwr) : State := { s with pwr := f s.pwr }

/-- A quotient whose rounding the spec leaves open (entry 18): `tag` names the figure. -/
def roundOpen (tag : Nat) (num : Int) (den : Nat) : Int :=
  num.fdiv den + (if num.fmod den ≠ 0 ∧ Config.roundUp tag = true then 1 else 0)

/-- Calibration offset in 0.1 W: the fused one until the first refit (16 R467, R485). -/
def Pwr.offset10 (p : Pwr) : Int := if p.offsetFused then Config.calOffset.toInt else p.offset

/-- Calibrated estimate of a raw one in W: gain × raw + offset (16 R465). -/
def Pwr.calibrate (p : Pwr) (raw : Nat) : Nat := (roundOpen 0 ((p.gain : Int) * raw * 10 + p.offset10 * 32768) 327680).toNat

/-! ### The limit (16 R468, R473, R476) -/

/-- The fallback share. -/
def Pwr.fallShare (p : Pwr) : Nat := min p.cap.toNat (p.budget.toNat / (p.members.toNat + 1))

/-- Sources of the limit in W with their reason codes, in the order of R468. -/
def Pwr.sources (p : Pwr) : List (Nat × BitVec 3) :=
  [(p.cap.toNat, 0)] ++
    (if !p.grpEn then [] else if p.fallback then [(p.fallShare, 2)] else if p.alloc ≠ 0 then [(p.alloc, 1)] else []) ++
    (if p.vin ≠ 0 ∧ p.vin < 4000 then [(40 * p.vin / 100, 3)] else [])

def Pwr.least (p : Pwr) : Nat × BitVec 3 :=
  p.sources.foldl (fun b x => if x.1 < b.1 then x else b) (p.cap.toNat, 0)

/-- A thermal limit is in force. -/
def State.thermal (s : State) : Bool := s.pwr.hbmTrip || (List.range 8).any fun i => (s.pset i).ceiling != 7 || (s.pset i).tripped

/-- A set's change of point at a boundary (16 R463, R472, R483). -/
def PSet.atBoundary (p : PSet) (limitFell hbmTrip : Bool) : PSet :=
  let p := if limitFell && p.raising then { p with raising := false, settled := false } else p
  if p.lowerDue || hbmTrip || decide (p.ceiling.toNat < p.point.toNat) then
    { p with point := if p.point = 0 then 0 else p.point - 1, lowerDue := false, raising := false, settled := false }
  else if p.raising && p.settled then
    { p with point := if p.point.toNat < p.ceiling.toNat then p.point + 1 else p.point, raising := false, settled := false }
  else p

/-- A boundary passes: allocation, limit and points change; `held i` says that set i held it (16 R463, R468, R469). -/
def State.powerBoundary (s : State) (held : Nat → Bool) : State :=
  let old := s.pwr.limit
  let s := match s.pwr.nextAlloc with
    | some a => s.modPwr fun p => { p with alloc := a, nextAlloc := none, fallback := false }
    | none => s
  let l := s.pwr.least
  let s := s.modPwr fun p => { p with limit := l.1, reason := if s.thermal then 4 else l.2 }
  let s := s.modSets fun p => p.atBoundary (decide (l.1 < old)) s.pwr.hbmTrip
  (List.range 8).foldl (fun s i =>
    if held i then s.modSet i fun p => { p with held := match p.held with | [] => [1] | n :: t => (n + 1) :: t } else s) s

/-! ### The tick (16 R465, R469, R470, R477, R481) -/

def PSet.heldSum (p : PSet) : Nat := p.held.foldl (· + ·) 0

/-- The first of the sets with the largest (or smallest) key. -/
def pickSet (better : Nat → Nat → Bool) (key : Nat → Nat) (is : List Nat) : Option Nat :=
  is.foldl (fun b i => match b with
    | none => some i
    | some j => if better (key i) (key j) then some i else some j) none

def State.meanTen (s : State) : Nat × Nat := (s.pwr.lastTen.foldl (· + ·) 0, max 1 s.pwr.lastTen.length)

/-- One move toward the limit: lower a set, pace, or raise a set. -/
def State.controlMove (s : State) (t : PowerSample) : State :=
  let m := s.meanTen
  let sets := List.range 8
  if m.1 > s.pwr.limit * m.2 then
    let up := sets.filter fun i => decide ((s.pset i).point ≠ 0)
    if up.isEmpty then s.modPwr fun p => { p with pace := if p.pace ≤ 1 then 1 else p.pace - 1 }
    else
      let free := up.filter fun i => (s.pset i).heldSum == 0
      match pickSet (fun a b => decide (a > b)) (fun i => (s.pset i).est) (if free.isEmpty then up else free) with
      | some i => s.modSet i fun p => { p with lowerDue := true, raising := false, settled := false }
      | none => s
  else if m.1 * 100 < s.pwr.limit * m.2 * 97 then
    if s.pwr.pace < 16 then s.modPwr fun p => { p with pace := p.pace + 1 }
    else
      let may := sets.filter fun i => let p := s.pset i; decide (p.point.toNat < min 7 p.ceiling.toNat) && !p.raising && !p.lowerDue && !p.tripped
      let holders := may.filter fun i => decide ((s.pset i).heldSum > 0)
      let pick := if holders.isEmpty then pickSet (fun a b => decide (a < b)) (fun i => (s.pset i).point.toNat) may
        else pickSet (fun a b => decide (a > b)) (fun i => (s.pset i).heldSum) holders
      match pick with
      | some i => if t.raised.getD i 0 > s.pwr.limit then s else s.modSet i fun p => { p with raising := true, settled := false }
      | none => s
  else s

/-- Add energy in units of 1/1,024 uJ to a counter with its remainder (16 R482). -/
def addEnergy (c : Dword) (rem n : Nat) : Dword × Nat := (c + .ofNat 64 ((rem + n) / 1024), (rem + n) % 1024)

def State.chargeQueue (s : State) (qid : BitVec 12) (n : Nat) : State :=
  s.modQueue qid fun q => let e := addEnergy q.energy q.energyRem n; { q with energy := e.1, energyRem := e.2 }
def State.chargeIdle (s : State) (n : Nat) : State :=
  s.modPwr fun p => let e := addEnergy p.idle p.idleRem n; { p with idle := e.1, idleRem := e.2 }

/-- Charge n units to queues in proportion to their weights; cumulative floors keep the sum. -/
def chargeAmong (n total : Nat) : List (BitVec 12 × Nat) → Nat → State → State
  | [], _, s => s
  | (q, w) :: t, seen, s => chargeAmong n total t (seen + w) (s.chargeQueue q (n * (seen + w) / total - n * seen / total))

/-- Charge the interval's calibrated energy (16 R481). -/
def State.chargeTick (s : State) (t : PowerSample) : State :=
  -- 1 W over 10 us is 10 uJ, so 10,240 units
  let units (w : Nat) : Nat := w * 10240 * s.pwr.gain / 32768
  let busyOf (i : Nat) : List (BitVec 12 × Nat) := (t.busy.filter fun b => b.2.1.val == i && b.2.2 != 0).map fun b => (b.1, b.2.2)
  let sum (l : List (BitVec 12 × Nat)) : Nat := l.foldl (fun a b => a + b.2) 0
  let slots := (List.range 8).foldl (fun a i => a + units (t.slot.getD i 0)) 0
  let setE (i : Nat) : Nat := units (t.raw.getD i 0 - t.slot.getD i 0)
  let idleSets := (List.range 8).foldl (fun a i => if (busyOf i).isEmpty then a + setE i else a) 0
  let shared : Nat := ((idleSets + units t.fixed : Nat) + s.pwr.offset10 * 1024 : Int).toNat
  let busySum := (List.range 8).foldl (fun a i => if (busyOf i).isEmpty then a else a + setE i) 0
  let s := (List.range 8).foldl (fun s i => let b := busyOf i; if b.isEmpty then s else chargeAmong (setE i) (sum b) b 0 s) s
  let live := s.pwr.live
  let s := if live.isEmpty then s.chargeIdle shared else chargeAmong shared live.length (live.map fun q => (q, 1)) 0 s
  let s := s.chargeIdle slots
  s.modPwr fun p => let e := addEnergy p.total p.totalRem (busySum + shared + slots)
                    { p with total := e.1, totalRem := e.2, live := s.launches.map (·.qid) }

/-- Activity floor and ceiling of a set, in thousandths (16 R477); over the limit the floor gives way (R483). -/
def PSet.ramp (p : PSet) (activity tr : Nat) (overLimit : Bool) : PSet :=
  let floor := if overLimit then activity else max activity (p.floor - p.floor * 10 / tr)
  { p with floor := floor, roof := max floor (activity + (1000 - activity) * 10 / tr) }

/-- POWER_TICK. -/
def State.powerTick (s : State) (t : PowerSample) : State :=
  let raw := t.raw.foldl (· + ·) 0 + t.fixed
  let cal := s.pwr.calibrate raw
  let s := s.modPwr fun p => { p with estRaw := raw, estCal := cal, ticks := p.ticks + 1, windowRaw := p.windowRaw + raw,
                                      lastTen := (cal :: p.lastTen).take 10 }
  let s := (List.range 8).foldl (fun s i => s.modSet i fun p => { p with est := t.raw.getD i 0 }) s
  let s := s.controlMove t
  let s := s.modPwr fun p => { p with paceTicks := if p.pace < 16 then p.paceTicks + 1 else 0 }
  let overLimit := decide (s.meanTen.1 > s.pwr.limit * s.meanTen.2)
  let tr := max 1 s.pwr.ramp.toNat
  let s := (List.range 8).foldl (fun s i => s.modSet i fun p =>
    { p.ramp (min 1000 (t.activity.getD i 0)) tr overLimit with held := (0 :: p.held).take 10 }) s
  s.chargeTick t

/-- Ten seconds have passed since an event was last appended. -/
def Pwr.dueAgain (p : Pwr) (last : Option Nat) : Bool :=
  match last with | some n => decide (p.ticks ≥ n + 1000000) | none => true

/-- CAP_FLOOR: pacing has lasted 1 ms (16 R470). -/
def State.capFloor (s : State) : State :=
  if s.pwr.paceTicks ≥ 100 ∧ s.pwr.dueAgain s.pwr.lastFloor = true then
    (s.modPwr fun p => { p with lastFloor := some p.ticks }).log { code := eCapFloor, source := 4, kind := 8 }
  else s

/-! ### Measurement (16 R466, R467, R469) -/

def clampInt (lo hi x : Int) : Int := if x < lo then lo else if x > hi then hi else x

/-- Least squares over windows (raw energy, measured energy), in W ticks: gain in 1/32,768 and offset in 0.1 W. -/
def refit (ws : List (Nat × Nat)) : Nat × Int :=
  let n : Int := ws.length
  let sum (f : Nat × Nat → Nat) : Int := ((ws.foldl (fun a w => a + f w) 0 : Nat) : Int)
  let sx := sum (·.1)
  let sy := sum (·.2)
  let det := n * sum (fun w => w.1 * w.1) - sx * sx
  let gain : Nat :=
    (clampInt 27853 37683 (if det ≤ 0 then (Config.openGain ws : Int) else roundOpen 1 (32768 * (n * sum (fun w => w.1 * w.2) - sx * sy)) det.toNat)).toNat
  (gain, clampInt (-600) 600 (roundOpen 2 (10 * (32768 * sy - (gain : Int) * sx)) (32768 * 100 * max 1 ws.length)))

/-- MEASUREMENT_WINDOW: voltage in 10 mV and power in W, or none when the measurement is unavailable. -/
def State.window (s : State) (m : Option (Nat × Nat)) : State :=
  match m with
  | none => s.modPwr fun p => { p with windowRaw := 0 }
  | some (vin, pin) =>
    let ws := ((s.pwr.windowRaw, pin * 100) :: s.pwr.windows).take 16
    let g := refit ws
    let s := s.modPwr fun p => { p with vin := vin, pin := pin, windows := ws, windowRaw := 0, gain := g.1, offset := g.2, offsetFused := false }
    if pin * 100 > s.pwr.limit * 102 then s.modSets fun p => { p with lowerDue := true, raising := false, settled := false } else s

/-! ### Points, droop, temperature (16 R463, R464, R472) -/

def State.voltageSettled (s : State) (i : Nat) : State := s.modSet i fun p => if p.raising then { p with settled := true } else p

def State.droopDetect (s : State) (i : Nat) : State := s.modSet i fun p => { p with droop := satInc p.droop, drooping := true }
def State.droopRelease (s : State) (i : Nat) : State := s.modSet i fun p => { p with drooping := false }

def temp8 (n : Nat) : BitVec 8 := .ofNat 8 (min n 255)

/-- Every 1 ms ceilings fall; at each tenth step they rise (16 R472). -/
def State.thermalStep (s : State) (tenth : Bool) (tj hbm : List Nat) : State :=
  let s := s.modPwr fun p => { p with temps := (List.range 4).foldl (fun t i => sset 0 t i (temp8 (hbm.getD i 0))) p.temps }
  let hot := hbm.any fun t => decide (t ≥ 90)
  let cool := hbm.all fun t => decide (t ≤ 86)
  (List.range 8).foldl (fun s i =>
    let t := tj.getD i 0
    s.modSet i fun p =>
      let c := if t ≥ 100 ∨ hot = true then (if p.ceiling = 0 then 0 else p.ceiling - 1)
        else if tenth && cool && decide (t ≤ 96) && p.ceiling != 7 then p.ceiling + 1 else p.ceiling
      -- a ceiling wins over a raise (R483)
      let stop := decide (c.toNat ≤ p.point.toNat)
      { p with tj := temp8 t, ceiling := c, raising := p.raising && !stop, settled := p.settled && !stop }) s

def State.thermalTrip (s : State) (sensor : ThermalSensor) (reading : Nat) : State :=
  match sensor with
  | .set i =>
    let s := s.modSet i.val fun p => { p with tj := temp8 reading }
    if reading ≥ 105 ∧ (s.pset i.val).tripped = false then
      (s.modSet i.val fun p => { p with tripped := true }).log { code := eThermalTrip, source := 4, kind := 8 }
    else s
  | .hbm j =>
    let s := s.modPwr fun p => { p with temps := sset 0 p.temps j.val (temp8 reading) }
    if reading ≥ 95 ∧ s.pwr.hbmTrip = false then
      ((s.modPwr fun p => { p with hbmTrip := true }).modSets fun p => { p with raising := false, settled := false }).log { code := eThermalTrip, source := 4, kind := 8 }
    else s

def State.thermalRelease (s : State) (sensor : ThermalSensor) (reading : Nat) : State :=
  match sensor with
  | .set i =>
    let s := s.modSet i.val fun p => { p with tj := temp8 reading }
    if reading ≤ 95 ∧ (s.pset i.val).tripped = true then
      s.modSet i.val fun p => { p with tripped := false, point := 0, lowerDue := false, raising := false, settled := false }
    else s
  | .hbm j =>
    let s := s.modPwr fun p => { p with temps := sset 0 p.temps j.val (temp8 reading) }
    if (List.range 4).all fun k => decide ((sget 0 s.pwr.temps k).toNat ≤ 88) then s.modPwr fun p => { p with hbmTrip := false } else s

/-- k of R470 as it acts: an HBM trip holds it at 1. -/
def Pwr.k (p : Pwr) : Nat := if p.hbmTrip then 1 else p.pace

/-! ### Group budgets (16 R473-R476) -/

/-- A member as the coordinator sees it. -/
structure Member where
  dev : Nat
  held : Nat
  power : Nat
  cap : Nat
  deriving DecidableEq, Repr

/-- A member's share while the coordinator computes, in integer W; `on` takes part in a fill. -/
structure Share where
  dev : Nat
  a : Int
  cap : Int
  on : Bool
  deriving DecidableEq, Repr

/-- One pass of equal shares: q to each open member and 1 more to the first r; what was given. -/
def fillPass (q r : Nat) : Nat → List Share → List Share × Nat
  | _, [] => ([], 0)
  | n, m :: t =>
    if m.on && decide (m.a < m.cap) then
      let add := min (q + if n < r then 1 else 0) (m.cap - m.a).toNat
      let x := fillPass q r (n + 1) t
      ({ m with a := m.a + add } :: x.1, x.2 + add)
    else
      let x := fillPass q r n t
      (m :: x.1, x.2)

/-- Equal shares up to each cap, over the members marked on; what is left. -/
def fillShares : Nat → List Share → Nat → List Share × Nat
  | 0, l, s => (l, s)
  | fuel + 1, l, s =>
    let n := (l.filter fun m => m.on && decide (m.a < m.cap)).length
    if s = 0 ∨ n = 0 then (l, s)
    else
      let x := fillPass (s / n) (s % n) 0 l
      fillShares fuel x.1 (s - x.2)

def sumShares (l : List Share) : Int := (l.map (·.a)).sum

/-- The allocations of R475, by ascending device id, and what is left of the budget. Members that all want 600 W of a smaller budget
have no excess to shrink: R475 divides by 0 there, and their shares are free values whose sum does not exceed the budget (entry 46). -/
def allocate (b : Int) (ms : List Member) : List (Nat × Int) × Nat :=
  let n := ms.length
  let start : List Share := ms.map fun m =>
    { dev := m.dev, a := min (max (if m.held ≥ 1 then m.power else m.power + 25) 600) m.cap, cap := m.cap, on := decide (m.held ≥ 1) }
  let all (l : List Share) : List Share := l.map fun m => { m with on := true }
  let r :=
    if b < sumShares start then
      let above := (start.map fun m => m.a - 600).sum
      let small := start.map fun m =>
        { m with a := if above = 0 then min (Config.openShare m.dev) (b.fdiv n) else 600 + ((m.a - 600) * (b - 600 * n)).fdiv above }
      fillShares (n + 2) (all small) (b - sumShares small).toNat
    else
      let c := fillShares (n + 2) start (b - sumShares start).toNat
      fillShares (n + 2) (all c.1) c.2
  (r.1.map fun m => (m.dev, m.a), r.2)

/-- This device coordinates its group. -/
def State.coordinates (s : State) : Bool := s.pwr.grpEn && s.devidValid && s.pwr.coord == s.devid

/-- EV_BUDGET_LIMIT, at most once in 10 s. -/
def State.budgetEvent (s : State) : State :=
  if s.pwr.dueAgain s.pwr.lastBudget then (s.modPwr fun p => { p with lastBudget := some p.ticks }).log { code := evBudgetLimit, source := 4, kind := 8 } else s

def State.takeAllocation (s : State) (a : Nat) : State := if s.pwr.grpEn then s.modPwr fun p => { p with nextAlloc := some a } else s

/-- The coordinator takes a report. -/
def State.takeReport (s : State) (dev held power cap serial : Nat) : State :=
  if s.coordinates then s.modPwr fun p => { p with reports := sset ⟨0, 0, 0, 0⟩ p.reports dev ⟨held, power, cap, serial⟩ } else s

/-- This member's report: boundaries held since the last one, measured power, cap, serial (16 R474). -/
def State.makeReport (s : State) : State × (Nat × Nat × Nat × Nat) :=
  let held := (s.fab.held - s.pwr.heldMark).toNat
  (s.modPwr fun p => { p with heldMark := s.fab.held, repSerial := p.repSerial + 1 }, (held, s.pwr.pin, s.pwr.cap.toNat, s.pwr.repSerial))

/-- The coordinator computes: the new allocations of the members that reported. A silent member keeps its last one. -/
def State.computeAllocations (s : State) : State × List (Nat × Nat) :=
  let ms := s.pwr.reports.map fun e => (⟨e.1, e.2.held, e.2.power, e.2.cap⟩ : Member)
  let kept : Nat := (s.pwr.allocs.filter fun e => !(ms.any fun m => m.dev == e.1)).foldl (fun (a : Nat) (e : Nat × Nat) => a + e.2) 0
  let r := allocate ((s.pwr.budget.toNat : Int) - kept) ms
  -- an allocation below 0 W cannot be sent: it is 0 (entry 46)
  let shares : List (Nat × Nat) := r.1.map fun e => (e.1, e.2.toNat)
  let low : Sparse Nat := ms.foldl (fun (t : Sparse Nat) (m : Member) =>
    let a := ((r.1.find? fun e => e.1 == m.dev).map (·.2)).getD 0
    sset 0 t m.dev (if m.held ≥ 1 ∧ a < (m.cap : Int) ∧ r.2 = 0 then sget 0 s.pwr.lowPeriods m.dev + 1 else 0)) []
  let s := s.modPwr fun p => { p with reports := [], allocs := shares.foldl (fun t e => sset 0 t e.1 e.2) p.allocs, lowPeriods := low }
  (if low.any fun e => decide (e.2 ≥ 100) then s.budgetEvent else s, shares)

/-- No allocation for 5 ms. -/
def State.fallBack (s : State) : State :=
  if s.pwr.grpEn then (s.modPwr fun p => { p with fallback := true }).budgetEvent else s

/-! ### Registers (16 R485, R486) -/

def State.wCap (s : State) (v : Word) : State :=
  let c := wbits v 0 11
  if 600 ≤ c ∧ c ≤ 1600 then s.modPwr fun p => { p with cap := .ofNat 11 c, capErr := false } else s.modPwr fun p => { p with capErr := true }

def State.wGroupCtl (s : State) (v : Word) : State :=
  let on := bit1 v 31
  s.modPwr fun p =>
    { p with grpEn := on, grpErr := false, coord := .ofNat 12 (wbits v 12 12), members := .ofNat 12 (wbits v 0 12),
             alloc := if on then p.alloc else 0, nextAlloc := if on then p.nextAlloc else none, fallback := on && p.fallback }

def State.wGroupBudget (s : State) (v : Word) : State :=
  let n := s.pwr.members.toNat + 1
  let b := wbits v 0 23
  if 600 * n ≤ b ∧ b ≤ 1600 * n then s.modPwr fun p => { p with budget := .ofNat 23 b, grpErr := false } else s.modPwr fun p => { p with grpErr := true }

def State.wSlew (s : State) (v : Word) : State :=
  let r := wbits v 0 8
  if 50 ≤ r ∧ r ≤ 200 then s.modPwr fun p => { p with ramp := .ofNat 8 r } else s

end Sys2Proof.Machine
end

