-- ==== Sys2Proof/Machine/Fabric.lean ====
section
/-!
DEFINITION. The torus: flits and lanes (11 R313-R317), management messages (R317), training and the flooding of the map (R312, R323, R334).
-/

namespace Sys2Proof.Machine

/-! ### Flits (11 R313, R314) -/

/-- First port of a slot's route under the resident launch's epoch. -/
def State.slotPort (s : State) (slot : Nat) : Option (Fin 6) :=
  match s.resident with
  | none => none
  | some l => ((s.schedOf l).bind fun x => x.slots[slot]?).bind fun t => t.firstHop.map fun h => s.portTo h.1 h.2

/-- Stream bytes that a chunk still gathers: its slot, device, core, number and bytes so far. -/
structure Gather where
  slot : Nat
  dev : Nat
  core : Nat
  chunk : Nat
  data : List Byte
  deriving DecidableEq, Repr

def State.sendGather (s : State) (g : Option Gather) : State :=
  match g with
  | none => s
  | some g => match s.slotPort g.slot with
    | some p => s.sendFlit p 2 g.dev (.ofNat 6 g.core) (.ofNat 12 g.slot) g.chunk g.data
    | none => s

/-- Put the bytes of remote streams that have just left into flits of 256 bytes. -/
def State.flitsOf : List Out → Option Gather → State → State
  | [], g, s => s.sendGather g
  | .remote _ slot dev core _ _ bytes _ _ pos :: t, g, s =>
    match g with
    | some h =>
      if h.slot = slot ∧ h.dev = dev ∧ h.core = core ∧ h.chunk = pos / 256 then flitsOf t (some { h with data := h.data ++ bytes }) s
      else flitsOf t (some ⟨slot, dev, core, pos / 256, bytes⟩) (s.sendGather g)
    | none => flitsOf t (some ⟨slot, dev, core, pos / 256, bytes⟩) s
  | _ :: t, g, s => flitsOf t g s

/-- Flits for what left since the output held `before` entries. -/
def State.sendFlits (s : State) (before : Nat) : State := State.flitsOf (s.out.drop before) none s

/-- The port by which a flit for another device goes on: straight along its axis until it stands at its destination's coordinate, then along
the next axis by the shorter way (11 R317, entry 39: a flit names no route). -/
def State.transitPort (s : State) (p : Fin 6) (dst : Nat) : Fin 6 :=
  let me := s.devid.toNat
  let a := portAxis p
  if devCoord dst a ≠ devCoord me a then s.portTo a (movesPlus p)
  else
    match [Axis.x, .y, .z].find? fun b => devCoord dst b != devCoord me b with
    | some b => let n := s.sysDim b; s.portTo b (decide ((devCoord dst b + n - devCoord me b) % n ≤ n / 2))
    | none => p

/-- An intact flit in its turn: one for another device goes on; a control flit for this one may tell a wait state. -/
def State.takeFlit (s : State) (p : Fin 6) (f : Flit) : State :=
  if f.dst ≠ s.devid then s.pushFlit (s.transitPort p f.dst.toNat) f
  else if f.cls = 1 ∧ f.chunk = 0xFFFFFF then s.takeWaits f.tag f.data
  else s

/-- FLIT_RECEIVE: check and acknowledge, or ask for a replay. One that has come before is acknowledged again; one out of turn is discarded. -/
def State.flitIn (s : State) (p : Fin 6) (bs : List Byte) : State :=
  let q := s.port p
  if !s.portUp p then s
  else
    match readFlit bs with
    | none => (s.modPort p fun q => { q with discarding := true }).emit (.sym p (.nak (.flit q.rxSeq)))
    | some (f, seq) =>
      if f.cls = 0 then s
      else if seq = q.rxSeq then
        ((s.modPort p fun q => { q with rxSeq := q.rxSeq + 1, discarding := false }).emit (.sym p (.ack seq))).takeFlit p f
      else if (q.rxSeq - 1 - seq).toNat < 512 then s.emit (.sym p (.ack seq))
      else s

/-- ACK: the named flit and those before it leave the buffer, which has room for others; this member's collectives go on (12 R357). -/
def State.flitAck (s : State) (p : Fin 6) (seq : BitVec 12) (det : List Bool) : State × Bool :=
  let q := s.port p
  if !s.portUp p || !(q.replay.any fun f => f.1 == seq) then (s, false)
  else ((s.modPort p fun q => { q with replay := (q.replay.dropWhile fun f => f.1 != seq).drop 1, tries := 0 }).drainPort p).pump det

/-- NAK of a flit: replay in order from it; after 16 consecutive retries the link goes down. -/
def State.flitNak (s : State) (p : Fin 6) (seq : BitVec 12) : State :=
  let q := s.port p
  let again := q.replay.dropWhile fun f => f.1 != seq
  if !s.portUp p || again.isEmpty then s
  else
    -- a NAK acknowledges the flits before the one it names
    let tries := if q.replay.length = again.length then q.tries else 0
    if tries ≥ 16 then s.linkDown p
    else
      let s := s.modPort p fun q => { q with replay := again, tries := tries + 1, retries := again.foldl (fun n _ => satInc n) q.retries }
      (s.emitAll (again.map fun f => .flit p (f.2.bytes f.1))).drainPort p

/-! ### Lanes (11 R315) -/

/-- The spare takes a lane's data at this end. -/
def Port.spare (q : Port) (lane : Fin 9) (seq : BitVec 12) : Port :=
  { q with spareUsed := true, failedLane := .ofNat 4 lane.val, switch := some (lane, seq), spared := satInc q.spared }

def State.sparedRecord (s : State) (p : Fin 6) (lane : Fin 9) (cls : BitVec 2) : State :=
  s.log { code := evLaneSpared, source := 1, cls := cls, kind := 5, unit := .ofNat 12 (p.val * 256 + lane.val),
          detail := .ofNat 64 s.devid.toNat }

/-- A lane fails at this end of a trained link, in service or in standby: spared, or the link goes down (11 R316). -/
def State.laneFail (s : State) (p : Fin 6) (lane : Fin 9) : State :=
  let q := s.port p
  if !s.linkPorts.contains p then s
  else if q.spareUsed then s.linkDown p
  else
    let s := (s.modPort p fun q => q.spare lane q.txSeq).emit (.sym p (.lane lane q.txSeq))
    let n := s.noteEvent 5 (p.val * 16 + lane.val)
    let s := if n.2 then n.1.modPort p fun q => { q with permanent := some lane } else n.1
    s.sparedRecord p lane (if n.2 then 2 else 1)

def State.lanesFail (s : State) (p : Fin 6) (lanes : List (Fin 9)) (lockLost : Bool) : State :=
  if lockLost ∧ lanes.length ≥ 2 then s.linkDown p else lanes.foldl (fun s l => s.laneFail p l) s

/-- LANE from the far end: switch at its sequence number. -/
def State.laneSwitch (s : State) (p : Fin 6) (lane : Fin 9) (seq : BitVec 12) : State :=
  let q := s.port p
  if !s.linkPorts.contains p then s
  else if q.spareUsed then (if q.failedLane.toNat = lane.val then s else s.linkDown p)
  else s.modPort p fun q => q.spare lane seq

/-! ### Management messages (11 R317) -/

/-- Send a management message of up to 64 bytes; one to this device itself is delivered at once by `deliver`. -/
def State.sendMgmt (s : State) (dst : BitVec 12) (bytes : List Byte) (deliver : State → List Byte → State) : State :=
  if dst = s.devid then deliver s bytes
  else
    match s.portToward dst.toNat with
    | none => s
    | some p =>
      let n := ceilDiv bytes.length 8
      s.emitAll ((List.range n).map fun i => .sym p (.mgmt s.devid dst (.ofNat 4 i) (.ofNat 4 (n - 1)) ((bytes.drop (8 * i)).take 8)))

/-- A management message for this device: a report of R474. -/
def State.deliverMgmt (s : State) (bytes : List Byte) : State :=
  match Config.reportOf bytes with
  | some (dev, held, power, cap, serial) => s.takeReport dev held power cap serial
  | none => s

/-- MGMT: pass on, or gather and deliver; `total` is the number of symbols less 1. -/
def State.mgmtIn (s : State) (p : Fin 6) (src dst : BitVec 12) (index total : BitVec 4) (bytes : List Byte) : State :=
  if !s.portUp p then s
  else if dst ≠ s.devid then
    match s.portToward dst.toNat with
    | some p => s.emit (.sym p (.mgmt src dst index total bytes))
    | none => s
  else
    let parts := (s.fab.mgmt.filter fun m => !(m.1 == src && m.2.1 == index)) ++ [(src, index, bytes)]
    let mine (i : Nat) : Option (List Byte) := (parts.find? fun m => m.1 == src && m.2.1.toNat == i).map (·.2.2)
    let all := (List.range (total.toNat + 1)).map mine
    if all.all (·.isSome) then
      ({ s with fab := { s.fab with mgmt := parts.filter fun m => m.1 != src } } : State).deliverMgmt (all.filterMap id).flatten
    else { s with fab := { s.fab with mgmt := parts } }

/-- GROUP_REPORT and GROUP_ALLOCATE (16 R474, R475). -/
def State.groupReport (s : State) : State :=
  if !s.pwr.grpEn then s
  else
    let r := s.makeReport
    r.1.sendMgmt s.pwr.coord (Config.reportBytes s.devid.toNat r.2.1 r.2.2.1 r.2.2.2.1 r.2.2.2.2) State.deliverMgmt

def State.groupAllocate (s : State) : State :=
  if !s.coordinates then s
  else
    let r := s.computeAllocations
    r.2.foldl (fun s e => s.sendMgmt (.ofNat 12 e.1) (Config.allocationBytes e.1 e.2) fun s _ => s.takeAllocation e.2) r.1

/-! ### Training (11 R312, R323) -/

/-- FAB_COORD's fields: side minus 1, and coordinate, of an axis. -/
def coordSide (w : Word) (a : Axis) : Nat := wbits w (28 - 4 * axisNo a) 4 + 1
def coordOf (w : Word) (a : Axis) : Nat := wbits w (8 - 4 * axisNo a) 4

/-- Shape and coordinate as three nibbles, X first. -/
def shapeNibbles (w : Word) : BitVec 12 := .ofNat 12 (wbits w 20 12)
def devOfCoord (w : Word) : Nat := coordOf w .x + 16 * coordOf w .y + 256 * coordOf w .z
/-- A device id as coordinate nibbles, X first. -/
def coordNibbles (d : Nat) : BitVec 12 := .ofNat 12 (devCoord d .x * 256 + devCoord d .y * 16 + devCoord d .z)

/-- A port as training leaves it, its link layer anew. -/
def Port.train (q : Port) (st : PortState) : Port :=
  { q with state := st, rxSeq := 0, txSeq := 0, replay := [], backlog := [], tries := 0, discarding := false, switch := none, childHold := none,
           spareUsed := q.permanent.isSome, failedLane := match q.permanent with | some l => .ofNat 4 l.val | none => 0xF }

/-- The port's link has been lost since its two devices were last in one system together (11 R323, R334). -/
def State.wasLost (s : State) (p : Fin 6) (n : Nat) : Bool := !s.fab.parted && s.present n && s.hasLink s.fab.dead ⟨s.devid, p⟩

/-- What training makes of one port. -/
def State.trainPort (s : State) (p : Fin 6) (r : TrainResult) : State :=
  match s.nbrOf s.devid.toNat p.val with
  | none => s.modPort p fun q => { q with state := .unused }
  | some n =>
    let k : LinkId := ⟨s.devid, p⟩
    let out (s : State) : State := { s with fab := { s.fab with untrained := s.dropLink s.fab.untrained k ++ [k] } }
    match r with
    | .noLink => out (s.modPort p fun q => q.train .down)
    | .linked shape coord delta =>
      -- cause 1: neighbour mismatch; cause 2: a delay above 250 ns, which is 6,000 units of 1/16 fabric cycle (18 R524)
      let wrong := decide (shape ≠ shapeNibbles (s.fab.trained.getD 0) ∨ coord ≠ coordNibbles n)
      let nbr : BitVec 12 := coord.extractLsb' 0 4 ++ coord.extractLsb' 4 4 ++ coord.extractLsb' 8 4
      if wrong = true ∨ delta.toNat > 6000 then
        out ((s.modPort p fun q => { q.train .wiring with nbr := nbr, delta := delta }).log
          { code := eFabWiring, source := 1, kind := 4, unit := .ofNat 12 p.val, cause := if wrong then 1 else 2 })
      else if s.wasLost p n then (s.modPort p fun q => { q.train .standby with nbr := nbr, delta := delta }).learnStandby k none
      else
        let s := s.modPort p fun q => { q.train .up with nbr := nbr, delta := delta }
        let new := s.hasLink s.fab.untrained k || s.hasLink s.fab.dead k
        let s := { s with fab := { s.fab with dead := s.dropLink s.fab.dead k, untrained := s.dropLink s.fab.untrained k } }
        if new then s.symOn (s.linkPorts.filter (· != p)) (.link (.service k)) else s

/-- A coordinate outside its shape (11 R312). -/
def badCoord (w : Word) : Bool := [Axis.x, .y, .z].any fun a => decide (coordOf w a ≥ coordSide w a)

/-- Training begins under FAB_COORD: its shape and coordinate say which ports train (00 R8, 11 R312). -/
def State.beginTraining (s : State) : State :=
  let w := s.fab.coord
  let s := { s with fab := { s.fab with trained := some w, retraining := true, announced := [], holding := false, checkedTo := 0 } }
  if badCoord w then
    -- a device with a coordinate outside its shape trains no port; it has no id and is alone
    let s := allPorts.foldl (fun s p => s.modPort p fun q => q.train (if coordSide w (portAxis p) = 1 then .unused else .down)) s
    { s with devid := 0, devidValid := false, fab := { s.fab with live := false, isLeader := false } }
  else
    let s := { s with devid := .ofNat 12 (devOfCoord w), devidValid := true }
    allPorts.foldl (fun s p => s.modPort p fun q => q.train (if (s.nbrOf s.devid.toNat p.val).isNone then .unused else .training)) s

/-- Every device of the system has said that it is there: a device that a partition cut off has its system back (11 R323). -/
def State.allKnown (s : State) : Bool :=
  (List.range (s.sysDim .x)).all fun a => (List.range (s.sysDim .y)).all fun b => (List.range (s.sysDim .z)).all fun c =>
    s.fab.liveIds.any fun i => i.toNat == a + 16 * b + 256 * c

/-- The device has a port in service or is alone in its system, and neither has drained nor been cut off (11 R323). -/
def State.mayLive (s : State) : Bool :=
  s.devidValid && !s.err.drained && !s.fab.parted && (([Axis.x, .y, .z].all fun a => s.sysDim a == 1) || !s.upPorts.isEmpty)

/-- A device that may be live becomes so, and calls an election (11 R323). -/
def State.comeAlive (s : State) : State :=
  let s := { s with fab := { s.fab with parted := s.fab.parted && !s.allKnown } }
  let live := s.mayLive
  let s := { s with fab := { s.fab with live := live, election := if live then some (s.devid, s.fab.cnt) else none } }
  if live then s.symOn s.upPorts (.elect s.devid s.fab.cnt) else s

/-- This device's live-link map, for a port. -/
def State.mapMsg (s : State) : LinkMsg := .live s.fab.liveIds s.fab.dead s.fab.untrained

/-- A device whose drain has ended takes part in the next election or hand-over (17 R508): it is live again, and its map says so. -/
def State.backAlive (s : State) : State :=
  if s.mayLive then
    (({ s with fab := { s.fab with live := true, drainedIds := s.fab.drainedIds.filter (· != s.devid),
                                   liveIds := s.fab.liveIds.filter (· != s.devid) ++ [s.devid] } } : State).symOn s.linkPorts
      (.link (.live (s.fab.liveIds.filter (· != s.devid) ++ [s.devid]) s.fab.dead s.fab.untrained))).mapChanged
  else s

/-- FABRIC_TRAINING_COMPLETE: results by port. -/
def State.trainingDone (s : State) (rs : List TrainResult) : State :=
  let s := { s with fab := { s.fab with retraining := false } }
  if !s.devidValid then s
  else
    let s := allPorts.foldl (fun s p => s.trainPort p (rs.getD p.val .noLink)) s
    let me := s.devid
    let add (l ids : List (BitVec 12)) : List (BitVec 12) := l ++ ids.filter fun i => !l.contains i
    let s := if s.err.drained then { s with fab := { s.fab with drainedIds := add s.fab.drainedIds [me] } }
      else { s with fab := { s.fab with drainedIds := s.fab.drainedIds.filter (· != me),
                                        liveIds := add s.fab.liveIds (me :: (s.upPorts.map fun p => (s.port p).nbr).filter fun i => !s.fab.drainedIds.contains i) } }
    let s := s.comeAlive
    (s.symOn s.linkPorts (.link s.mapMsg)).mapChanged

/-- FAB_CTL.retrain (11 R312). -/
def State.wFabCtl (s : State) (v : Word) : State :=
  if !bit1 v 31 then { s with fab := { s.fab with err := false } }
  else if !s.launches.isEmpty then { s with fab := { s.fab with err := true } }
  else ({ s with fab := { s.fab with err := false } } : State).beginTraining

/-- A live-link map from a neighbour: what is new goes on, and a neighbour that knows less is told. -/
def State.mergeMap (s : State) (p : Fin 6) (ids : List (BitVec 12)) (dead untrained : List LinkId) : State :=
  let new := ids.filter fun i => !s.fab.liveIds.contains i && !(s.err.drained && i == s.devid)
  let lost := dead.filter fun d => !s.hasLink s.fab.dead d
  let out := untrained.filter fun d => !s.hasLink s.fab.untrained d && !s.hasLink s.fab.dead d
  let f := s.fab
  let s := { s with fab := { f with liveIds := f.liveIds ++ new, drainedIds := f.drainedIds.filter fun i => !new.contains i, dead := f.dead ++ lost,
                                    untrained := f.untrained ++ out } }
  let s := if f.liveIds.all ids.contains && f.dead.all (s.hasLink dead) && f.untrained.all (s.hasLink (untrained ++ dead)) then s else s.symOn [p] (.link s.mapMsg)
  if new.isEmpty && lost.isEmpty && out.isEmpty then s
  else
    let s := (s.symOn (s.linkPorts.filter fun q => q != p) (.link s.mapMsg)).mapChanged
    if s.fab.parted && s.allKnown then s.comeAlive else s

/-- A drained device leaves the live ones; its island still passes symbols on (14 R427). -/
def State.learnLeft (s : State) (p : Fin 6) (id : BitVec 12) : State :=
  if s.fab.drainedIds.contains id then s
  else
    let s := { s with fab := { s.fab with liveIds := s.fab.liveIds.filter (· != id), drainedIds := s.fab.drainedIds ++ [id] } }
    (s.symOn (s.linkPorts.filter fun q => q != p) (.link (.left id))).mapChanged

/-- LINK from a neighbour, on a port that carries it. What it says of this device's own links this device knows better. -/
def State.linkSym (s : State) (p : Fin 6) (m : LinkMsg) : State :=
  let ours (k : LinkId) : Bool := !(s.ownPorts k).isEmpty
  if !s.linkPorts.contains p then s
  else
    match m with
    | .loss k => s.learnLoss k (some p)
    | .standby k => s.learnStandby k (some p)
    | .service k => s.learnService k (some p)
    | .left id => s.learnLeft p id
    | .live ids dead untrained => s.mergeMap p ids (dead.filter fun k => !ours k) (untrained.filter fun k => !ours k)

end Sys2Proof.Machine
end

