-- ==== Sys2Proof/Machine/Beat.lean ====
section
/-!
DEFINITION. The beat (11 R323-R332): holding, announcing and passing boundaries, stretches, the hold limit, election and
hand-over of the leader.
-/

namespace Sys2Proof.Machine

/-! ### Holding (11 R326) -/

/-- CHECK_POINT: that of the next boundary that has not had its own. -/
def State.checkPoint (s : State) : State :=
  let top := if s.fab.checkedTo < s.fab.cnt then s.fab.cnt else s.fab.checkedTo
  ({ s with fab := { s.fab with checkedTo := top + 1 } } : State).refreshHold

/-- HOLD from a child. -/
def State.holdIn (s : State) (p : Fin 6) (on : Bool) (holder : BitVec 12) : State :=
  if !s.portUp p then s
  else State.tellHold s.lowestHolder (s.modPort p fun q => { q with childHold := if on then some holder else none })

/-! ### Announcing (11 R326, R328, R331) -/

/-- The number after every boundary announced, reported or passed. -/
def State.nextK (s : State) : Dword :=
  let top := s.fab.announced.foldl (fun m a => if m < a.k then a.k else m) s.fab.cnt
  (if top < s.fab.lastK then s.fab.lastK else top) + 1

/-- Losses that no announced boundary marks yet. -/
def State.toMark (s : State) : List LinkId :=
  s.fab.unmarked.filter fun k => !(s.fab.announced.any fun a => a.loss.any fun l => s.sameLink l k)

/-- Every BEAT and STRETCH symbol is sent twice (11 R324). -/
def State.twice (s : State) (ps : List (Fin 6)) (y : Sym) : State := (s.symOn ps y).symOn ps y

/-- The symbol that announces a boundary. -/
def Announced.sym (a : Announced) : BeatSym :=
  { k := a.k, remaining := a.remaining, handover := a.handover, loss := a.loss, stretch := a.stretch }

/-- An announced boundary, and its symbol to the children. -/
def State.announced (s : State) (a : Announced) : State :=
  ({ s with fab := { s.fab with announced := s.fab.announced ++ [a], lastK := a.k, lastStretch := none } } : State).twice s.treeChildren (.beat a.sym)

/-- BEAT_ANNOUNCE by the leader, while no HOLD reaches it; `stretch` is the time for which it withheld the boundary, in 10 ns. -/
def State.announce (s : State) (stretch : Nat) : State :=
  if !s.fab.isLeader || !s.fab.live || s.lowestHolder.isSome then s
  else
    let a : Announced :=
      { k := s.nextK, remaining := s.fab.aLead.toNat * 240, loss := s.toMark, handover := s.fab.handoverNext,
        stretch := if stretch = 0 then none else some ((s.fab.lastStretch.map (·.1)).getD s.devid, stretch) }
    ({ s with fab := { s.fab with handoverNext := none } } : State).announced a

/-- BEAT from the parent: the first copy sets the countdown and goes on to the children; when both copies fail, NAK asks for it again
(11 R324). -/
def State.beatIn (s : State) (p : Fin 6) (b : Option BeatSym) : State :=
  match b with
  | none => if s.portUp p then s.emit (.sym p (.nak .beat)) else s
  | some b =>
    if !s.portUp p || decide (b.k ≤ s.fab.cnt) || s.fab.announced.any fun a => decide (b.k ≤ a.k) then s
    else
      let s := b.loss.foldl (fun s l => s.learnLoss l (some p)) s
      let cost := (s.port p).delta.toNat + 384
      -- a countdown that has run out is applied on receipt, and its lateness counts as skew
      let s := if b.remaining < cost then
          { s with fab := { s.fab with skew := .ofNat 8 (max s.fab.skew.toNat (min 255 ((cost - b.remaining) / 24))) } } else s
      s.announced { k := b.k, remaining := b.remaining - cost, loss := b.loss, handover := b.handover, stretch := b.stretch }

/-- NAK of a BEAT or STRETCH: this device sends what it last told its children again, with its present countdown (11 R324). -/
def State.beatNak (s : State) (p : Fin 6) (remaining : Nat) : State :=
  if !s.portUp p then s
  else
    match s.fab.announced.getLast?, s.fab.lastStretch with
    | some a, _ => s.twice [p] (.beat { a.sym with remaining := remaining })
    | none, some b => s.twice [p] (.stretch s.nextK b.1 b.2)
    | none, none => s

/-- STRETCH_SEND by the leader, while it withholds a boundary. -/
def State.stretchSend (s : State) (elapsed : Nat) : State :=
  match s.fab.isLeader && s.fab.live, s.lowestHolder with
  | true, some h =>
    ({ s with fab := { s.fab with lastStretch := s.fab.lastStretch.map fun b => (b.1, elapsed) } } : State).twice s.treeChildren (.stretch s.nextK h elapsed)
  | _, _ => s

/-- STRETCH from the parent. -/
def State.stretchIn (s : State) (p : Fin 6) (k : Dword) (holder : BitVec 12) (elapsed : Nat) : State :=
  if !s.portUp p ∨ k ≤ s.fab.cnt ∨ s.fab.lastStretch = some (holder, elapsed) then s
  else
    let s := { s with fab := { s.fab with lastStretch := some (holder, elapsed) } }
    s.twice s.treeChildren (.stretch k holder elapsed)

/-! ### Passing (11 R326-R328, R331, R332) -/

/-- Beat-counted waits of the resident launch and deadlines of collectives; none counts while its launch is suspended or saved. -/
def State.countBoundary (s : State) : State :=
  let s := match s.resident with
    | some l => if l.start.isSome && l.suspended.isNone then s.mapCores Core.countWaits else s
    | none => s
  let counts (j : Word) : Bool := s.launches.any fun l => l.jobTag == j && l.suspended.isNone && l.cond == .resident
  { s with col := { s.col with colls := s.col.colls.map fun c => if counts c.jobTag then { c with counted := c.counted + 1 } else c } }

/-- Every engine records its progress as the start of its step (08 R245). -/
def Core.recordSteps (k : Core) : Core :=
  { k with eng := k.eng.map fun e => (e.1, e.2.map fun t => { t with stepStart := k.dw t.line.toNat 2 }) }

/-- A split of stream credits that waited takes effect (08 R244). -/
def State.applyCredits (s : State) : State :=
  match s.stm.next with
  | some n => { s with stm := { s.stm with read := n.1, write := n.2.1, remote := n.2.2, next := none } }
  | none => s

/-- The marked losses halt every affected launch (11 R331). -/
def State.haltLosses (s : State) (ls : List LinkId) : State :=
  let s := ls.foldl (fun s k => s.launches.foldl (fun s l => if s.affectedBy l k then s.haltForLoss l k else s) s) s
  { s with fab := { s.fab with unmarked := s.fab.unmarked.filter fun k => !(ls.any fun l => s.sameLink l k) } }

/-- The boundary in front passes. A loss that it marks halts its launches before the boundary counts (12 R367). -/
def State.passOne (s : State) (a : Announced) (late : Bool) : State × Bool :=
  let sets := sget 0 s.fab.heldSets a.k.toNat
  let lead := a.handover.getD s.fab.leader
  let stretch : BitVec 12 × BitVec 20 := match a.stretch with
    | some x => (x.1, .ofNat 20 (min 0xFFFFF x.2))
    | none => (s.fab.stretchHolder, s.fab.stretchLen)
  let s := { s with err := { s.err with noted := [] }, fab := { s.fab with
      cnt := a.k, announced := s.fab.announced.drop 1, heldSets := sset 0 s.fab.heldSets a.k.toNat 0,
      held := if sets = 0 then s.fab.held else satInc s.fab.held, late := if late then satInc s.fab.late else s.fab.late,
      stretchHolder := stretch.1, stretchLen := stretch.2,
      leader := lead, isLeader := if a.handover.isSome then lead == s.devid && s.fab.live else s.fab.isLeader } }
  let s := (s.applyCredits).powerBoundary fun i => sets.getLsbD i
  let s := ((s.haltLosses a.loss).countBoundary.mapCores Core.recordSteps).tellWaits
  let s := if a.handover.isSome then s.mapChanged else s
  let r := s.completeWaits
  let s := if r.1.atSwapPoint && a.loss.isEmpty then (r.1.swapOnce).beginPortTest else r.1
  (s, r.2 || !a.loss.isEmpty)

/-- Pass, in order, the announced boundaries whose time has come, until an obligation holds one. `now` is the boundary whose
time has just come: any other passes late. -/
def passDue : Nat → Option Dword → State × Bool → State × Bool
  | 0, _, r => r
  | fuel + 1, now, r =>
    match r.1.fab.announced with
    | a :: _ =>
      if a.due && r.1.holders.isEmpty then
        let q := r.1.passOne a (some a.k != now)
        passDue fuel now (q.1, r.2 || q.2)
      else r
    | [] => r

def markDue : List Announced → List Announced × Option Dword
  | [] => ([], none)
  | a :: t => if a.due then let r := markDue t; (a :: r.1, r.2) else ({ a with due := true } :: t, some a.k)

/-- BEAT_BOUNDARY: the next announced boundary's time has come. A boundary that is held asserts HOLD and passes late. -/
def State.boundary (s : State) (skew heldFor : Nat) : State × Bool :=
  let m := markDue s.fab.announced
  let s := { s with fab := { s.fab with announced := m.1, skew := .ofNat 8 (max s.fab.skew.toNat (min 255 skew)),
                                        holdTime := s.fab.holdTime + .ofNat 32 heldFor } }
  match m.2 with
  | none => (s, false)
  | some k =>
    -- its check point is over, whether or not it passes
    let s := { s with fab := { s.fab with checkedTo := if s.fab.checkedTo < k then k else s.fab.checkedTo } }
    let r := passDue s.fab.announced.length (some k) (s, false)
    (r.1.refreshHold, r.2)

/-- Late passes, and HOLD, after anything that may meet an obligation (11 R327). -/
def State.latePasses (s : State) : State × Bool :=
  let r := passDue s.fab.announced.length none (s, false)
  (r.1.refreshHold, r.2)

/-! ### The hold limit (11 R329) -/

/-- LIMIT(k), from the parent or sent by the leader, goes down the tree; at a device that asserts HOLD the launch with a core whose obligation
holds boundary k stops. -/
def State.limitAt (s : State) (k : Dword) : State × Bool :=
  let s := s.symOn s.treeChildren (.limit k)
  match s.resident, s.residentHolds.find? fun o => o.2 == k with
  | some l, some o =>
    if s.fab.holding then
      (s.stop l { code := eBeatHoldLimit, core := some o.1, pc := (s.core o.1).pc, source := 1, kind := 8, detail := s.fab.cnt }, true)
    else (s, false)
  | _, _ => (s, false)

def State.limitIn (s : State) (p : Fin 6) (k : Dword) : State × Bool := if s.portUp p then s.limitAt k else (s, false)

/-- The hold limit in beats. -/
def Fab.limitBeats (f : Fab) : Nat := if f.holdLimit = 0 then 65536 else f.holdLimit.toNat

/-- HOLD_LIMIT_EXPIRY at the leader, with a stretch of `elapsed` times 10 ns. -/
def State.holdLimit (s : State) (elapsed : Nat) : State × Bool :=
  if s.fab.isLeader && s.fab.live && s.lowestHolder.isSome && decide (100 * s.fab.limitBeats ≤ elapsed) then s.limitAt s.nextK else (s, false)

/-! ### Election and hand-over (11 R323) -/

/-- ELECTION_TIMEOUT: no BEAT or STRETCH has come for 5 us. -/
def State.electStart (s : State) : State :=
  if !s.fab.live || s.fab.election.isSome then s
  else
    let s := { s with fab := { s.fab with election := some (s.devid, s.fab.cnt), isLeader := false } }
    s.symOn s.upPorts (.elect s.devid s.fab.cnt)

/-- ELECT: the lowest id and the highest boundary seen go on. -/
def State.electIn (s : State) (p : Fin 6) (id : BitVec 12) (b : Dword) : State :=
  let mine := s.fab.election.getD (if s.fab.live then (s.devid, s.fab.cnt) else (0xFFF, s.fab.cnt))
  let new := (if id < mine.1 then id else mine.1, if mine.2 < b then b else mine.2)
  if !s.portUp p ∨ s.fab.election = some new then s
  else
    let s := { s with fab := { s.fab with election := some new, isLeader := false } }
    s.symOn s.upPorts (.elect new.1 new.2)

/-- ELECTION_END: the minimum has been stable. -/
def State.electEnd (s : State) : State :=
  match s.fab.election with
  | none => s
  | some (id, b) =>
    ({ s with fab := { s.fab with election := none, leader := id, isLeader := id == s.devid && s.fab.live,
                                  lastK := if s.fab.lastK < b then b else s.fab.lastK } } : State).mapChanged

/-- LEADER_HANDOVER: the next boundary announced carries the flag. -/
def State.handOver (s : State) (dest : BitVec 12) : State :=
  if s.fab.isLeader && s.fab.live && decide (dest < s.devid) && s.fab.liveIds.contains dest then
    { s with fab := { s.fab with handoverNext := some dest } } else s

end Sys2Proof.Machine
end

