-- ==== Sys2Proof/Machine/Dram.lean ====
section
/-!
DEFINITION. HBM bursts with their code, re-reads, retirement and poison (08 R218-R224), the shared cache (08 R225-R228),
lost data at its consumer (14 R409), and the walker's commands (08 R233-R237).
-/

namespace Sys2Proof.Machine

/-! ### The burst code (08 R220) -/

def crc16Bit (c : BitVec 16) (b : Bool) : BitVec 16 :=
  if (c.getLsbD 15 ^^ b) then (c <<< 1) ^^^ 0x1021 else c <<< 1
def crc16Byte (c : BitVec 16) (b : Byte) : BitVec 16 := [7, 6, 5, 4, 3, 2, 1, 0].foldl (fun c i => crc16Bit c (b.getLsbD i)) c

/-- The code of a burst: its 32 bytes, then address bits [36:5], big-endian. -/
def burstCode (burst : BitVec 32) (bs : List Byte) : BitVec 16 :=
  (bs ++ (leBytes 4 burst.toNat).reverse).foldl crc16Byte 0xFFFF

/-- Bytes as they arrive: stored bytes with the fault's mask. -/
def maskBytes (m : BitVec 256) (bs : List Byte) : List Byte :=
  (List.range 32).map fun i => bs.getD i 0 ^^^ m.extractLsb' (8 * i) 8

inductive ReadEnd where
  | good | poison | bad
  deriving DecidableEq, Repr

/-- How a read of a burst ends: the code that arrives against the code of the bytes that arrive. `Hbm.code` holds stored
codes as their difference from the correct code. -/
def Hbm.check (h : Hbm) (burst : BitVec 32) (f : ReadFault) : ReadEnd :=
  let bs := h.read (burst.toNat * 32) 32
  let stored := burstCode burst bs ^^^ sget 0 h.code burst.toNat
  let d := (stored ^^^ f.code) ^^^ burstCode burst (maskBytes f.data bs)
  if d = 0 then .good else if d = 0xFFFF then .poison else .bad

/-! ### Retirement (08 R222, R224) -/

def hbmRec (code : Code) (pa : Nat) : RecInfo :=
  { code := code, source := 0, cls := 2, kind := 3, unit := .ofNat 12 (Config.stackOf (pa / 4096)).val, detail := .ofNat 64 pa }

/-- Start to retire a granule to a spare of its stack; with none free the device drains. -/
def State.retireGranule (s : State) (g : BitVec 25) : State :=
  if s.hbm.retiring.any fun r => r.granule == g then s
  else
    let st := (Config.stackOf g.toNat).val
    let used := sget 0 s.hbm.sparesUsed st
    if used ≥ 2048 then s.logDrain (hbmRec eHbmSpareExhaust (g.toNat * 4096)) none
    else s.modHbm fun h => { h with sparesUsed := sset 0 h.sparesUsed st (used + 1),
                                    retiring := h.retiring ++ [{ granule := g, spare := st * 2048 + used, held := [] }] }

/-- Apply a held write to the spare; a merged one that meets a burst that the copy poisoned fails at its requester. -/
def State.heldWrite (s : State) (w : HeldWrite) : State :=
  if w.own then s.ownWrite w.pa w.bytes
  else
    let r := s.pwriteAs false w.va w.pa w.bytes
    match r.2, r.1.running with
    | some b, some l => r.1.haltOn l { code := eHbmDetect, cause := 2, va := w.va, pa := b * 32, merged := true } none 1 0
    | _, _ => r.1

/-- The copy is done: bursts that failed are poisoned in the spare, the remap entry is set (spare + 1; 0 is none), held
writes are applied in order. -/
def State.retireDone (s : State) (g : BitVec 25) (bad : List (BitVec 7)) : State :=
  match s.hbm.retiring.find? fun r => r.granule == g with
  | none => s
  | some r =>
    let s := s.modHbm fun h =>
      { h with retiring := h.retiring.filter fun x => x.granule != g, remap := sset 0 h.remap g.toNat (r.spare + 1),
               code := (List.range 128).foldl (fun t i =>
                 sset 0 t (g.toNat * 128 + i) (if bad.any fun b => b.toNat == i then 0xFFFF else
                   if sget 0 h.code (g.toNat * 128 + i) = 0xFFFF then 0xFFFF else 0)) h.code }
    -- requests that waited go on: held writes in their order, messages, instructions, streams
    let s := r.held.foldl State.heldWrite s
    let s := { s with qce := { s.qce with queues := s.qce.queues.map fun (e : Nat × Queue) => (e.1, { e.2 with blocked := false }) } }
    match s.running with
    | some l => (s.resumeUnits l.qid).1
    | none => s

/-! ### Lost data at its consumer (14 R409) -/

/-- The request of a stream that reads or writes a virtual address, as its first source byte. -/
def StreamDesc.byteOf (d : StreamDesc) (va : Nat) : Option Nat :=
  ((List.range (d.total / 64)).map (64 * ·)).find? fun p =>
    let a := d.request p
    let at' (x : Int) (n : Nat) : Bool := decide (at64 x ≤ va) && decide (va < at64 x + n)
    (d.src == .mem && at' a.1 64) || (d.dst == .mem && at' a.2 (d.out 64))

/-- The ACTIVE stream at an engine halts: progress goes back to the first byte not known to have committed (08 R246). The launch halts
with it, or is halted already, and the EVENT names the stream. -/
def State.failStream (s : State) (c : Nat) (eng : Fin 4) (e : XFail) : State :=
  match s.resident, (s.core c).headStream eng with
  | some l, some (st, d) =>
    let ln := st.line.toNat
    if (s.core c).streamState st.line = 2 ∧ s.saving = none ∧ (l.run = .running ∨ l.run.isHalted = true) then
      let back (k : Core) : Core := match d.byteOf e.va with
        | some p => if p < (k.dw ln 2).toNat then k.setDw ln 2 (.ofNat 32 p) else k
        | none => k
      (s.modCore c fun k => (back k).haltLine ln e).haltOn l e (some (c, (s.core c).streamPc st)) 2 ln
    else s
  | _, _ => s

/-- The place of the oldest flight of a core's MXU, for a halt's EVENT. -/
def Core.mxuPc (k : Core) : BitVec 20 := ((k.flight.find? fun f => f.unit == .mxu).map (·.ins.pc)).getD 0

/-- A failing access of a running launch, of its instruction at `pc`, halts it. -/
def State.haltAt (s : State) (c : Nat) (pc : BitVec 20) (e : XFail) (source : BitVec 3) : State :=
  match s.running with
  | some l => s.haltOn l e (some (c, pc)) source 0
  | none => s

/-- An access fails for good: each requester's outcome. -/
def State.accessFails (s : State) (who : Requester) (e : XFail) : State :=
  match who with
  | .stream c eng => s.failStream c.val eng e
  | .chain c | .fetch c => s.haltAt c.val (s.core c.val).mxuPc e 0
  | .receiver c => s.haltAt c.val 0 e 2
  | .coll c job id =>
    match s.running, s.collOf job id with
    | some l, some k => s.haltColl l k e
    | _, _ => s.haltAt c.val 0 e 1
  | .host => s

/-- A launch whose code is lost stops, and its AZX slot is emptied. -/
def State.loseCode (s : State) (qid : BitVec 12) (pa : Nat) (cause : Nat) : State :=
  match s.launchOf qid with
  | some l =>
    let s := { s with images := sset none s.images l.handle.toNat none }
    s.stop l { code := eHbmDetect, source := 0, cls := 1, kind := 3, unit := .ofNat 12 (Config.stackOf (pa / 4096)).val, cause := .ofNat 5 cause,
               detail := .ofNat 64 pa }
  | none => s

/-- A detected step is replayed, or its access repeated (14 R408, R409). -/
def State.replayed (s : State) (code : Code) (kind : BitVec 4) (unit : BitVec 12) (cause : BitVec 5) (pa : Nat) : State :=
  (s.log { code := code, source := 0, cls := 1, outcome := 1, kind := kind, unit := unit, cause := cause, detail := .ofNat 64 pa }).countReplay

/-- The repeated access fails too. -/
def State.dataLost (s : State) (who : Consumer) (va : Dword) (pa cause : Nat) : State :=
  let e : XFail := { code := eHbmDetect, cause := cause, va := va.toNat, pa := pa }
  let again (s : State) : State := s.replayed eHbmDetect 3 (.ofNat 12 (Config.stackOf (pa / 4096)).val) (.ofNat 5 cause) pa
  match who with
  | .stream c eng => s.accessFails (.stream c eng) e
  | .attnFetch c | .chain c | .walker c => s.accessFails (.chain c) e
  | .mergedWrite c => s.accessFails (.chain c) { e with merged := true }
  | .coll job id => match s.collOf job id with | some k => s.accessFails (.coll k.core job id) e | none => s
  | .code qid => (again s).loseCode qid pa cause
  | .exporter seq => (again s).dropSubs seq 6
  | .readMem => s
  | .owned => (again s).logDrain { hbmRec eHbmDetect pa with cause := .ofNat 5 cause } none

/-- Reads of READ_MEM that fail: it learns of them when it reads the bursts (13 R386). -/
def State.readFails (s : State) (bursts : List Nat) (code : Code) (cause : Nat) : State :=
  s.modHbm fun h => { h with failing := h.failing ++ bursts.map fun b => (b, code, cause) }

/-- A burst read returns and its code is checked (08 R221-R224, 14 R409). `second` is what the re-read meets. -/
def State.hbmRead (s : State) (burst : BitVec 32) (who : Consumer) (va : Dword) (first second : ReadFault) : State :=
  let pa := burst.toNat * 32
  let g : BitVec 25 := .ofNat 25 (pa / 4096)
  let unit : BitVec 12 := .ofNat 12 (Config.stackOf (pa / 4096)).val
  match s.hbm.check burst first with
  | .good => s
  | .poison => s.dataLost who va pa 2
  | .bad =>
    match s.hbm.check burst second with
    | .good =>
      let s := s.modHbm fun h => { h with rereadOk := satInc h.rereadOk }
      let n := s.noteEvent 3 g.toNat
      if n.2 then n.1.retireGranule g else n.1
    | _ =>
      let s := ((s.noteEvent 3 g.toNat).1).retireGranule g
      match who with
      | .readMem => s.readFails [burst.toNat] eHbmDetect 1
      | .mergedWrite _ => s.dataLost who va pa 1
      | _ => s.replayed eHbmDetect 3 unit 1 pa

/-- Write bytes of one burst; a merged write to a poisoned burst takes no effect and its requester is told (08 R220, R223).
At or beyond the end of the stacks there is no burst: every requester's address was checked before (08 R233, R219), and nothing is
written. True when a consumer was told. -/
def State.hbmWrite (s : State) (pa : BitVec 37) (bs : List Byte) (who : Consumer) (va : Dword) : State × Bool :=
  let bs := bs.take (32 - pa.toNat % 32)
  if pa.toNat + bs.length > hbmBytes then (s, false)
  else
    let r := s.pwriteAs false va.toNat pa.toNat bs
    match r.2 with
    | none => (r.1, false)
    | some b => (r.1.dataLost who va (b * 32) 2, true)

/-! ### The shared cache (08 R225-R228) -/

def State.waysOf (s : State) (slice : Fin 8) : Ways := sget {} s.hbm.ways slice.val

/-- Ways of a slice that serve lines. -/
def State.inService (s : State) (slice : Fin 8) : List (Fin 16) :=
  let w := s.waysOf slice
  (List.finRange 16).filter fun i => !w.out.getLsbD i.val && (w.spareUsed || i.val != (Config.spareWay slice.val).toNat)

def lineKey (pa : Nat) : Nat := pa / 128

/-- Place a line: in a free way of its set, or in the way of the line that `Config.cacheVictim` names by what the set holds, most recently
used first. The stream hint takes the least recently used position (08 R225, R226). -/
def State.allocLine (s : State) (pa : Nat) (dirty : Bool) (hint : Hint) : State :=
  let key := lineKey pa
  let slice := Config.homeSlice key
  let set := Config.lineSet key % 12288
  let mine (l : CLine) : Bool := l.slice == slice && l.set == set
  let held := s.hbm.lines.filter mine
  let free := (s.inService slice).filter fun w => !(held.any fun l => l.way == w)
  let put (way : Fin 16) (ls : List CLine) : State :=
    let l : CLine := { slice := slice, way := way, set := set, line := key, dirty := dirty }
    s.modHbm fun h => { h with lines := if hint = .stream then ls ++ [l] else l :: ls }
  match free with
  | w :: _ => put w s.hbm.lines
  | [] =>
    match held[Config.cacheVictim slice set (held.map fun l => l.way) % max 1 held.length]? with
    | some v => put v.way (s.hbm.lines.filter fun l => !(mine l && l.way == v.way))
    | none => s

/-- The unit number of a cache way: set in [11:8], way in [3:0]. -/
def wayUnit (slice : Fin 8) (way : Fin 16) : Nat := slice.val * 256 + way.val

/-- A parity detection in a held line: a clean line is refilled, a dirty one is written back with its bursts poisoned and
its requester replays (08 R227). A way's third event hands its role over (14 R416). -/
def State.lineParity (s : State) (l : CLine) (bursts : List (BitVec 2)) (who : Consumer) : State :=
  let n := s.noteEvent 2 (wayUnit l.slice l.way)
  let s := if n.2 then n.1.modHbm fun h => { h with handover := h.handover.filter (· != (l.slice, l.way)) ++ [(l.slice, l.way)] } else n.1
  if !l.dirty then s
  else
    let pa := l.line * 128
    let s := s.modHbm fun h =>
      { h with lines := h.lines.filter (· != l), code := bursts.foldl (fun t b => sset 0 t (4 * l.line + b.toNat) 0xFFFF) h.code }
    match who with
    | .readMem => s.readFails (bursts.map fun b => 4 * l.line + b.toNat) eParity 0
    | _ => s.replayed eParity 2 (.ofNat 12 (wayUnit l.slice l.way)) 0 pa

/-- An access at a line's home slice. -/
def State.cacheAccess (s : State) (pa : BitVec 37) (write full : Bool) (hint : Hint) (parity : Option (List (BitVec 2))) (who : Consumer) : State :=
  let key := lineKey pa.toNat
  match s.hbm.lines.find? fun l => l.line == key with
  | some l =>
    -- a full-line write reads nothing of the line (08 R225)
    let s := match parity with | some b => if write && full then s else s.lineParity l b who | none => s
    if s.hbm.lines.any fun x => x == l then
      s.modHbm fun h => { h with lines := { l with dirty := l.dirty || write } :: h.lines.filter (· != l) }
    else s
  | none =>
    if hint = .noAllocate then s else s.allocLine pa.toNat write hint

/-- A permanent way's role passes to the spare way at a boundary, or the way goes out of service (08 R228). -/
def State.wayHandover (s : State) (slice : Fin 8) (way : Fin 16) : State :=
  if !(s.hbm.handover.any fun e => e == (slice, way)) then s
  else
    let w := s.waysOf slice
    let w' : Ways := { out := w.out ||| (1#16 <<< way.val), spareUsed := true, degraded := w.degraded || w.spareUsed }
    s.modHbm fun h => { h with ways := sset {} h.ways slice.val w', handover := h.handover.filter (· != (slice, way)),
                               lines := h.lines.filter fun l => !(l.slice == slice && l.way == way) }

/-! ### Walks (08 R233, R235, R236) -/

def requesterCore : Requester → Option (Fin 64)
  | .stream c _ | .chain c | .fetch c | .coll c _ _ | .receiver c => some c
  | .host => none

/-- The walker keeps the pointers of a walk to the tables of levels 2, 1 and 0 (08 R236). -/
def State.keepPointer (s : State) (ctx : BitVec 8) (va : Dword) : State :=
  let put (log2 table : Nat) (s : State) : State :=
    { s with xlt := { s.xlt with walkCache := tlbPut 256 s.xlt.walkCache { ctx := ctx, page := va.toNat / 2 ^ log2, log2 := log2, pa := table, wr := false } } }
  let upper := match s.tables ctx (s.ctxOf ctx) va.toNat with | .ok t => put 30 t.2 (put 39 t.1 s) | .error _ => s
  match s.walkTo0 ctx va.toNat false with
  | .ok entry => put 21 (entry / 4096 * 4096) upper
  | .error _ => upper

/-- A walk completes: a translation enters the requester's core TLB and the shared one; a failure is its requester's. -/
def State.walkComplete (s : State) (who : Requester) (ctx : BitVec 8) (va : Dword) (write : Bool) : State :=
  match s.walk ctx va.toNat write with
  | .ok pa lg wr =>
    let t : Tlb := { ctx := ctx, page := va.toNat / 2 ^ lg, log2 := lg, pa := pa, wr := wr }
    let s := ({ s with xlt := { s.xlt with sharedTlb := sharedPut s.xlt.sharedTlb t } } : State).keepPointer ctx va
    match (requesterCore who).bind fun c => s.physOf c.val with
    | some p => { s with xlt := { s.xlt with coreTlb := smod [] s.xlt.coreTlb p fun l => tlbPut 64 l t } }
    | none => s
  | w => s.accessFails who (walkFail va.toNat w)

end Sys2Proof.Machine
end

