-- ==== Sys2Proof/Machine/Loader.lean ====
section
/-!
DEFINITION. LOAD_PROGRAM: AZX images and their sixteen checks (04 R128-R130, R538, 05 R162-R165, 13 R382), schedule images
(11 R318-R320), test packs (15 R435-R438), and the signature block (17 R490, R491).
-/

namespace Sys2Proof.Machine

/-! ### Rejections (13 R382) -/

structure Reject where
  code : Code
  check : Nat
  core : Nat := 0
  line : Nat := 0
  offset : Nat := 0
  deriving DecidableEq, Repr

abbrev LoadChk := Except Reject Unit

def Reject.result (r : Reject) : List Word :=
  [.ofNat 32 (r.core * 2 ^ 26 + r.line % 1024 * 2 ^ 16 + r.check), .ofNat 32 r.offset]

def want (ok : Bool) (r : Reject) : LoadChk := if ok then .ok () else .error r

/-- A failing check of a descriptor, reported under a check of R165. -/
def asReject {α : Type} (check core line : Nat) (x : Except Code α) : Except Reject α :=
  match x with
  | .ok a => .ok a
  | .error e => .error { code := e, check := check, core := core, line := line }

def forAll {α : Type} (l : List α) (f : α → LoadChk) : LoadChk := l.foldl (fun a x => do a; f x) (.ok ())

/-! ### Sections (04 R128, R538) -/

/-- A core's part of an image, as located. `codeAt` is the byte offset of its code. -/
structure CoreSrc where
  core : Nat
  code : List Dword
  codeAt : Nat
  entry : Nat
  wait : Nat
  slots : List Nat
  lines : List Word
  deriving DecidableEq, Repr

/-- Bytes at an offset as words. -/
def wordsAt (ws : List Word) (off n : Nat) : List Word := (ws.drop (off / 4)).take n

def noOverlap (rs : List (Nat × Nat)) : Bool :=
  (List.range rs.length).all fun i => (List.range i).all fun j => let a := rs.getD i (0, 0); let b := rs.getD j (0, 0); !rangesMeet a.1 a.2 b.1 b.2

/-- Locate the sections, the tables and every core's code and block; a failure is check 5 (05 R165). An entry offset
outside the code is left to check 2, which 04 R130 names for it (DEDUCED, entry 22). -/
def locate (ws : List Word) (len : Nat) : Except Reject (List CoreSrc) := do
  let bad (c off : Nat) : Reject := { code := eManifest, check := 5, core := c, offset := off }
  let h (i : Nat) : Nat := (wAt ws i).toNat
  let n := wbits (wAt ws 1) 0 7
  let co := h 4
  let deo := h 5
  let mo := h 6
  want (decide (len ≥ 32 ∧ h 0 = 0x41585A01 ∧ 1 ≤ n ∧ n ≤ 64 ∧ h 7 = len ∧ co % 8 = 0 ∧ co ≥ 32 ∧ deo % 64 = 0 ∧ mo % 64 = 0 ∧ co < deo ∧
    deo < mo ∧ mo < len ∧ co + 16 * n ≤ deo ∧ deo + 8 * n ≤ mo)) (bad 0 0)
  let ct (c : Nat) : List Word := wordsAt ws (co + 16 * c) 4
  let dt (c : Nat) : List Word := wordsAt ws (deo + 8 * c) 2
  forAll (List.range n) fun c =>
    let e := ct c
    let rel := (wAt e 0).toNat
    let size := (wAt e 1).toNat
    want (decide (rel % 8 = 0 ∧ rel ≥ 16 * n ∧ size % 8 = 0 ∧ 8 ≤ size ∧ size ≤ 0x100000 ∧ (wAt e 2).toNat % 8 = 0 ∧ wbits (wAt e 3) 24 8 = 0 ∧
      co + rel + size ≤ deo)) (bad c (co + 16 * c))
  forAll (List.range n) fun c =>
    let e := dt c
    let rel := (wAt e 0).toNat
    let size := (wAt e 1).toNat
    want (decide (rel % 64 = 0 ∧ rel ≥ 8 * n ∧ size % 64 = 0 ∧ 64 ≤ size ∧ size ≤ 65472 ∧ deo + rel + size ≤ mo)) (bad c (deo + 8 * c))
  want (noOverlap ((List.range n).map fun c => ((wAt (ct c) 0).toNat, (wAt (ct c) 1).toNat))) (bad 0 co)
  want (noOverlap ((List.range n).map fun c => ((wAt (dt c) 0).toNat, (wAt (dt c) 1).toNat))) (bad 0 deo)
  .ok ((List.range n).map fun c =>
    let at' := co + (wAt (ct c) 0).toNat
    let cw := wordsAt ws at' ((wAt (ct c) 1).toNat / 4)
    let bw := wordsAt ws (deo + (wAt (dt c) 0).toNat) ((wAt (dt c) 1).toNat / 4)
    { core := c, code := (List.range (cw.length / 2)).map fun i => dAt cw (2 * i), codeAt := at', entry := (wAt (ct c) 2).toNat,
      wait := wbits (wAt (ct c) 3) 0 24, slots := (List.range 32).map fun i => wbits (wAt bw (i / 2)) (16 * (i % 2)) 16, lines := bw.drop 16 })

/-! ### Checks 1 to 3: code (04 R130, R114) -/

/-- An instruction with its place in the image. -/
abbrev Placed := Nat × Instr

def CoreSrc.decode (k : CoreSrc) : Except Reject (List Placed) :=
  (List.range k.code.length).foldl (fun a i => do
    let l ← a
    match decodeCore (Fin.ofNat 64 k.core) (k.code.getD i 0) with
    | some x => .ok (l ++ [(k.codeAt + 8 * i, x)])
    | none => .error { code := eOpcode, check := 1, core := k.core, offset := k.codeAt + 8 * i }) (.ok [])

def endsCode : Instr → Bool
  | .endProgram _ | .br _ .always _ => true
  | _ => false

/-- The target of a BR, in bytes from the core's code. -/
def brTarget (k : CoreSrc) (p : Placed) : Option Int :=
  match p.2 with
  | .br _ _ off => some ((p.1 - k.codeAt : Nat) + 8 * off.toInt)
  | _ => none

def checkBounds (k : CoreSrc) (is : List Placed) : LoadChk := do
  let size := 8 * k.code.length
  let bad (off : Nat) : Reject := { code := eLocalBound, check := 2, core := k.core, offset := off }
  want (decide (k.entry < size)) (bad 0)
  forAll is fun p => want ((brTarget k p).all fun t => decide (0 ≤ t) && decide (t ≤ (size : Int) - 8)) (bad p.1)
  want ((is.getLast?).any fun p => endsCode p.2) (bad (k.codeAt + size - 8))

/-- The unit field of the word, and its wait and signal fields. -/
def unitCode (w : Dword) : BitVec 3 := w.extractLsb' 61 3
def waitOf (w : Dword) : Option (Fin 16) := (readTok (w.extractLsb' 51 5)).join
def signalOf (w : Dword) : Option (Fin 16) := (readTok (w.extractLsb' 46 5)).join

/-- Counters that an instruction waits on: its wt, and TWAIT's counter. -/
def waitsOn (w : Dword) (i : Instr) : List (Fin 16) :=
  (waitOf w).toList ++ (match i with | .twait _ k _ => [k] | _ => [])

/-- Counters that an instruction names. -/
def names (w : Dword) (i : Instr) : List (Fin 16) :=
  (waitOf w).toList ++ (signalOf w).toList ++ (match i with | .twait _ k _ => [k] | .tsig _ k _ => [k] | _ => [])

/-- Unit that waits on each counter; 7 is none (04 R129). -/
def CoreSrc.tokenUnits (k : CoreSrc) (is : List Placed) : Except Reject (List (BitVec 3)) :=
  (is.zip k.code).foldl (fun a e => do
    let us ← a
    (waitsOn e.2 e.1.2).foldl (fun a t => do
      let us ← a
      let u := us.getD t.val 7
      if u = 7 ∨ u = unitCode e.2 then .ok (us.set t.val (unitCode e.2))
      else .error { code := eTokenUse, check := 3, core := k.core, offset := e.1.1 }) (.ok us)) (.ok (List.replicate 16 7))

/-! ### Check 4: descriptors (04 R130 item 4, R538) -/

/-- The core as the image leaves its descriptor store. -/
def CoreSrc.store (k : CoreSrc) : Core := { dsc := swrite 0 [] 32 k.lines }

def CoreSrc.descs (k : CoreSrc) : List (Nat × Nat) := (descWalk k.store 1024 2)
def CoreSrc.ofKind (k : CoreSrc) (kind : Nat) : List Nat := (k.descs.filter fun e => e.2 == kind).map (·.1)
def CoreSrc.lineLen (k : CoreSrc) (line : Nat) : Nat := wbits (k.store.dw line 0) 16 12
def CoreSrc.mats (k : CoreSrc) : List (Nat × Mat) := (k.ofKind 2).filterMap fun ln => (parseMat (k.store.lineWords ln 16)).map fun d => (ln, d)
def CoreSrc.attns (k : CoreSrc) : List (Nat × AttnDesc) := (k.ofKind 4).filterMap fun ln => (parseAttn (k.store.lineWords ln 32)).map fun d => (ln, d)

def ok? {α : Type} (o : Option α) : Except Code Unit := match o with | some _ => .ok () | none => .error eDesc

/-- Format errors wait for check 16, ranges and overlaps for check 12. -/
def onlyDesc (c : Chk) : Chk := match c with | .error e => if e = eDesc then .error e else .ok () | .ok _ => .ok ()

/-- The field rules of one descriptor. Chains, offset blocks and element programs that it names must be there; loop nests
are check 10. -/
def CoreSrc.fieldsOk (k : CoreSrc) (line kind : Nat) : Chk := do
  let s := k.store
  let ws (n : Nat) : List Word := s.lineWords line (16 * n)
  match kind with
  | 1 => .ok ()
  | 2 => match parseMat (ws 1) with
    | none => .error eDesc
    | some d =>
      ok? (s.offCount d.ob)
      match s.latchChain d.chain with
      | none => .error eDesc
      | some ch => need (ch.useOk .mma && ch.elemsOk s.elemLine && s.armOk ch) eDesc
  | 3 => match s.latchChain line with
    | none => .error eDesc
    | some ch => need (ch.useOk .any && ch.elemsOk s.elemLine && s.armOk ch) eDesc
  | 4 => match parseAttn (ws 2) with
    | none => .error eDesc
    | some d =>
      ok? (s.offCount d.ob)
      match s.latchChain d.chain with
      | none => .error eDesc
      | some ch => need (ch.useOk .attn && ch.elemsOk s.elemLine) eDesc
  | 5 => match parseStream (ws 1) with | .error e => onlyDesc (.error e) | .ok _ => .ok ()
  | 6 => match collFields (ws 1) with | some e => onlyDesc (.error e) | none => .ok ()
  | 7 => ok? (parseExport (ws 1))
  | 8 => match parseOffHeader line (ws 1) with
    | none => .error eDesc
    | some n => need ((List.range n).all fun p => (parseOffs (s.lineWords (line + 1 + p) 16)).isSome) eDesc
  | 9 => ok? (parseElem (ws 3))
  | _ => .error eDesc

def CoreSrc.checkDescs (k : CoreSrc) : LoadChk := do
  let top := 2 + k.lines.length / 16
  forAll (List.range 32) fun i =>
    let v := k.slots.getD i 0
    want (decide (v < 1024 ∧ v ≠ 1)) { code := eDesc, check := 4, core := k.core, line := v % 1024, offset := 2 * i }
  forAll k.descs fun e => do
    let n := k.lineLen e.1
    want (decide (n ≥ 1 ∧ e.1 + n ≤ top)) { code := eDesc, check := 4, core := k.core, line := e.1 }
    asReject 4 k.core e.1 (k.fieldsOk e.1 e.2)

/-! ### Checks 5 to 8: the manifest (05 R162-R164) -/

structure Buf where
  core : Nat
  align : Nat
  offset : Nat
  size : Nat
  id : Nat
  shared : Bool
  at' : Nat
  deriving DecidableEq, Repr

structure CoreRec where
  accMask : Nat
  tokMask : Nat
  bytes : Nat
  deriving DecidableEq, Repr

structure Manifest where
  recs : List CoreRec
  bufs : List Buf
  shapes : List Shape
  deriving DecidableEq, Repr

def parseManifest (ws : List Word) (n : Nat) : Except Reject Manifest := do
  let mo := (wAt ws 6).toNat
  let len := (wAt ws 7).toNat
  let bad (c line off : Nat) : Reject := { code := eManifest, check := 5, core := c, line := line, offset := off }
  want (decide (wbits (wAt ws 1) 16 16 = 1 ∧ wbits (wAt ws 1) 7 9 = 0)) (bad 0 0 4)
  let m := wordsAt ws mo 16
  let nb := wbits (wAt m 1) 0 16
  let nc := wbits (wAt m 1) 16 16
  let ns := wbits (wAt m 2) 16 16
  let ml := (wAt m 3).toNat
  want (decide (wAt m 0 = 0x4D414E01 ∧ nc = n ∧ wbits (wAt m 2) 0 16 = 0 ∧ mo + ml = len ∧ ml = 64 + 16 * nc + 16 * nb + 32 * ns) &&
    (m.drop 4).all (· == 0)) (bad 0 0 mo)
  let rAt (i : Nat) : Nat := mo + 64 + 16 * i
  let bAt (i : Nat) : Nat := rAt nc + 16 * i
  let sAt (i : Nat) : Nat := bAt nb + 32 * i
  forAll (List.range nc) fun i =>
    let e := wordsAt ws (rAt i) 4
    want (decide (wbits (wAt e 0) 26 6 = i ∧ wbits (wAt e 0) 16 2 = 0 ∧ wAt e 2 = 0 ∧ wAt e 3 = 0)) (bad i 0 (rAt i))
  forAll (List.range nb) fun i =>
    let e := wordsAt ws (bAt i) 4
    want (decide (wbits (wAt e 2) 1 15 = 0 ∧ wAt e 3 = 0)) (bad (wbits (wAt e 0) 26 6) 0 (bAt i))
  forAll (List.range ns) fun i =>
    let e := wordsAt ws (sAt i) 8
    want (decide (wAt e 1 ≠ 0 ∧ wAt e 2 ≠ 0 ∧ wAt e 3 ≠ 0) && (e.drop 4).all (· == 0)) (bad (wbits (wAt e 0) 26 6) (wbits (wAt e 0) 16 10) (sAt i))
  .ok { recs := (List.range nc).map fun i =>
          let e := wordsAt ws (rAt i) 4
          { accMask := wbits (wAt e 0) 18 8, tokMask := wbits (wAt e 0) 0 16, bytes := (wAt e 1).toNat },
        bufs := (List.range nb).map fun i =>
          let e := wordsAt ws (bAt i) 4
          { core := wbits (wAt e 0) 26 6, align := wbits (wAt e 0) 22 4, offset := wbits (wAt e 0) 0 22, size := (wAt e 1).toNat,
            id := wbits (wAt e 2) 16 16, shared := bit1 (wAt e 2) 0, at' := bAt i },
        shapes := (List.range ns).map fun i =>
          let e := wordsAt ws (sAt i) 8
          { core := wbits (wAt e 0) 26 6, line := wbits (wAt e 0) 16 10, maxProb := wbits (wAt e 0) 0 16, mMax := (wAt e 1).toNat,
            nMax := (wAt e 2).toNat, kMax := (wAt e 3).toNat } }

/-- Check 6. -/
def Manifest.buffersOk (m : Manifest) : LoadChk := do
  forAll (List.range m.bufs.length) fun i =>
    match m.bufs[i]? with
    | none => .ok ()
    | some b =>
      want (decide (6 ≤ b.align ∧ b.align ≤ 12 ∧ b.offset ≥ 0x100 ∧ b.offset % 2 ^ b.align = 0 ∧ b.size ≥ 64 ∧ b.offset + b.size ≤ ostSize) &&
        (m.bufs.take i).all fun o => o.core != b.core ||
          (o.id != b.id && ((o.shared && b.shared) || !rangesMeet o.offset o.size b.offset b.size)))
        { code := eManifest, check := 6, core := b.core, offset := b.at' }
  forAll (List.range m.recs.length) fun c =>
    want (((m.bufs.filter fun b => b.core == c).map (·.size)).foldl (· + ·) 0 == ((m.recs[c]?).map (·.bytes)).getD 0)
      { code := eManifest, check := 6, core := c }

/-- Check 7. -/
def tokensOk (k : CoreSrc) (is : List Placed) (r : CoreRec) : LoadChk :=
  forAll (is.zip k.code) fun e => want ((names e.2 e.1.2).all fun t => r.tokMask.testBit t.val)
    { code := eManifest, check := 7, core := k.core, offset := e.1.1 }

/-- Tiles that an instruction names. -/
def tilesOf : Instr → BitVec 8
  | .epi _ _ _ b t => tileMask b.toNat t.toNat
  | .accinit _ m _ => m
  | .vaccr _ _ t _ _ | .vaccw _ _ t _ _ => 1#8 <<< t.toNat
  | _ => 0

/-- Check 8. -/
def accOk (k : CoreSrc) (is : List Placed) (r : CoreRec) : LoadChk := do
  let ok (m : BitVec 8) : Bool := (m &&& ~~~(.ofNat 8 r.accMask)) == 0
  forAll k.mats fun d => want (ok (tileMask d.2.accBase d.2.accTiles)) { code := eManifest, check := 8, core := k.core, line := d.1 }
  forAll k.attns fun d => want (ok (tileMask d.2.accBase d.2.accTiles)) { code := eManifest, check := 8, core := k.core, line := d.1 }
  forAll is fun p => want (ok (tilesOf p.2)) { code := eManifest, check := 8, core := k.core, offset := p.1 }

/-! ### Checks 9 to 16 -/

/-- A matrix descriptor with its nest, chain and shape entry. -/
structure MatJob where
  core : Nat
  line : Nat
  d : Mat
  n : Nest
  ch : Chain
  sh : Shape

structure AttnJob where
  core : Nat
  line : Nat
  d : AttnDesc
  ch : Chain
  sh : Shape

def Manifest.shapeOf (m : Manifest) (c line : Nat) : Option Shape :=
  match m.shapes.filter fun e => e.core == c && e.line == line with
  | [e] => some e
  | _ => none

/-- Check 9. -/
def CoreSrc.shapesOk (k : CoreSrc) (m : Manifest) : LoadChk :=
  forAll ((k.mats.map fun e => (e.1, e.2.ob)) ++ k.attns.map fun e => (e.1, e.2.ob)) fun e =>
    want (match m.shapeOf k.core e.1 with
      | some sh => decide (sh.maxProb ≥ (k.store.offCount e.2).getD 0)
      | none => false) { code := eManifest, check := 9, core := k.core, line := e.1 }

/-- Check 10. -/
def CoreSrc.nestsOk (k : CoreSrc) (m : Manifest) : LoadChk := do
  let nestAt (line : Nat) : Option Nest := (k.store.latch line 2).bind parseNest
  forAll (k.ofKind 1) fun line => want (nestAt line).isSome { code := eDesc, check := 10, core := k.core, line := line }
  forAll k.mats fun e => do
    let bad : Reject := { code := eDesc, check := 10, core := k.core, line := e.2.nest }
    match nestAt e.2.nest, k.store.latchChain e.2.chain, m.shapeOf k.core e.1 with
    | some n, some ch, some sh => want (n.flowOk e.2.flow && (!ch.retain || n.retainOk) && n.tkOk sh.kMax) bad
    | _, _, _ => .error bad
  forAll k.attns fun e =>
    want ((m.shapeOf k.core e.1).any fun sh => decide (sh.kMax ≤ 128)) { code := eDesc, check := 10, core := k.core, line := e.1 }

def CoreSrc.matJobs (k : CoreSrc) (m : Manifest) : List MatJob :=
  k.mats.filterMap fun e =>
    match (k.store.latch e.2.nest 2).bind parseNest, k.store.latchChain e.2.chain, m.shapeOf k.core e.1 with
    | some n, some ch, some sh => some { core := k.core, line := e.1, d := e.2, n := n, ch := ch, sh := sh }
    | _, _, _ => none

def CoreSrc.attnJobs (k : CoreSrc) (m : Manifest) : List AttnJob :=
  k.attns.filterMap fun e =>
    match k.store.latchChain e.2.chain, m.shapeOf k.core e.1 with
    | some ch, some sh => some { core := k.core, line := e.1, d := e.2, ch := ch, sh := sh }
    | _, _ => none

def Manifest.ranges (m : Manifest) : List (Nat × Nat × Nat) := m.bufs.map fun b => (b.core, b.offset, b.size)

/-- What a chain reads and writes in the operand store for rows m0 to m0 + mn - 1: within the store (04 R126). -/
def Chain.inStore (c : Chain) (m0 mn nx : Nat) : Bool :=
  (c.epiRows 0 m0 mn nx ++ c.nsRows 0 m0 mn nx ++ (c.resids.map fun s => s.residRows 0 m0 mn nx).flatten).all rangeOk

/-- Every format of a chain has a width. -/
def Chain.widthsOk (c : Chain) : Bool := decide (c.dstFmt < 8) && (c.pro ++ c.epi).all fun s => decide (s.fmt < 8)

/-- The MMA of a job at planned maxima and zero offsets; none outside its split. -/
def MatJob.mma (j : MatJob) (k : CoreSrc) : Option Mma := buildMma k.store j.core 0 j.d j.n j.ch {} j.sh j.sh.mMax j.sh.nMax j.sh.kMax

/-- The core's first M tile at M_max, counted by its whole share. -/
def MatJob.first (j : MatJob) : Nat := if j.n.split = 0 then 0 else (j.core - j.n.c0) * j.n.share j.sh.mMax

/-- The MMA over the core's whole share at M_max, its A rebased (05 R160); the padding limit of M is kept in its own rows. -/
def MatJob.whole (j : MatJob) (k : CoreSrc) : Option Mma :=
  if (j.n.range j.core 1).isNone then none
  else buildMma k.store j.core 0 j.d { j.n with split := 0, padM := j.n.padM - j.first } j.ch {} j.sh (j.n.share j.sh.mMax) j.sh.nMax j.sh.kMax

/-- Check 12 for a matrix descriptor: A and B lie within one declared buffer each, over R t_m rows (05 R160, R165); what its chain reads
and writes lies in the store. -/
def MatJob.boundsOk (j : MatJob) (k : CoreSrc) (m : Manifest) : Chk :=
  if j.d.fmtA ≥ 8 ∨ j.d.fmtB ≥ 8 ∨ j.ch.widthsOk = false then .ok ()
  else do
    match j.whole k with
    | none => .ok ()
    | some x =>
      need (decide (j.n.padM ≠ 0 ∧ j.n.padM ≤ j.first) || holds m.ranges j.core x.rowsA) eLocalBound
      need (holds m.ranges j.core x.rowsB) eLocalBound
    match j.mma k with
    | none => .ok ()
    | some x =>
      need ((x.dstRows ++ x.proRows).all rangeOk && j.ch.inStore x.mlo (x.mhi - x.mlo) x.nx) eLocalBound
      need (!x.overlap) eChainOverlap

/-- Check 12 for an attention descriptor (09 R263). -/
def AttnJob.boundsOk (j : AttnJob) (m : Manifest) : Chk :=
  if j.d.fmtQ ≥ 8 ∨ j.d.fmtK ≥ 8 ∨ j.d.fmtV ≥ 8 ∨ j.ch.widthsOk = false then .ok ()
  else do
    let r := j.d.ranges j.ch {} j.sh.mMax j.sh.kMax
    need (r.arrays.all (holds m.ranges j.core) && r.dst.all rangeOk && j.ch.inStore 0 (j.d.g * j.sh.mMax) j.sh.kMax) eLocalBound
    need (!(j.d.overlaps j.ch {} j.sh.mMax j.sh.kMax (attnDst j.d j.ch {} j.sh.mMax))) eChainOverlap

/-- Check 12 for a stream descriptor (04 R130, 08 R242). -/
def streamBounds (ws : List Word) : Chk :=
  match parseStream ws with
  | .error _ => .ok ()
  | .ok d => do
    need d.boundsOk eLocalBound
    need (!d.overlaps) eStmOverlap

/-- Check 15: offset-block extents. -/
def extentsOk (k : CoreSrc) (ob : Nat) (sh : Shape) : LoadChk :=
  if ob = 0 then .ok ()
  else forAll (List.range ((k.store.offCount ob).getD 0)) fun p =>
    match parseOffs (k.store.lineWords (ob + 1 + p) 16) with
    | some o => want (!o.valid || decide (o.m ≤ sh.mMax ∧ o.n ≤ sh.nMax ∧ o.k ≤ sh.kMax))
        { code := eShapeOver, check := 15, core := k.core, line := ob + 1 + p }
    | none => .ok ()

/-- Formats and conversion fields of every descriptor. -/
def CoreSrc.descFormatsOk (k : CoreSrc) : LoadChk :=
  forAll k.descs fun e => asReject 16 k.core e.1 (
    let s := k.store
    let ws (n : Nat) : List Word := s.lineWords e.1 (16 * n)
    match e.2 with
    | 2 => match parseMat (ws 1) with
      | some d => match s.latchChain d.chain with
        | some ch => do
          d.formats (if ch.pro.isEmpty then none else some ch.proFmt)
          ch.formats (some (if d.flow = 1 then d.fmtB else d.fmtA))
        | none => .ok ()
      | none => .ok ()
    | 3 => match s.latchChain e.1 with | some ch => ch.formats none | none => .ok ()
    | 4 => match parseAttn (ws 2) with | some d => d.formats | none => .ok ()
    | 5 => match parseStream (ws 1) with | .error c => .error c | .ok _ => .ok ()
    | 6 => match collFields (ws 1) with | some c => .error c | none => .ok ()
    | _ => .ok ())

/-- Format fields of a VLD or VST word (02 R38, R39, 04 R109). -/
def vmemFormats : Instr → Chk
  | .vld _ _ fmt uns _ _ => do
    need (decide (fmt.toNat < 8)) eFmtReserved
    need (!uns || fmt == 2 || fmt == 5) eFmtIllegal
  | .vst _ _ fmt uns _ _ => do
    need (decide (fmt.toNat < 8)) eFmtReserved
    need (decide (fmt.toNat ≥ 6) && !uns) eFmtIllegal
  | _ => .ok ()

/-- Some instruction or descriptor of the core can tag a tile I32 (03 R72). -/
def tagsI32 (is : List Placed) (jobs : List Mma) (t : Nat) : Bool :=
  (is.any fun p => match p.2 with | .accinit _ mask isI32 => isI32 && mask.getLsbD t | _ => false) ||
    jobs.any fun x => !x.d.accumulate && x.isInt && decide (x.d.accBase ≤ t ∧ t ≤ x.d.accBase + x.d.accTiles)

/-- The image fixes a tile's tag as F32, that of LAUNCH, where no DST rewrites a descriptor of the core and nothing of it tags the tile I32:
an I32 accumulate-mode descriptor on that tile stops whenever it runs (03 R72; DESIGN CHOICE, entry 22). -/
def CoreSrc.tagsOk (k : CoreSrc) (is : List Placed) (jobs : List MatJob) : LoadChk :=
  if is.any fun p => match p.2 with | .dst .. => true | _ => false then .ok ()
  else
    let built := jobs.filterMap fun j => (j.whole k).map fun x => (j.line, x)
    forAll built fun e => want (!(e.2.d.accumulate && e.2.isInt) || tagsI32 is (built.map (·.2)) e.2.d.accBase)
      { code := eAccType, check := 16, core := k.core, line := e.1 }

/-- Check 16: formats and conversion fields of every instruction, then of every descriptor, then the tags (entry 22). -/
def CoreSrc.formatsOk (k : CoreSrc) (m : Manifest) (is : List Placed) : LoadChk := do
  forAll is fun p => match vmemFormats p.2 with
    | .ok _ => .ok ()
    | .error e => .error { code := e, check := 16, core := k.core, offset := p.1 }
  k.descFormatsOk
  k.tagsOk is (k.matJobs m)

/-- The loader: the checks of R165 in order, and the image that passes them. -/
def loadAzx (bytes : List Byte) : Except Reject Image := do
  let ws := leWords (bytes.length / 4) bytes
  let ks ← locate ws bytes.length
  let codes ← ks.foldl (fun a k => do let l ← a; let is ← k.decode; .ok (l ++ [is])) (.ok [])
  let jobs := ks.zip codes
  forAll jobs fun e => checkBounds e.1 e.2
  let units ← jobs.foldl (fun a e => do let l ← a; let us ← e.1.tokenUnits e.2; .ok (l ++ [us])) (.ok [])
  forAll ks fun k => k.checkDescs
  let m ← parseManifest ws ks.length
  m.buffersOk
  let recs := jobs.zip m.recs
  forAll recs fun e => tokensOk e.1.1 e.1.2 e.2
  forAll recs fun e => accOk e.1.1 e.1.2 e.2
  forAll ks fun k => k.shapesOk m
  forAll ks fun k => k.nestsOk m
  let mats := (ks.map fun k => (k.matJobs m).map fun j => (k, j)).flatten
  let attns := (ks.map fun k => (k.attnJobs m).map fun j => (k, j)).flatten
  forAll mats fun e => want (e.2.n.covers 0 e.2.sh.mMax && e.2.n.covers 1 e.2.sh.nMax && e.2.n.covers 2 e.2.sh.kMax)
    { code := eManifest, check := 11, core := e.2.core, line := e.2.line }
  forAll mats fun e => asReject 12 e.2.core e.2.line (e.2.boundsOk e.1 m)
  forAll attns fun e => asReject 12 e.2.core e.2.line (e.2.boundsOk m)
  forAll ks fun k => forAll (k.ofKind 5) fun ln => asReject 12 k.core ln (streamBounds (k.store.lineWords ln 16))
  forAll mats fun e => want (decide (e.2.n.demand e.2.d.flow (e.2.n.share e.2.sh.mMax) e.2.sh.nMax e.2.sh.kMax e.2.ch.retain ≤ e.2.d.accTiles + 1))
    { code := eAccCapacity, check := 13, core := e.2.core, line := e.2.line }
  forAll attns fun e => want (decide (2 * e.2.d.sTiles e.2.sh.mMax ≤ e.2.d.accTiles + 1)) { code := eAccCapacity, check := 13, core := e.2.core, line := e.2.line }
  forAll mats fun e => asReject 14 e.2.core e.2.line (e.2.n.spans e.2.d.flow (e.2.n.share e.2.sh.mMax) e.2.sh.nMax e.2.sh.kMax e.2.ch.newScale)
  forAll mats fun e => extentsOk e.1 e.2.d.ob e.2.sh
  forAll attns fun e => extentsOk e.1 e.2.d.ob e.2.sh
  forAll jobs fun e => e.1.formatsOk m e.2
  .ok { modelId := dAt ws 2, shapes := m.shapes, bufs := m.ranges,
        cores := (ks.zip units).map fun e => { core := e.1.core, code := e.1.code, entry := e.1.entry, waitLimit := e.1.wait,
                                               slots := e.1.slots.map (.ofNat 10), lines := e.1.lines, tokenUnits := e.2 } }

/-! ### The signature block (17 R490, R491) -/

/-- The block that ends an image at `sigOff`: its two key slots, or cause 0x04. -/
def sigBlock (bs : List Byte) (sigOff : Nat) : Option (Nat × Nat) :=
  let b := (bs.drop sigOff).take 16
  let at' (i : Nat) : Nat := (b.getD i 0).toNat
  if sigOff + 1564 = bs.length ∧ leNat (b.take 4) = 0x53494701 ∧ at' 4 / 16 < 4 ∧ at' 4 % 16 < 4 ∧
      leNat ((b.drop 5).take 3) = 0 ∧ leNat ((b.drop 8).take 4) = 1452 ∧ leNat ((b.drop 12).take 4) = 0 then some (at' 4 / 16, at' 4 % 16)
  else none

/-- The cause of a signature failure; none when the image verifies. `svnOk` is the check of a stage image. -/
def Sec.sigCause (s : Sec) (bs : List Byte) (sigOff : Nat) (svnOk : Bool) (v : SigVerdict) : Option Nat :=
  match sigBlock bs sigOff with
  | none => some 4
  | some (e, l) =>
    if s.ecdsaRev.getLsbD e || s.lmsRev.getLsbD l then some 3
    else if !svnOk then some 5
    else if !v.ecdsa then some 1
    else if !v.lms then some 2
    else none

/-! ### Schedule images (11 R318-R320) -/

def hop5 (v : Nat) : Int := if v ≥ 16 then (v : Int) - 32 else v

def parseSlot (ws : List Word) : SchedSlot :=
  let a := wAt ws 0
  { used := wbits a 30 2 == 1, share := wbits a 24 6, hops := (hop5 (wbits a 10 5), hop5 (wbits a 5 5), hop5 (wbits a 0 5)),
    order := .ofNat 3 (wbits (wAt ws 1) 29 3) }

/-- An accepted launch uses the image. -/
def State.schedUsed (s : State) (x : Sched) : Bool :=
  s.launches.any fun l => l.jobTag == x.jobTag && l.ep == x.epoch

/-- Port by which a slot's route leaves this device. -/
def State.leaves (s : State) (t : SchedSlot) : Option (Fin 6) := if t.used then t.firstHop.map fun h => s.portTo h.1 h.2 else none

/-- The slot table breaks R320. -/
def State.slotsBad (s : State) (x : Sched) (raw : List (List Word)) : Bool :=
  (raw.any fun e => decide (wbits (wAt e 0) 30 2 ≥ 2) || decide (wbits (wAt e 1) 29 3 ≥ 6) ||
      [0, 5, 10].any fun lo => wbits (wAt e 0) lo 5 == 16) ||
    (x.slots.any fun t => t.used && (t.share == 0 || (s.routeEnd x t).isNone)) ||
    (List.range 6).any fun p => decide (((x.slots.filter fun t => (s.leaves t).any fun q => q.val == p).map (·.share)).foldl (· + ·) 0 > 64)

/-- A schedule image, or the cause that rejects it (11 R319). -/
def State.readSched (s : State) (bs : List Byte) : Except Nat Sched :=
  let w := leWords 16 bs
  let h (i : Nat) : Nat := (wAt w i).toNat
  let w3 := wAt w 3
  let box := (wbits w3 28 4 + 1, wbits w3 24 4 + 1, wbits w3 20 4 + 1)
  let nslot := wbits (wAt w 4) 0 13
  let vol := box.1 * box.2.1 * box.2.2
  let mo := h 6
  let so := h 7
  let sig := h 8
  let entries := (List.range vol).map fun i => leNat ((bs.drop (mo + 2 * i)).take 2)
  let raw := (List.range nslot).map fun i => leWords 2 ((bs.drop (so + 8 * i)).take 8)
  let map := entries.map fun e => (e / 256 % 16, e / 16 % 16, e % 16)
  let x : Sched :=
    { epoch := .ofNat 16 (wbits (wAt w 1) 0 16), jobTag := wAt w 2, box := box, origin := (wbits w3 8 4, wbits w3 4 4, wbits w3 0 4),
      self := .ofNat 12 (wbits (wAt w 4) 20 12), map := map, slots := raw.map parseSlot, lastUse := s.useClock + 1 }
  let inBox (p : Nat × Nat × Nat) : Bool := decide (p.1 < box.1 ∧ p.2.1 < box.2.1 ∧ p.2.2 < box.2.2)
  if h 0 ≠ 0x53434801 ∨ wbits (wAt w 1) 16 16 ≠ 1 ∨ wbits w3 12 8 ≠ 0 ∨ wbits (wAt w 4) 13 7 ≠ 0 ∨ (w.drop 9).any (· != 0) ∨ nslot > 4096 ∨
      h 5 ≠ bs.length ∨ mo + 2 * vol > sig ∨ so + 8 * nslot > sig ∨ (entries.any fun e => e ≥ 4096) ∨
      (raw.any fun e => wbits (wAt e 0) 15 9 != 0 || wbits (wAt e 1) 0 29 != 0) then .error 1
  else if box.1 > s.sysDim .x ∨ box.2.1 > s.sysDim .y ∨ box.2.2 > s.sysDim .z ∨ map.any (fun p => !inBox p) ∨ ¬ map.Nodup ∨
      x.self.toNat ≥ vol ∨ s.devAt x (x.pos x.self.toNat) ≠ s.devid.toNat then .error 2
  else if s.slotsBad x raw then .error 3
  else .ok x

/-- Place a schedule image (11 R318, R319). -/
def State.placeSched (s : State) (x : Sched) : Except Nat State :=
  let same (y : Sched) : Bool := y.jobTag == x.jobTag && y.epoch == x.epoch
  let put (l : List Sched) : State := { s with scheds := l ++ [x], useClock := s.useClock + 1 }
  match s.scheds.find? same with
  | some y => if s.schedUsed y then .error 4 else .ok (put (s.scheds.filter fun z => !same z))
  | none =>
    if s.scheds.length < 16 then .ok (put s.scheds)
    else
      match (s.scheds.filter fun y => !s.schedUsed y).foldl (fun b y => match b with | none => some y | some z => some (if y.lastUse < z.lastUse then y else z)) none with
      | none => .error 5
      | some (v : Sched) => .ok (put (s.scheds.filter fun y => !(y.jobTag == v.jobTag && y.epoch == v.epoch)))

/-! ### Test packs (15 R435-R438) -/

def packCase (bs : List Byte) (e : List Word) : TCase :=
  { port := wbits (wAt e 0) 28 4 == 2, limit := wbits (wAt e 0) 0 16, input := (bs.drop (wAt e 3).toNat).take (wAt e 4).toNat,
    outLen := (wAt e 5).toNat, expect := wAt e 6 ++ wAt e 7 ++ wAt e 8 ++ wAt e 9 }

/-- A test pack, or its cause and the result word 0 of cause 0x03. -/
def State.readPack (s : State) (bs : List Byte) : Except (Nat × Nat) Pack := do
  let w := leWords 16 bs
  let n := wbits (wAt w 1) 0 16
  let co := (wAt w 4).toNat
  let seq := wAt w 2
  let es := (List.range n).map fun i => leWords 12 ((bs.drop (co + 48 * i)).take 48)
  let f (e : List Word) (i : Nat) : Nat := (wAt e i).toNat
  let fields (e : List Word) : Bool :=
    (wbits (wAt e 0) 28 4 == 1 || wbits (wAt e 0) 28 4 == 2) && wbits (wAt e 0) 16 12 == 0 && wbits (wAt e 0) 0 16 != 0 && f e 4 % 64 == 0 &&
      f e 5 % 64 == 0 && decide (64 ≤ f e 5 ∧ f e 5 ≤ 0x01000000) && wAt e 10 == 0 && wAt e 11 == 0
  if wAt w 0 ≠ 0x54535401 ∨ wbits (wAt w 1) 16 16 ≠ 1 ∨ n = 0 ∨ n > 4096 ∨ seq = 0 ∨ (wAt w 3).toNat ≠ bs.length ∨ bs.length > 4 * 1048576 ∨
      (w.drop 6).any (· != 0) then .error (1, 0)
  else if co + 48 * n > bs.length then .error (4, 0)
  else if es.any fun e => !fields e then .error (1, 0)
  else if (s.tst.act.any fun p => p.seq.toNat ≥ seq.toNat) ∨ (s.tst.stg.any fun p => p.seq.toNat ≥ seq.toNat) then .error (2, 0)
  else if es.any fun e => decide (f e 1 + f e 2 > bs.length) || decide (f e 3 + f e 4 > bs.length) || decide (f e 4 + f e 5 > testArea) then .error (4, 0)
  else
    (List.range n).foldl (fun a i => do
      let _ ← a
      let e := es.getD i []
      if wbits (wAt e 0) 28 4 = 1 then
        match loadAzx ((bs.drop (f e 1)).take (f e 2)) with
        | .ok im => if im.cores.length = 1 then .ok () else .error (1, 0)
        | .error r => .error (3, i * 65536 + r.check)
      else .ok ()) (Except.ok (ε := Nat × Nat) ())
    .ok { seq := seq, cases := es.map (packCase bs), image := bs }

/-! ### The message -/

def State.imageUsed (s : State) (handle : BitVec 4) : Bool := s.launches.any fun l => l.handle == handle

/-- LOAD_PROGRAM (13 R382): its code and result. Word i of the command is word i - 1 of `b`. -/
def State.loadProgram (s : State) (ctx : BitVec 8) (priv : Bool) (b : List Word) (sig : SigVerdict) : State × CmdFail :=
  let w1 := wAt b 0
  let kind := wbits w1 30 2
  let handle : BitVec 4 := .ofNat 4 (wbits w1 0 4)
  let va := (wAt b 2 ++ wAt b 1).toNat
  let len := (wAt b 3).toNat
  if wbits w1 4 26 ≠ 0 ∨ kind = 3 ∨ (kind ≠ 0 ∧ handle ≠ 0) then (s, (eCqtMsg, []))
  else if kind ≠ 0 ∧ priv = false then (s, (ePriv, []))
  else if kind = 0 ∧ s.imageUsed handle = true then (s, (eImageHandle, []))
  else
    match s.vread none ctx va len with
    | .error e => (s, e.result)
    | .ok bs =>
      let sigOff (i : Nat) : Nat := leNat ((bs.drop (4 * i)).take 4)
      match kind with
      | 0 =>
        match loadAzx bs with
        | .ok im => ({ s with images := sset none s.images handle.toNat (some im) }, (0, []))
        | .error r => ({ s with images := sset none s.images handle.toNat none }, (r.code, r.result))
      | 1 =>
        match s.sec.sigCause bs (sigOff 8) true sig with
        | some c => (s, (eSigFail, [0, .ofNat 32 c]))
        | none =>
          match s.readSched bs with
          | .error c => (s, (eSchedImage, [0, .ofNat 32 c]))
          | .ok x =>
            match s.placeSched x with
            | .error c => (s, (eSchedImage, [0, .ofNat 32 c]))
            | .ok s => (s, (0, []))
      | _ =>
        match s.sec.sigCause bs (sigOff 5) true sig with
        | some c => (s, (eSigFail, [0, .ofNat 32 c]))
        | none =>
          match s.readPack bs with
          | .error (c, w) => (s, (eTestPack, [.ofNat 32 w, .ofNat 32 c]))
          | .ok p => ({ s with tst := { s.tst with stg := some p } }, (0, []))

end Sys2Proof.Machine
end

