-- ==== Sys2Proof/Machine/Boot.lean ====
section
/-!
DEFINITION. The input stage (16 R478-R480), boot (17 R487-R498), the drain flag (17 R508), measurements and SPDM (17
R500-R503), sensors (17 R505, R506), firmware update (17 R509-R511), the history's writes (14 R415).
-/

namespace Sys2Proof.Machine

def State.modSec (s : State) (f : Sec → Sec) : State := { s with sec := f s.sec }
def State.modErr (s : State) (f : Err → Err) : State := { s with err := f s.err }

/-! ### Power of the compute domain (16 R478-R480, 18 R525) -/

/-- Volatile state is lost; the flash, the fuses, the history, the remap table, the saved test pack, the drain flag and the
rack side's state stay (14 R415, 17 R487, R505, R508), and so does the core map (00 R5, 14 R434): a core whose test ends with the
power is its set's spare again. -/
def State.powerDown (s : State) : State :=
  let s := if s.sec.stage = 7 ∧ s.err.drained = false then s.emit (.pwrGood false) else s
  let r := State.reset
  { r with
    pending := s.pending, out := s.out, fresh := s.fresh,
    hbm := { r.hbm with remap := s.hbm.remap, sparesUsed := s.hbm.sparesUsed },
    err := { r.err with opsec := s.err.opsec, history := s.err.history, flagged := s.err.flagged,
                        roles := s.err.roles.filterMap fun e =>
                          let r := if e.2 = 0xA then 8 else e.2
                          if r = .ofNat 4 (e.1 % 9) then none else some (e.1, r) },
    pwr := { r.pwr with switch := .opened, latched := s.pwr.latched, opening := s.pwr.opening, present := s.pwr.present },
    sec := { r.sec with svn := s.sec.svn, ecdsaRev := s.sec.ecdsaRev, lmsRev := s.sec.lmsRev, pendingFw := s.sec.pendingFw, flashA := s.sec.flashA,
                        flashB := s.sec.flashB, eid := s.sec.eid, dynAddr := s.sec.dynAddr, svc3v3 := s.sec.svc3v3, powered := false },
    tst := { r.tst with act := s.tst.act } }

/-- INPUT_CHARGE: the switch closes after 100 ms at 40-60 V, unless it is latched off. -/
def State.charge (s : State) : State :=
  if s.pwr.switch = .opened ∧ s.pwr.latched = false then s.modPwr fun p => { p with switch := .charging, present := true } else s

/-- INPUT_CHARGE_COMPLETE: Minuet leaves reset. -/
def State.charged (s : State) : State :=
  if s.pwr.switch = .charging then (s.modPwr fun p => { p with switch := .closed }).modSec fun c => { c with powered := true } else s

/-- The switch opens with a cause; a latched opening waits until the input has been absent for 1 s. -/
def State.openSwitch (s : State) (why : Opening) (latch present : Bool) : State :=
  if s.pwr.switch = .opened then s
  else (s.powerDown).modPwr fun p => { p with opening := why, latched := latch, present := present }

/-- INPUT_ABSENT_RELEASE. -/
def State.absentRelease (s : State) : State :=
  if s.pwr.switch = .opened then s.modPwr fun p => { p with latched := false, present := false } else s

/-! ### Stage images (17 R487, R491, R492) -/

/-- Bytes of a flash bank; the flag is bank B. -/
def Sec.flash (c : Sec) (bank : Bool) (off n : Nat) : List Byte := sread 0xFF (if bank then c.flashB else c.flashA) off n

/-- Offset and size of a stage's area. -/
def stageArea (two : Bool) : Nat × Nat := if two then (0x40000, 0x7C0000) else (0, 0x40000)

structure StageImg where
  svn : Nat
  version : Nat
  revoke : Nat
  signed : List Byte
  deriving DecidableEq, Repr

/-- Verify a stage image: the first failing check's cause, or the image. -/
def Sec.verify (c : Sec) (two : Bool) (bs : List Byte) (v : SigVerdict) : Except Nat StageImg :=
  let w := leWords 16 bs
  let svn := wbits (wAt w 1) 24 8
  let off := (wAt w 4).toNat
  let revoke := wbits (wAt w 5) 0 8
  let bad := (wAt w 0).toNat ≠ (if two then 0x53544702 else 0x53544701) ∨ svn > 64 ∨ (wAt w 2).toNat ≠ bs.length ∨ off < 64 ∨
    wbits (wAt w 5) 8 24 ≠ 0 ∨ (w.drop 6).any (· != 0)
  match sigBlock bs off with
  | none => .error 4
  | some (e, l) =>
    if bad ∨ revoke.testBit (4 + e) = true ∨ revoke.testBit l = true then .error 4
    else
      match c.sigCause bs off (decide (svn ≥ c.svn.toNat)) v with
      | some k => .error k
      | none => .ok { svn := svn, version := wbits (wAt w 1) 0 24, revoke := revoke, signed := bs.take off }

/-- Verify the stage image of a bank. Its length is the header's; one that does not fit its area is malformed. -/
def Sec.verifyBank (c : Sec) (two bank : Bool) (v : SigVerdict) : Except Nat StageImg :=
  let a := stageArea two
  let len := leNat (c.flash bank (a.1 + 8) 4)
  if len < 64 ∨ len > a.2 then .error 4 else c.verify two (c.flash bank a.1 len) v

def verdictOf (v : BootVerdicts) (two bank : Bool) : SigVerdict :=
  match two, bank with
  | false, false => v.s1a | false, true => v.s1b | true, false => v.s2a | true, true => v.s2b

/-- Try a bank, then the other: the bank and image, or none, with the causes of the failed tries. -/
def Sec.tryBanks (c : Sec) (two first : Bool) (v : BootVerdicts) : Option (Bool × StageImg) × List Nat :=
  match c.verifyBank two first (verdictOf v two first) with
  | .ok i => (some (first, i), [])
  | .error a =>
    match c.verifyBank two (!first) (verdictOf v two (!first)) with
    | .ok i => (some (!first, i), [a])
    | .error b => (none, [a, b])

/-! ### Boot (17 R494-R498) -/

/-- SEC_FUSE (17 R513). -/
def Sec.fuse (c : Sec) : Word := c.svn ++ c.ecdsaRev ++ c.lmsRev ++ (0 : BitVec 16)

def State.setMeas (s : State) (i : Nat) (bs : List Byte) : State := s.modSec fun c => { c with meas := sset [] c.meas i bs }

/-- A boot that fails stops at stage 0xF with its cause. -/
def State.bootFail (s : State) (cause : BitVec 4) (writable : Bool) : State :=
  let s := s.modSec fun c => { c with stage := 0xF, cause := cause }
  if writable then s.history 8 0 (.bootFail cause) else s

/-- BOOT_ROM: at stage 0 only. -/
def State.bootRom (s : State) (v : BootVerdicts) : State :=
  if s.sec.powered = false ∨ s.sec.stage ≠ 0 ∨ s.sec.secretLocked = true then s
  else
    let s := s.modSec fun c => { c with secretLocked := true, pendingFw := false }
    let s := (s.setMeas 1 Config.romDigest).setMeas 2 (leBytes 4 s.sec.fuse.toNat ++ Config.repairDigest)
    let r := s.sec.tryBanks false false v
    let s := s.modSec fun c => { c with tries := r.2, fallback := !r.2.isEmpty }
    match r.1 with
    | none => s.bootFail 1 v.flashWritable
    | some (b, i) => (s.setMeas 3 (sha384 i.signed)).modSec fun c => { c with bankS1 := b, ver1 := .ofNat 24 i.version, stage := 1 }

/-- A unit's last word in the history is that it is permanent: it has not rejoined since (14 R416, 15 R451). -/
def State.isPermanent (s : State) (kind : BitVec 4) (unit : Nat) : Bool :=
  ((s.err.history.filter fun h => h.kind == kind && h.unit == unit && (h.what == .permanent || h.what == .rejoin)).getLast?.map
    fun h => h.what == .permanent).getD false

/-- A permanent core at boot: it is fenced, and the spare takes its role; where the set has no spare, the core keeps its role and the
device drains (14 R412, R416). -/
def State.bootCore (set : Nat) (s : State) (p : Nat) : State :=
  let r := s.role set p
  if r = 9 then s
  else if r.toNat < 8 then
    match s.coreWith set 8 with
    | some d => (s.setRole set d r).setRole set p 9
    | none => s.noSpare set p false
  else s.setRole set p 9

/-- Core roles of a set at boot: every permanent core is applied, first those that hold no logical role. -/
def State.bootSet (s : State) (set : Nat) : State :=
  let bad := (List.range 9).filter fun p => s.isPermanent 1 (9 * set + p)
  let holds (p : Nat) : Bool := decide ((s.role set p).toNat < 8)
  ((bad.filter fun p => !holds p) ++ bad.filter holds).foldl (State.bootCore set) s

/-- Every permanent entry is applied (14 R416): cores, cache ways, port engines, lanes; a permanent collective engine drains the device. -/
def State.applyHistory (s : State) : State :=
  let s := (List.range 8).foldl (fun s i => s.bootSet i) s
  let s := (List.finRange 8).foldl (fun s sl => (List.finRange 16).foldl (fun s w =>
    if s.isPermanent 2 (wayUnit sl w) then
      (s.modHbm fun h => { h with handover := h.handover ++ [(sl, w)] }).wayHandover sl w
    else s) s) s
  let s := (List.finRange 6).foldl (fun s p =>
    if s.isPermanent 4 p.val then { s with col := { s.col with fenced := s.col.fenced ||| (1#6 <<< p.val) } } else s) s
  let s := if s.isPermanent 6 0 then s.logDrain { code := eParity, source := 5, cls := 2, kind := 6 } none else s
  (List.finRange 6).foldl (fun s p => (List.finRange 9).foldl (fun s l =>
    if s.isPermanent 5 (p.val * 16 + l.val) then s.modPort p fun q => { q with permanent := some l } else s) s) s

/-- A signed test pack still verifies (17 R491, 15 R435, R438). -/
def Sec.packGood (c : Sec) (p : Pack) (v : SigVerdict) : Bool :=
  (c.sigCause p.image (leNat ((p.image.drop 20).take 4)) true v).isNone

/-- FUSE_ADVANCE (17 R493): only when all four images verify with the same svn and revoke. -/
def Sec.advance (c : Sec) (v : BootVerdicts) : Sec :=
  match c.verifyBank false false v.s1a, c.verifyBank false true v.s1b, c.verifyBank true false v.s2a, c.verifyBank true true v.s2b with
  | .ok a, .ok b, .ok d, .ok e =>
    if [b, d, e].all fun i => i.svn == a.svn && i.revoke == a.revoke then
      { c with svn := .ofNat 8 (max c.svn.toNat a.svn), ecdsaRev := c.ecdsaRev ||| .ofNat 4 (a.revoke / 16), lmsRev := c.lmsRev ||| .ofNat 4 (a.revoke % 16) }
    else c
  | _, _, _, _ => { c with fallback := true }

/-- Queues of a device whose drain flag is set: every valid one is in the error state (14 R427). -/
def State.drainedQueues (s : State) : State :=
  s.qce.queues.foldl (fun s e => if e.2.valid then s.setQueueErr (.ofNat 12 e.1) eDrained else s) s

/-- What stage 2 does once HBM is trained, up to the wait for configuration. -/
def State.stage2Ends (s : State) (v : BootVerdicts) : State :=
  let s := { s with tst := { s.tst with act := s.tst.act.filter fun p => s.sec.packGood p v.pack } }
  let s := s.modSec fun c => c.advance v
  let s := s.setMeas 6 (Config.bootRecord s.sec.bankS1 s.sec.bankS2 s.sec.fallback s.sec.tries)
  let s := s.modSec fun c => { c with stage := 5 }
  if s.err.flagged = true ∧ s.err.drained = false then (s.modErr fun e => { e with drained := true, bootDrain := true }).drainedQueues
  else s

/-- What stage 2 does once its areas are read: the history's account, the ageing steps (16 R462), HBM training. -/
def State.stage2Works (s : State) (v : BootVerdicts) (w : BootWork) : State :=
  let s := (s.modSec fun c => { c with historyLoaded := true }).applyHistory
  let s := s.modPwr fun p => { p with guard := .ofNat 4 (min 4 (s.err.opsec / 40000000)) }
  if !w.hbmTrained then s.bootFail 3 w.flashWritable else s.stage2Ends v

/-- BOOT_STAGE2: stage 1 picks the stage 2, which does its work up to the wait for configuration. -/
def State.bootStage2 (s : State) (v : BootVerdicts) (w : BootWork) : State :=
  if s.sec.powered = false ∨ s.sec.stage ≠ 1 then s
  else
    let r := s.sec.tryBanks true s.sec.bankS1 v
    let s := s.modSec fun c => { c with tries := c.tries ++ r.2, fallback := c.fallback || !r.2.isEmpty }
    match r.1 with
    | none => s.bootFail 2 w.flashWritable
    | some (b, i) =>
      let s := (s.setMeas 4 (sha384 i.signed)).modSec fun c => { c with bankS2 := b, ver2 := .ofNat 24 i.version, stage := 2 }
      if !w.selfTest then s.bootFail 4 w.flashWritable
      else if !w.areasReadable then s.bootFail 5 w.flashWritable
      else s.stage2Works v w

/-- cfg_done over the service interface: at stage 0x5 only, training of the torus ports and the host port begins (17 R495,
R496). -/
def State.configured (s : State) : State :=
  if s.sec.stage ≠ 5 then s
  else
    (s.modSec fun c => { c with cfgDone := true, stage := 6 }).beginTraining

/-- HOST_PORT_RETRY: a try to train the host port, at stage 0x6 (17 R497). -/
def State.hostRetry (s : State) (trained : Bool) : State :=
  if s.sec.stage = 6 ∧ s.sec.hostUp = false then s.modSec fun c => { c with hostUp := trained } else s

/-- BOOT_READY (17 R497, 18 R522). -/
def State.bootReady (s : State) (t : BitVec 16) : State :=
  if s.sec.stage = 6 ∧ s.sec.hostUp = true ∧ s.sec.fabricDone = true then
    let s := s.modSec fun c => { c with stage := 7, tReady := t }
    let s := { s with tst := { s.tst with lastSwap := (List.range 8).foldl (fun m i => sset 0 m i s.err.opsec) s.tst.lastSwap } }
    if s.err.drained then s else s.emit (.pwrGood true)
  else s

/-- clear_drain over the service interface, at stage 0x7 (17 R508). -/
def State.clearDrain (s : State) : State :=
  if s.sec.stage ≠ 7 then s
  else
    let s := s.modErr fun e => { e with flagged := false }
    if s.err.bootDrain then
      let s := s.modErr fun e => { e with drained := false, bootDrain := false }
      let s := s.qce.queues.foldl (fun s e =>
        if e.2.valid && e.2.err && e.2.errCode == eDrained then s.modQueue (.ofNat 12 e.1) fun q => { q with err := false, errCode := 0 } else s) s
      (s.emit (.pwrGood true)).backAlive
    else s

/-! ### Seconds of operation (14 R415) -/

/-- OPERATING_SECOND. When neither copy of the history can be written, this second's entries wait in memory, reported once. -/
def State.operatingSecond (s : State) (flashOk : Bool) : State :=
  if s.sec.powered = false then s
  else
    let t := s.err.opsec
    let s := s.modErr fun e => { e with opsec := t + 1 }
    if flashOk then s.modErr fun e => { e with history := e.history ++ e.heldHistory, heldHistory := [] }
    else
      let new := s.err.history.filter fun h => h.second == t
      if new.isEmpty then s
      else
        (s.modErr fun e => { e with history := e.history.filter fun h => h.second != t, heldHistory := e.heldHistory ++ new }).log
          { code := evHistoryFault, source := 5, kind := 8 }

/-! ### Who answers on the service interface (17 R498, R505, 19 R531) -/

/-- A responder of the compute domain runs. -/
def State.responder (s : State) : Bool := s.sec.powered && s.sec.stage != 0
/-- Stage 2 runs and has loaded the history: the whole map is reachable. -/
def State.fullMap (s : State) : Bool :=
  s.sec.powered && s.sec.historyLoaded && decide (2 ≤ s.sec.stage.toNat) && decide (s.sec.stage.toNat ≤ 7)
/-- The service target is supplied and has its address. -/
def State.svcAlive (s : State) : Bool := s.sec.svc3v3 && s.sec.dynAddr != 0
/-- The host port carries packets (17 R497). -/
def State.hostReady (s : State) : Bool := s.sec.powered && s.sec.stage == 7

def State.answer (s : State) (a : Svc) : State := if s.svcAlive then s.emit (.svc a) else s

/-- SVC_3V3_LOSS: the rack side loses its state (entry 20). -/
def State.svcLoss (s : State) : State :=
  (s.modSec fun c => { c with svc3v3 := false, eid := 0, dynAddr := 0 }).modPwr fun p => { p with opening := .none }
def State.svcReturn (s : State) : State := s.modSec fun c => { c with svc3v3 := true }

def State.setAddress (s : State) (a : BitVec 7) : State := if s.sec.svc3v3 then s.modSec fun c => { c with dynAddr := a } else s

/-- Set Endpoint ID: 0x00 and 0xFF name no endpoint. -/
def State.setEid (s : State) (e : BitVec 8) : State :=
  if !s.svcAlive then s
  else if e = 0 ∨ e = 0xFF then s.answer (.control false)
  else (s.modSec fun c => { c with eid := e }).answer (.control true)

/-! ### SPDM (17 R500-R503) -/

/-- Measurement i, 1 to 6. -/
def State.measurement (s : State) (i : Nat) : List Byte :=
  if i = 5 then (match s.tst.act with | some p => sha384 (p.image.take (leNat ((p.image.drop 20).take 4))) | none => List.replicate 48 0)
  else sget [] s.sec.meas i

/-- A request of the subset. -/
inductive SpdmReq where
  | version | capabilities
  | algorithms (p384 sha384 : Bool)
  | digests
  | certificate (slot : Nat) (off len : Nat)
  | challenge (slot : Nat) (nonce : List Byte)
  | measurements (index : Nat) (signed : Bool) (nonce : List Byte)
  deriving DecidableEq, Repr

/-- The responder's answer in a negotiation state, and the state it leaves; `fresh` picks the signature. -/
def State.spdmAnswer (s : State) (st : SpdmState) (r : SpdmReq) : SpdmRsp × SpdmState :=
  let chain := Config.certChain
  match r, st with
  | .version, _ => (.version, .version)
  | .capabilities, .version => (.capabilities, .capabilities)
  | .algorithms p h, .capabilities => if p && h then (.algorithms, .ready) else (.error .invalidRequest, st)
  | .digests, .ready => (.digests (sha384 chain), st)
  | .certificate slot off len, .ready =>
    if slot ≠ 0 ∨ off ≥ chain.length then (.error .invalidRequest, st)
    else (.certificate ((chain.drop off).take len) (chain.length - min chain.length (off + len)), st)
  | .challenge slot nonce, .ready =>
    if slot ≠ 0 then (.error .invalidRequest, st) else (.challengeAuth (sha384 chain) nonce (Config.spdmSignature s.fresh), st)
  | .measurements i sig _, .ready =>
    let pick (is : List Nat) : List (Nat × List Byte) := is.map fun j => (j, s.measurement j)
    let sg := if sig then some (Config.spdmSignature s.fresh) else none
    if i = 0 then (.measurements 6 [] sg, st)
    else if i = 0xFF then (.measurements 6 (pick [1, 2, 3, 4, 5, 6]) sg, st)
    else if i ≤ 6 then (.measurements 1 (pick [i]) sg, st)
    else (.error .invalidRequest, st)
  | _, _ => (.error .unexpectedRequest, st)

/-- Serve a request on a connection. The rack side answers Busy while no responder runs. -/
def State.spdm (s : State) (c : Conn) (r : SpdmReq) : State :=
  match c with
  | .service =>
    if !s.svcAlive then s
    else if !s.responder then s.answer (.spdm (.error .busy))
    else
      let a := s.spdmAnswer s.sec.svcConn r
      (({ s with fresh := s.fresh + 1 } : State).modSec fun x => { x with svcConn := a.2 }).answer (.spdm a.1)
  | .mailbox =>
    if s.sec.spdmBusy = false ∨ s.sec.spdmOut.isSome = true then s
    else
      let a := s.spdmAnswer s.sec.boxConn r
      ({ s with fresh := s.fresh + 1 } : State).modSec fun x => { x with boxConn := a.2, spdmOut := some (Config.spdmBytes a.1) }

/-- A write of SEC_SPDM_CTL (17 R503, R513). -/
def State.wSpdmCtl (s : State) (v : Word) : State :=
  let len := wbits v 0 13
  if s.sec.spdmBusy ∨ len = 0 ∨ len > 4096 then s.modSec fun c => { c with spdmErr := true }
  else s.modSec fun c => { c with spdmErr := false, spdmLen := .ofNat 13 len, spdmBusy := bit1 v 31, spdmOut := none }

def State.wSpdmReq (s : State) (n : Nat) (v : Word) : State :=
  if s.sec.spdmBusy then s.modSec fun c => { c with spdmErr := true }
  else s.modSec fun c => { c with spdmErr := false, spdmReq := sset 0 c.spdmReq n v }

/-- SPDM_MAILBOX_COMPLETE: the response is in the window. A message that is no request of the subset is not supported. -/
def State.mailboxDone (s : State) : State :=
  if !s.sec.spdmBusy then s
  else
    let bs := (s.sec.spdmOut.getD (Config.spdmBytes (.error .unsupportedRequest))).take 4096
    s.modSec fun c => { c with spdmBusy := false, spdmOut := none, spdmLen := .ofNat 13 bs.length,
                               spdmRsp := swrite 0 [] 0 ((List.range (ceilDiv bs.length 4)).map fun i => .ofNat 32 (leNat ((bs.drop (4 * i)).take 4))) }

/-! ### Sensors (17 R505, R506) -/

/-- Not ready: what the rack side answers for the module. -/
def notReady : Svc := .pldmError 0x04

/-- State values count from 1 in the order in which R506 names them; sensor 3 reads the stage code (entry 20). -/
def State.rackSensor (s : State) (n : Nat) : Option Nat :=
  match n with
  | 1 => some (if s.pwr.present then 1 else 2)
  | 2 => some (match s.pwr.opening with | .none => 1 | .overcurrent => 2 | .reverse => 3 | .overvoltage => 4 | .undervoltage => 5)
  | _ => none

def State.moduleSensor (s : State) (n : Nat) : Option Nat :=
  match n with
  | 3 => some s.sec.stage.toNat
  | 4 => some (if s.err.drained then 2 else if s.err.flagged then 3 else 1)
  | _ => none

def State.numericSensor (s : State) (n : Nat) : Option Nat :=
  if n = 5 then some s.pwr.vin
  else if n = 6 then some s.pwr.pin
  else if n = 7 then some s.pwr.estCal
  else if n = 20 then some s.pwr.limit
  else if 8 ≤ n ∧ n ≤ 15 then some (s.pset (n - 8)).tj.toNat
  else if 16 ≤ n ∧ n ≤ 19 then some (sget 0 s.pwr.temps (n - 16)).toNat
  else none

/-- INVALID_SENSOR_ID of the standard. -/
def sensorSvc : Option Nat → Svc
  | some v => .sensor v
  | none => .pldmError 0x80

/-- GET_SENSOR_READING: sensors 1 and 2 on the rack side, the numeric ones from the module. -/
def State.readSensor (s : State) (n : Nat) : State :=
  match s.rackSensor n with
  | some v => s.answer (.sensor v)
  | none => s.answer (if s.responder then sensorSvc (s.numericSensor n) else notReady)

def State.readState (s : State) (n : Nat) : State :=
  s.answer (if s.responder then sensorSvc ((s.rackSensor n).or (s.moduleSensor n)) else notReady)

def State.readPdr (s : State) (h : Word) : State := s.answer (if s.responder then .pdr (Config.sensorPdr h.toNat) else notReady)

/-! ### Firmware update (17 R509-R511) -/

/-- Command codes of the standard (entry 20). -/
def fwCode (name : Nat) (code : BitVec 8) (data : List Nat) : Svc := .pldm (.ofNat 8 name) code data

/-- Stage 2 answers the update commands. -/
def State.fw (s : State) (f : State → State) : State :=
  if !s.svcAlive then s else if s.fullMap then f s else s.answer notReady

def State.setUpdate (s : State) (u : Update) : State := s.modSec fun c => { c with update := u }

def State.requestUpdate (s : State) : State :=
  match s.sec.update with
  | .idle => (s.setUpdate .started).answer (fwCode 0x10 0 [])
  | _ => s.answer (fwCode 0x10 0x81 [])

def State.passTable (s : State) (t : List (BitVec 16)) : State :=
  match s.sec.update with
  | .started => (s.setUpdate (.ready t)).answer (fwCode 0x13 0 [])
  | .idle => s.answer (fwCode 0x13 0x80 [])
  | _ => s.answer (fwCode 0x13 0x84 [])

/-- Component 1 is stage 1 and component 2 is stage 2; an image fits its area. -/
def State.updateComponent (s : State) (k : BitVec 16) (size : Nat) : State :=
  match s.sec.update with
  | .ready t =>
    if t.contains k ∧ (k = 1 ∨ k = 2) ∧ 0 < size ∧ size ≤ (stageArea (k == 2)).2 then
      ((s.setUpdate (.loading t k size [])).answer (fwCode 0x14 0 [0])).answer (fwCode 0x15 0 [0, size])
    else s.answer (fwCode 0x14 0 [1])
  | .idle => s.answer (fwCode 0x14 0x80 [])
  | _ => s.answer (fwCode 0x14 0x84 [])

/-- Write an image into a bank. -/
def Sec.writeBank (c : Sec) (two bank : Bool) (bs : List Byte) : Sec :=
  if bank then { c with flashB := swrite 0xFF c.flashB (stageArea two).1 bs } else { c with flashA := swrite 0xFF c.flashA (stageArea two).1 bs }

/-- Bank B is written and verified, then bank A. -/
def State.install (s : State) (two : Bool) (bs : List Byte) (inB inA : SigVerdict) : State :=
  let s := s.modSec fun c => c.writeBank two true bs
  match s.sec.verifyBank two true inB with
  | .error _ => (s.answer (fwCode 0x17 0 [1])).log { code := eFwUpdate, source := 5, kind := 8 }
  | .ok _ =>
    let s := (s.answer (fwCode 0x17 0 [0])).modSec fun c => c.writeBank two false bs
    s.answer (fwCode 0x18 0 [match s.sec.verifyBank two false inA with | .ok _ => 0 | .error _ => 1])

/-- Data of the component arrive; the device asks for more, or installs the image. -/
def State.firmwareData (s : State) (bs : List Byte) (inB inA : SigVerdict) : State :=
  match s.sec.update with
  | .loading t k size got =>
    let all := (got ++ bs).take size
    if all.length < size then
      (s.setUpdate (.loading t k size all)).answer (fwCode 0x15 0 [all.length, size - all.length])
    else (((s.setUpdate (.ready t)).answer (fwCode 0x16 0 [0])).install (k == 2) all inB inA)
  | _ => s

def State.activate (s : State) : State :=
  match s.sec.update with
  | .ready _ => ((s.setUpdate .idle).modSec fun c => { c with pendingFw := true }).answer (fwCode 0x1A 0 [])
  | .idle => s.answer (fwCode 0x1A 0x80 [])
  | _ => s.answer (fwCode 0x1A 0x84 [])

def State.cancelUpdate (s : State) : State :=
  match s.sec.update with
  | .idle => s.answer (fwCode 0x1D 0x80 [])
  | _ => (s.setUpdate .idle).answer (fwCode 0x1D 0 [])

/-- Numbers of the update's states in the order of the standard: idle, learning components, ready, download. -/
def Update.code : Update → Nat
  | .idle => 0 | .started => 1 | .ready _ => 2 | .loading .. => 3

def State.updateStatus (s : State) : State := s.answer (fwCode 0x1B 0 [s.sec.update.code])
def State.deviceIds (s : State) : State := s.answer (fwCode 0x01 0 [Config.vendorId.toNat])
def State.fwParameters (s : State) : State :=
  s.answer (fwCode 0x02 0 [1, s.sec.ver1.toNat, 2, s.sec.ver2.toNat, b2n s.sec.pendingFw])

end Sys2Proof.Machine
end

