-- ==== Sys2Proof/Machine/Regs.lean ====
section
/-!
DEFINITION. The register window (19 R526-R537): where each register lies, who may access it, what a read returns and
what a write does. Field maps: 03 R96-R98, 04 R138-R139, 07 R216, 08 R250, 09 R279, 10 R310, 11 R340, 12 R369, 13 R403,
14 R432-R434, 15 R460, 16 R485, 17 R513, 19 R536.
-/

namespace Sys2Proof.Machine

/-- Every register of 19 R537. -/
inductive Reg where
  | glbId | glbStep | glbSerialLo | glbSerialHi | glbDevid | glbScratch
  | fabCoord | fabCtl | fabPortStat (p : Fin 6) | fabPortErr (p : Fin 6) | fabPortDelay (p : Fin 6)
  | beatCtl | beatCntLo | beatCntHi | beatLeader | beatTiming | beatHoldStat | beatHoldTime | beatStretch | beatSkew
  | qceNetCtl | qceMacLo | qceMacHi | qceIpv4 | qceIpv6 (n : Fin 4) | qceEvq | qceCacheStat | qceDropStat
  | qceEpSel | qceEpData (n : Fin 8) | qceExpStat
  | xltCtxSel | xltCtxRoot | xltCtxKvsel | xltCtxKvbase | xltCtxKvlen | xltInv | xltCtxKvlsh | xltHbmFrames | xltHbmRetire
  | xltKvpSel | xltKvpCfg | xltKvpFrames | xltKvpHdr | xltKvpStack | xltKvpRecl | xltKvpCount | xltKvpFree | xltKvpStat
  | xltPfxBase | xltPfxCfg | xltPfxStat | xltPfxLive | xltKvopVaLo | xltKvopVaHi | xltKvopCnt | xltKvopCmd
  | stmCredit | colCtl | colStat | colCount | colLastFail
  | errCtl | errRingStat | errRingRetire | errCountReplay | errCountFence | errShadowTiles | errShadowMiss | errDrain | errOpsec
  | errRec (n : Fin 64) (w : Fin 8)
  | pwrCap | pwrGroupCtl | pwrGroupBudget | pwrLimit | pwrEst | pwrMeas | pwrCal | pwrSlew | pwrHbmTemp | pwrSet (s : Fin 8)
  | pwrIdleLo | pwrIdleHi | pwrTotalLo | pwrTotalHi
  | secBootStat | secBootCtl | secFuse | secSvcId | secSvcCtl | secSpdmCtl | secSpdmReq (n : Fin 1024) | secSpdmRsp (n : Fin 1024)
  | tstCtl | tstSwap | tstPackAct | tstPackStg | tstStat | tstLast | tstDue | tstSwaps
  | setCacheWay (s : Fin 8) | setCoreMap0 (s : Fin 8) | setCoreMap1 (s : Fin 8) | setVf (s i : Fin 8) | setVfGuard (s : Fin 8)
  | coreArrRepair (s : Fin 8) (p : Fin 9) | coreArrChk (s : Fin 8) (p : Fin 9) | coreMxuBusy (s : Fin 8) (p : Fin 9)
  | coreMxuStall (s : Fin 8) (p : Fin 9) | coreSeqStat (s : Fin 8) (p : Fin 9) | coreSeqPc (s : Fin 8) (p : Fin 9)
  | coreVecBusy (s : Fin 8) (p : Fin 9) | coreVecDefer (s : Fin 8) (p : Fin 9) | coreAttnBlk (s : Fin 8) (p : Fin 9)
  deriving DecidableEq, Repr

/-! ### Where registers lie (19 R526, R528, R537) -/

/-- Index of an offset in an array of registers of 4 bytes from `base`; none outside it. -/
def slotIn (base n off : Nat) : Option Nat := if base ≤ off ∧ off < base + 4 * n then some ((off - base) / 4) else none

def listAt (base : Nat) (rs : List Reg) (off : Nat) : Option Reg := (slotIn base rs.length off).bind fun i => rs[i]?

def arrAt (base n : Nat) (f : Nat → Reg) (off : Nat) : Option Reg := (slotIn base n off).map f

def firstOf (l : List (Option Reg)) : Option Reg := l.findSome? id

def fabRegs (off : Nat) : Option Reg :=
  firstOf [listAt 0 [.fabCoord, .fabCtl] off, arrAt 0x10 6 (fun p => .fabPortStat (.ofNat 6 p)) off, arrAt 0x30 6 (fun p => .fabPortErr (.ofNat 6 p)) off,
    arrAt 0x50 6 (fun p => .fabPortDelay (.ofNat 6 p)) off,
    listAt 0x100 [.beatCtl, .beatCntLo, .beatCntHi, .beatLeader, .beatTiming, .beatHoldStat, .beatHoldTime, .beatStretch, .beatSkew] off]

def qceRegs (off : Nat) : Option Reg :=
  firstOf [listAt 0 [.qceNetCtl, .qceMacLo, .qceMacHi, .qceIpv4] off, arrAt 0x10 4 (fun n => .qceIpv6 (.ofNat 4 n)) off, listAt 0x20 [.qceEvq] off,
    listAt 0x30 [.qceCacheStat, .qceDropStat] off, listAt 0x40 [.qceEpSel] off, arrAt 0x44 8 (fun n => .qceEpData (.ofNat 8 n)) off,
    listAt 0x70 [.qceExpStat] off]

def xltRegs (off : Nat) : Option Reg :=
  firstOf [listAt 0 [.xltCtxSel, .xltCtxRoot, .xltCtxKvsel, .xltCtxKvbase, .xltCtxKvlen, .xltInv, .xltCtxKvlsh] off,
    listAt 0x20 [.xltHbmFrames, .xltHbmRetire] off,
    listAt 0x100 [.xltKvpSel, .xltKvpCfg, .xltKvpFrames, .xltKvpHdr, .xltKvpStack, .xltKvpRecl, .xltKvpCount, .xltKvpFree, .xltKvpStat] off,
    listAt 0x140 [.xltPfxBase, .xltPfxCfg, .xltPfxStat, .xltPfxLive] off, listAt 0x160 [.xltKvopVaLo, .xltKvopVaHi, .xltKvopCnt, .xltKvopCmd] off]

def errRegs (off : Nat) : Option Reg :=
  firstOf [listAt 0 [.errCtl, .errRingStat, .errRingRetire] off,
    listAt 0x10 [.errCountReplay, .errCountFence, .errShadowTiles, .errShadowMiss, .errDrain, .errOpsec] off,
    arrAt 0x800 512 (fun i => .errRec (.ofNat 64 (i / 8)) (.ofNat 8 i)) off]

def pwrRegs (off : Nat) : Option Reg :=
  firstOf [listAt 0 [.pwrCap, .pwrGroupCtl, .pwrGroupBudget, .pwrLimit, .pwrEst, .pwrMeas, .pwrCal, .pwrSlew, .pwrHbmTemp] off,
    arrAt 0x40 8 (fun s => .pwrSet (.ofNat 8 s)) off, listAt 0x70 [.pwrIdleLo, .pwrIdleHi, .pwrTotalLo, .pwrTotalHi] off]

def secRegs (off : Nat) : Option Reg :=
  firstOf [listAt 0 [.secBootStat, .secBootCtl, .secFuse, .secSvcId, .secSvcCtl] off, listAt 0x20 [.secSpdmCtl] off,
    arrAt 0x1000 1024 (fun n => .secSpdmReq (.ofNat 1024 n)) off, arrAt 0x2000 1024 (fun n => .secSpdmRsp (.ofNat 1024 n)) off]

def coreRegs (s : Fin 8) (p : Fin 9) (off : Nat) : Option Reg :=
  firstOf [listAt 0x100 [.coreArrRepair s p, .coreArrChk s p, .coreMxuBusy s p, .coreMxuStall s p] off,
    listAt 0x200 [.coreSeqStat s p, .coreSeqPc s p] off, listAt 0x300 [.coreVecBusy s p, .coreVecDefer s p] off, listAt 0x400 [.coreAttnBlk s p] off]

def setRegs (s : Fin 8) (off : Nat) : Option Reg :=
  let blk := off / 0x10000
  if blk = 0 then
    firstOf [listAt 0x100 [.setCacheWay s, .setCoreMap0 s, .setCoreMap1 s] off, arrAt 0x200 8 (fun i => .setVf s (.ofNat 8 i)) off,
      listAt 0x220 [.setVfGuard s] off]
  else if blk ≤ 9 then coreRegs s (.ofNat 9 (blk - 1)) (off % 0x10000)
  else none

/-- The register at a byte offset of the window; none where no register is listed. -/
def regAt (off : Nat) : Option Reg :=
  let o := off % 0x10000
  if off % 4 ≠ 0 then none
  else if off / 0x100000 ≥ 1 then
    let s := off / 0x100000 - 1
    if s < 8 then setRegs (.ofNat 8 s) (off % 0x100000) else none
  else
    match off / 0x10000 with
    | 0 => firstOf [listAt 0 [.glbId, .glbStep, .glbSerialLo, .glbSerialHi, .glbDevid] o, listAt 0x20 [.glbScratch] o]
    | 1 => fabRegs o
    | 2 => qceRegs o
    | 3 => xltRegs o
    | 4 => listAt 0 [.stmCredit] o
    | 5 => listAt 0 [.colCtl, .colStat, .colCount, .colLastFail] o
    | 6 => errRegs o
    | 7 => pwrRegs o
    | 8 => secRegs o
    | 9 => listAt 0 [.tstCtl, .tstSwap, .tstPackAct, .tstPackStg, .tstStat, .tstLast, .tstDue, .tstSwaps] o
    | _ => none

/-! ### Access (19 R530, R537) -/

inductive Access where
  | rw | r | none
  deriving DecidableEq, Repr

/-- The register has RW fields. -/
def Reg.hasRw : Reg → Bool
  | .glbScratch | .fabCoord | .fabCtl | .beatCtl | .qceNetCtl | .qceIpv4 | .qceIpv6 _ | .qceEvq | .qceEpSel | .qceEpData _
  | .xltCtxSel | .xltCtxRoot | .xltCtxKvsel | .xltCtxKvbase | .xltCtxKvlen | .xltInv | .xltCtxKvlsh
  | .xltKvpSel | .xltKvpCfg | .xltKvpFrames | .xltKvpHdr | .xltKvpStack | .xltKvpRecl | .xltKvpCount
  | .xltPfxBase | .xltPfxCfg | .xltKvopVaLo | .xltKvopVaHi | .xltKvopCnt | .xltKvopCmd
  | .stmCredit | .colCtl | .errCtl | .errRingRetire | .errDrain | .pwrCap | .pwrGroupCtl | .pwrGroupBudget | .pwrSlew
  | .secBootCtl | .secSvcCtl | .secSpdmCtl | .secSpdmReq _ | .tstCtl | .tstSwap => true
  | _ => false

/-- Access of a register on each path. -/
def Reg.access (r : Reg) (p : Path) : Access :=
  match p with
  | .queue => match r with
    | .secBootCtl | .secSvcCtl => .r
    | r => if r.hasRw then .rw else .r
  | .service => match r with
    | .secSpdmCtl | .secSpdmReq _ | .secSpdmRsp _ => .none
    | .glbScratch | .fabCoord | .fabCtl | .beatCtl | .qceNetCtl | .qceIpv4 | .qceIpv6 _ | .qceEvq | .qceEpSel | .qceEpData _
    | .errDrain | .pwrCap | .pwrGroupCtl | .pwrGroupBudget | .pwrSlew | .secBootCtl | .secSvcCtl => .rw
    | _ => .r

/-! ### Reads -/

def w32 (n : Nat) : Word := .ofNat 32 n

/-- A 1 at a bit. -/
def fl (b : Bool) (i : Nat) : Nat := if b then 2 ^ i else 0

def portCode : PortState → Nat
  | .down => 0 | .training => 1 | .standby => 2 | .up => 3 | .wiring => 4 | .unused => 5

/-- Logical core of a physical one; none for a spare, a fenced core or one under test. -/
def State.logicalOf (s : State) (set p : Nat) : Option Nat :=
  let r := (s.role set p).toNat
  if r < 8 then some (8 * set + r) else none

/-- State code of CORE_SEQ_STAT (04 R138). A core that has not begun or has ended is idle (entry 21). -/
def State.seqState (s : State) (set p : Nat) : Nat :=
  if s.role set p = 8 then 4
  else
    match s.logicalOf set p with
    | none => 0
    | some c =>
      let k := s.core c
      if k.stopped then 2
      else match s.resident with
        | none => 0
        | some l => match l.run with
          | .halted _ => 3
          | .running => if k.ended then 0 else 1
          | _ => if l.start.isSome then 3 else 0

def Core.waitsFor (k : Core) (t : Fin 16) : Bool :=
  k.seqWait == some t ||
    ([k.qMxu, k.qVec, k.qStm, k.qSyn].any fun q => match q with
      | i :: _ => (!k.tokOk i.wt && i.wt == some t) ||
          (k.tokOk i.wt && (match i.op with | .twait u n => u == t && decide (((k.takeTok i.wt).tok t).toNat < n.toNat) | _ => false))
      | [] => false)

def State.seqStat (s : State) (set p : Nat) : Word :=
  let st := s.seqState set p
  match s.logicalOf set p with
  | none => w32 (st * 2 ^ 28)
  | some c =>
    if st = 0 then 0
    else
      let k := s.core c
      let full (q : List Issued) : Bool := decide (q.length ≥ 16)
      w32 (st * 2 ^ 28 + c * 2 ^ 22 + fl (full k.qSyn) 20 + fl (full k.qStm) 19 + fl (full k.qVec) 18 + fl (full k.qMxu) 17 +
        fl (s.asserted.any fun o => o.1 == c) 16 + ((List.finRange 16).map fun t => fl (k.waitsFor t) t.val).foldl (· + ·) 0)

def State.seqPc (s : State) (set p : Nat) : Word :=
  match s.logicalOf set p with
  | some c => if s.seqState set p = 0 then 0 else w32 (s.core c).pc.toNat
  | none => 0

/-- Index of the oldest unretired record; records stand at their serial modulo 64. -/
def Err.head (e : Err) : Nat := match e.ring with | r :: _ => r.serial.toNat % 64 | [] => e.serial.toNat % 64

def State.recWord (s : State) (n w : Nat) : Word :=
  match s.err.ring.find? fun r => r.serial.toNat % 64 == n with
  | some r => r.words.getD w 0
  | none => 0

def Endpoint.words (e : Endpoint) : List Word :=
  [w32 (fl e.valid 31 + fl e.ipv6 30 + e.port.toNat), e.addr.extractLsb' 96 32, e.addr.extractLsb' 64 32, e.addr.extractLsb' 32 32,
   e.addr.extractLsb' 0 32, e.mac.extractLsb' 0 32, w32 (e.mac.toNat / 2 ^ 32)]

/-- Clock of an operating point in MHz (16 R462). -/
def pointMhz (i : Nat) : Nat := [750, 1000, 1250, 1500, 1750, 1950, 2100, 2250].getD i 0

/-- The core map of a set as words 0 and 1 (14 R434). -/
def State.coreMap (s : State) (set : Nat) (hi : Bool) : Word :=
  if hi then w32 (s.role set 8).toNat else w32 (((List.range 8).map fun p => (s.role set p).toNat * 16 ^ p).foldl (· + ·) 0)

def State.selCtx (s : State) (p : Path) : Ctx := s.ctxOf (s.pathRegs p).ctx
def State.selRegion (s : State) (p : Path) : Region := sget {} (s.selCtx p).regions (s.pathRegs p).region.toNat
def State.selPool (s : State) (p : Path) : Pool := s.pool (s.pathRegs p).pool.toNat

/-- Open subscribers of all sequences. -/
def State.openSubs (s : State) : Nat := s.exp.seqs.foldl (fun a e => a + (e.2.subs.filter fun u => u.2.isOpen).length) 0

/-- Spares that no granule has taken. -/
def State.sparesFree (s : State) : Nat := 8192 - s.hbm.sparesUsed.foldl (fun a e => a + e.2) 0

/-- TST_DUE: a set without a spare, or with its spare fenced, is never due (15 R442). -/
def State.dueNow (s : State) : Nat :=
  (List.range 8).foldl (fun a i => a + fl (s.tst.due.getLsbD i && s.tst.rotEn && (s.coreWith i 8).isSome) i) 0

/-- What a register reads as. -/
def State.regValue (s : State) (p : Path) : Reg → Word
  | .glbId => 0x64004A00
  | .glbStep => w32 (Config.stepping.toNat * 2 ^ 24 + Config.romVersion.toNat)
  | .glbSerialLo => lo32 Config.serial
  | .glbSerialHi => hi32 Config.serial
  | .glbDevid => w32 (fl s.devidValid 31 + s.devid.toNat)
  | .glbScratch => s.scratch
  | .fabCoord => s.fab.coord
  | .fabCtl => w32 (fl s.fab.retraining 31 + fl s.fab.err 30)
  | .fabPortStat i => let q := s.port i; w32 (portCode q.state * 2 ^ 29 + fl q.spareUsed 28 + q.failedLane.toNat * 2 ^ 24 + q.nbr.toNat * 2 ^ 12)
  | .fabPortErr i => let q := s.port i; w32 (q.retries.toNat * 2 ^ 16 + q.downs.toNat * 2 ^ 8 + q.spared.toNat)
  | .fabPortDelay i => w32 (s.port i).delta.toNat
  | .beatCtl => w32 s.fab.holdLimit.toNat
  | .beatCntLo => lo32 s.fab.cnt
  | .beatCntHi => (s.pathRegs p).beatHi
  | .beatLeader => w32 (fl s.fab.isLeader 31 + fl s.fab.live 30 + s.fab.leader.toNat)
  | .beatTiming => w32 (s.fab.aLead.toNat * 2 ^ 16 + s.fab.horizon.toNat)
  | .beatHoldStat => w32 (s.fab.held.toNat * 2 ^ 16 + s.fab.late.toNat)
  | .beatHoldTime => s.fab.holdTime
  | .beatStretch => w32 (s.fab.stretchHolder.toNat * 2 ^ 20 + s.fab.stretchLen.toNat)
  | .beatSkew => w32 s.fab.skew.toNat
  | .qceNetCtl => w32 (fl s.qce.ipv4En 31 + fl s.qce.ipv6En 30 + s.qce.dscp.toNat * 2 ^ 24 + s.qce.port.toNat)
  | .qceMacLo => w32 Config.mac.toNat
  | .qceMacHi => w32 (Config.mac.toNat / 2 ^ 32)
  | .qceIpv4 => s.qce.ipv4
  | .qceIpv6 n => sget 0 s.qce.ipv6 n.val
  | .qceEvq => w32 (fl s.qce.evqEn 31 + s.qce.evq.toNat)
  | .qceCacheStat => w32 ((s.qce.queues.filter fun e => e.2.qstate != 0).length * 2 ^ 23 + s.qce.misses.toNat)
  | .qceDropStat => w32 (s.qce.dropFcs.toNat * 2 ^ 24 + s.qce.dropOther.toNat * 2 ^ 16 + s.qce.dropSource.toNat * 2 ^ 8 + s.qce.dropOverrun.toNat)
  | .qceEpSel => w32 (fl (s.pathRegs p).epErr 31 + (s.pathRegs p).ep.toNat)
  | .qceEpData n => if n.val < 7 then sget 0 (s.pathRegs p).epData n.val else 0
  | .qceExpStat => w32 (s.openSubs * 2 ^ 19 + s.exp.dropped.toNat)
  | .xltCtxSel => w32 (fl (s.pathRegs p).ctxErr 31 + (s.pathRegs p).ctx.toNat)
  | .xltCtxRoot => w32 (fl (s.selCtx p).rootValid 31 + (s.selCtx p).rootPfn.toNat)
  | .xltCtxKvsel => w32 (s.pathRegs p).region.toNat
  | .xltCtxKvbase => let r := s.selRegion p; w32 (fl r.valid 31 + r.gran.toNat * 2 ^ 27 + r.base.toNat)
  | .xltCtxKvlen => w32 (s.selRegion p).len.toNat
  | .xltInv => w32 (fl s.xlt.invBusy 31 + s.xlt.invScope.toNat * 2 ^ 29 + s.xlt.invCtx.toNat)
  | .xltCtxKvlsh => w32 (s.selRegion p).lshift.toNat
  | .xltHbmFrames => 0x0000AF16
  | .xltHbmRetire => w32 (s.sparesFree * 2 ^ 16 + s.hbm.rereadOk.toNat)
  | .xltKvpSel => w32 (fl (s.pathRegs p).poolErr 31 + (s.pathRegs p).pool.toNat)
  | .xltKvpCfg => let q := s.selPool p; w32 (fl q.en 31 + fl q.busy 30 + q.heads.toNat * 2 ^ 8 + q.dim.toNat)
  | .xltKvpFrames => w32 (s.selPool p).frames.toNat
  | .xltKvpHdr => w32 (s.selPool p).hdr.toNat
  | .xltKvpStack => w32 (s.selPool p).stack.toNat
  | .xltKvpRecl => w32 (s.selPool p).recl.toNat
  | .xltKvpCount => w32 (s.selPool p).count.toNat
  | .xltKvpFree => w32 (s.selPool p).free.toNat
  | .xltKvpStat => w32 ((s.selPool p).reclaimed.toNat * 2 ^ 16 + (s.selPool p).noPage.toNat)
  | .xltPfxBase => w32 s.xlt.pfxBase.toNat
  | .xltPfxCfg => w32 (fl s.xlt.pfxEn 31 + s.xlt.pfxLog2.toNat)
  | .xltPfxStat => w32 (s.xlt.pfxCollide.toNat * 2 ^ 16 + s.xlt.pfxInsFail.toNat)
  | .xltPfxLive => w32 s.xlt.pfxLive.toNat
  | .xltKvopVaLo => lo32 s.xlt.opVa
  | .xltKvopVaHi => hi32 s.xlt.opVa
  | .xltKvopCnt => s.xlt.opCnt
  | .xltKvopCmd => w32 (fl s.xlt.opBusy 31 + s.xlt.opResult.toNat * 2 ^ 28 + s.xlt.opKind.toNat * 2 ^ 8 + s.xlt.opCtx.toNat)
  | .stmCredit =>
    let n := s.stm.next.getD (s.stm.read, s.stm.write, s.stm.remote)
    w32 (fl s.stm.err 31 + n.1.toNat * 2 ^ 14 + n.2.1.toNat * 2 ^ 7 + n.2.2.toNat)
  | .colCtl => w32 (fl (s.col.galliardOnly || s.col.testGalliard) 31)
  | .colStat =>
    let live := s.col.colls.filter fun c => !c.isBarrier
    w32 (live.length * 2 ^ 27 + s.col.fenced.toNat * 2 ^ 21 + fl (s.col.colls.any (·.galliard)) 20)
  | .colCount => w32 (s.col.done.toNat * 2 ^ 16 + s.col.failed.toNat)
  | .colLastFail => w32 (s.col.lastCode.toNat * 2 ^ 16 + s.col.lastCulprit.toNat * 16)
  | .errCtl => w32 (fl s.err.hold 31 + fl s.err.err 30 + s.err.strict.toNat * 2 ^ 27)
  | .errRingStat => w32 (s.err.head * 2 ^ 26 + s.err.ring.length * 2 ^ 19)
  | .errRingRetire => w32 s.err.retireN.toNat
  | .errCountReplay => w32 (s.err.replays.toNat * 2 ^ 16 + s.err.failedReplays.toNat)
  | .errCountFence => w32 (s.err.fences.toNat * 2 ^ 16 + s.err.refetches.toNat)
  | .errShadowTiles => s.err.shadowTiles
  | .errShadowMiss => w32 s.err.shadowMiss.toNat
  | .errDrain => w32 (fl s.err.drained 31 + fl s.err.flagged 30 + s.err.cause.toNat)
  | .errOpsec => w32 s.err.opsec
  | .errRec n w => s.recWord n.val w.val
  | .pwrCap => w32 (fl s.pwr.capErr 31 + s.pwr.cap.toNat)
  | .pwrGroupCtl => w32 (fl s.pwr.grpEn 31 + fl s.pwr.grpErr 30 + s.pwr.coord.toNat * 2 ^ 12 + s.pwr.members.toNat)
  | .pwrGroupBudget => w32 s.pwr.budget.toNat
  | .pwrLimit => w32 (s.pwr.reason.toNat * 2 ^ 29 + s.pwr.alloc % 2048 * 2 ^ 12 + s.pwr.limit % 2048)
  | .pwrEst => w32 (s.pwr.estRaw % 65536 * 65536 + s.pwr.estCal % 65536)
  | .pwrMeas => w32 (s.pwr.vin % 65536 * 65536 + s.pwr.pin % 65536)
  | .pwrCal => BitVec.ofNat 16 s.pwr.gain ++ BitVec.ofInt 16 s.pwr.offset10
  | .pwrSlew => w32 s.pwr.ramp.toNat
  | .pwrHbmTemp => w32 (((List.range 4).map fun i => (sget 0 s.pwr.temps i).toNat * 256 ^ i).foldl (· + ·) 0)
  | .pwrSet i =>
    let q := s.pset i.val
    w32 (q.point.toNat * 2 ^ 29 + q.ceiling.toNat * 2 ^ 26 + fl q.tripped 25 + (s.pwr.k - 1) * 2 ^ 21 + q.droop.toNat * 2 ^ 8 + q.tj.toNat)
  | .pwrIdleLo => lo32 s.pwr.idle
  | .pwrIdleHi => (s.pathRegs p).idleHi
  | .pwrTotalLo => lo32 s.pwr.total
  | .pwrTotalHi => (s.pathRegs p).totalHi
  | .secBootStat =>
    w32 (s.sec.stage.toNat * 2 ^ 28 + s.sec.cause.toNat * 2 ^ 24 + fl s.sec.bankS1 23 + fl s.sec.bankS2 22 + fl s.sec.fallback 21 + s.sec.tReady.toNat)
  | .secBootCtl => w32 (fl s.sec.cfgDone 31)
  | .secFuse => s.sec.fuse
  | .secSvcId => Config.vendorId
  | .secSvcCtl => w32 (fl s.sec.pendingFw 30)
  | .secSpdmCtl => w32 (fl s.sec.spdmBusy 30 + fl s.sec.spdmErr 29 + s.sec.spdmLen.toNat)
  | .secSpdmReq n => sget 0 s.sec.spdmReq n.val
  | .secSpdmRsp n => sget 0 s.sec.spdmRsp n.val
  | .tstCtl => w32 (fl s.tst.rotEn 31 + fl s.tst.err 30 + s.tst.interval.toNat)
  | .tstSwap => w32 (s.tst.period.toNat * 65536 + s.tst.phase.toNat)
  | .tstPackAct => (s.tst.act.map (·.seq)).getD 0
  | .tstPackStg => (s.tst.stg.map (·.seq)).getD 0
  | .tstStat => w32 (s.tst.passes.toNat * 65536 + s.tst.fails.toNat * 256 + s.tst.abandoned.toNat)
  | .tstLast => s.tst.last
  | .tstDue => w32 s.dueNow
  | .tstSwaps => s.tst.swaps
  | .setCacheWay i =>
    let y := s.waysOf i
    w32 (fl y.degraded 21 + fl y.spareUsed 20 + (Config.spareWay i.val).toNat * 2 ^ 16 + ((s.inService i).map fun v => 2 ^ v.val).foldl (· + ·) 0)
  | .setCoreMap0 i => s.coreMap i.val false
  | .setCoreMap1 i => s.coreMap i.val true
  | .setVf i j => w32 (pointMhz j.val * 2 ^ 12 + (Config.setMillivolts i.val j.val).toNat)
  | .setVfGuard i => w32 ((Config.guardStep i.val).toNat * 16 + s.pwr.guard.toNat)
  | .coreArrRepair i j => Config.arrRepair (9 * i.val + j.val)
  | .coreArrChk i j => let c := sget ({} : PCore) s.pcores (9 * i.val + j.val); w32 (c.residueCnt.toNat * 65536 + c.parityCnt.toNat)
  | .coreMxuBusy i j => (sget ({} : PCore) s.pcores (9 * i.val + j.val)).mxuBusy
  | .coreMxuStall i j => (sget ({} : PCore) s.pcores (9 * i.val + j.val)).mxuStall
  | .coreSeqStat i j => s.seqStat i.val j.val
  | .coreSeqPc i j => s.seqPc i.val j.val
  | .coreVecBusy i j => (sget ({} : PCore) s.pcores (9 * i.val + j.val)).vecBusy
  | .coreVecDefer i j => (sget ({} : PCore) s.pcores (9 * i.val + j.val)).vecDefer
  | .coreAttnBlk i j => let c := sget ({} : PCore) s.pcores (9 * i.val + j.val); w32 (c.attnSkipped.toNat * 65536 + c.attnVisited.toNat)

/-- Read a register: a LO register latches its HI for the path (19 R532). -/
def State.readReg (s : State) (p : Path) (r : Reg) : State × Word :=
  let v := s.regValue p r
  match r with
  | .beatCntLo => (s.modPath p fun x => { x with beatHi := hi32 s.fab.cnt }, v)
  | .pwrIdleLo => (s.modPath p fun x => { x with idleHi := hi32 s.pwr.idle }, v)
  | .pwrTotalLo => (s.modPath p fun x => { x with totalHi := hi32 s.pwr.total }, v)
  | _ => (s, v)

/-! ### Writes (19 R533) -/

def State.modFab (s : State) (f : Fab → Fab) : State := { s with fab := f s.fab }
def State.modQce (s : State) (f : Qce → Qce) : State := { s with qce := f s.qce }
def State.modXlt (s : State) (f : Xlt → Xlt) : State := { s with xlt := f s.xlt }
def State.modTst (s : State) (f : Tst → Tst) : State := { s with tst := f s.tst }

/-- QCE_EP_DATAn. A commit of an IPv4 entry with address bits in DATA1 to DATA3 is ignored, with err (13 R377, R403). -/
def State.wEpData (s : State) (p : Path) (n : Nat) (v : Word) : State :=
  let d := (s.pathRegs p).epData
  if n < 7 then
    let keep : Word := if n = 0 then 0xC000FFFF else if n = 6 then 0x0000FFFF else 0xFFFFFFFF
    s.modPath p fun x => { x with epData := sset 0 d n (v &&& keep) }
  else if v ≠ 0 then s
  else
    let g (i : Nat) : Word := sget 0 d i
    let ipv6 := bit1 (g 0) 30
    if !ipv6 && (g 1 != 0 || g 2 != 0 || g 3 != 0) then s.modPath p fun x => { x with epErr := true }
    else
      let e : Endpoint := { valid := bit1 (g 0) 31, ipv6 := ipv6, port := .ofNat 16 (wbits (g 0) 0 16), addr := g 1 ++ g 2 ++ g 3 ++ g 4,
                            mac := BitVec.ofNat 16 (wbits (g 6) 0 16) ++ g 5 }
      (s.modPath p fun x => { x with epErr := false }).modQce fun c => { c with endpoints := sset {} c.endpoints (s.pathRegs p).ep.toNat e }

/-- STM_CREDIT (08 R244). -/
def State.wCredit (s : State) (v : Word) : State :=
  let r := wbits v 14 7
  let w := wbits v 7 7
  let m := wbits v 0 7
  if r + w + m = 100 ∧ 5 ≤ r ∧ 5 ≤ w ∧ 5 ≤ m then
    { s with stm := { s.stm with err := false, next := some (.ofNat 7 r, .ofNat 7 w, .ofNat 7 m) } }
  else { s with stm := { s.stm with err := true } }

/-- ERR_CTL (14 R419, R432). -/
def State.wErrCtl (s : State) (v : Word) : State :=
  if wbits v 27 3 > 4 then s.modErr fun e => { e with err := true }
  else (s.modErr fun e => { e with err := false, hold := bit1 v 31, strict := .ofNat 3 (wbits v 27 3) }).retire

/-- ERR_RING_RETIRE. -/
def State.wRingRetire (s : State) (v : Word) : State :=
  let n := wbits v 0 7
  if s.err.hold = false ∨ n = 0 ∨ n > 64 then s
  else
    let h := (s.err.ring.takeWhile (·.handled)).length
    s.modErr fun e => { e with retireN := .ofNat 7 n, ring := e.ring.drop (min n h) }

/-- ERR_DRAIN (14 R425, R432): the cause is written with req only (entry 21). -/
def State.wDrain (s : State) (v : Word) : State :=
  if bit1 v 29 then (s.drain (.ofNat 16 (wbits v 0 16)) none).modErr fun e => { e with cause := .ofNat 16 (wbits v 0 16) } else s

/-- TST_CTL and TST_SWAP (15 R460). -/
def State.wTstCtl (s : State) (v : Word) : State :=
  if wbits v 0 20 < 60 then s.modTst fun t => { t with err := true }
  else s.modTst fun t => { t with err := false, rotEn := bit1 v 31, interval := .ofNat 20 (wbits v 0 20) }
def State.wTstSwap (s : State) (v : Word) : State :=
  let period := wbits v 16 16
  let phase := wbits v 0 16
  if period ≠ 0 ∧ phase ≥ period then s.modTst fun t => { t with err := true }
  else s.modTst fun t => { t with err := false, period := .ofNat 16 period, phase := .ofNat 16 phase }

/-- Write a register that the path may write. -/
def State.writeReg (s : State) (p : Path) (r : Reg) (v : Word) : State :=
  match r with
  | .glbScratch => { s with scratch := v }
  | .fabCoord => s.modFab fun f => { f with coord := v &&& 0xFFF00FFF }
  | .fabCtl => s.wFabCtl v
  | .beatCtl => s.modFab fun f => { f with holdLimit := .ofNat 24 (wbits v 0 24) }
  | .qceNetCtl => s.modQce fun c => { c with ipv4En := bit1 v 31, ipv6En := bit1 v 30, dscp := .ofNat 6 (wbits v 24 6), port := .ofNat 16 (wbits v 0 16) }
  | .qceIpv4 => s.modQce fun c => { c with ipv4 := v }
  | .qceIpv6 n => s.modQce fun c => { c with ipv6 := sset 0 c.ipv6 n.val v }
  | .qceEvq =>
    let s := s.modQce fun c => { c with evqEn := bit1 v 31, evq := .ofNat 12 (wbits v 0 12) }
    -- while no EVENTs are sent, records are retired at once (14 R419)
    if bit1 v 31 then s else (s.modErr fun e => { e with ring := e.ring.map fun r => { r with acked := true } }).retire
  | .qceEpSel => s.modPath p fun x => { x with ep := .ofNat 10 (wbits v 0 10) }
  | .qceEpData n => s.wEpData p n.val v
  | .xltCtxSel => s.wCtxSel p v
  | .xltCtxRoot => s.wCtxRoot p v
  | .xltCtxKvsel => s.wKvSel p v
  | .xltCtxKvbase => s.wKvBase p v
  | .xltCtxKvlen => s.wKvLen p v
  | .xltInv => s.wInv v
  | .xltCtxKvlsh => s.wKvLsh p v
  | .xltKvpSel => s.wPoolSel p v
  | .xltKvpCfg => s.wPoolCfg p v
  | .xltKvpFrames => s.wPool p fun o => { o with frames := .ofNat 25 (wbits v 0 25) }
  | .xltKvpHdr => s.wPool p fun o => { o with hdr := .ofNat 31 (wbits v 0 31) }
  | .xltKvpStack => s.wPool p fun o => { o with stack := .ofNat 31 (wbits v 0 31) }
  | .xltKvpRecl => s.wPool p fun o => { o with recl := .ofNat 31 (wbits v 0 31) }
  | .xltKvpCount => s.wPool p fun o => { o with count := .ofNat 24 (wbits v 0 24) }
  | .xltPfxBase => s.wPfxBase v
  | .xltPfxCfg => s.wPfxCfg v
  | .xltKvopVaLo => s.modXlt fun x => { x with opVa := hi32 x.opVa ++ v }
  | .xltKvopVaHi => s.modXlt fun x => { x with opVa := v ++ lo32 x.opVa }
  | .xltKvopCnt => s.modXlt fun x => { x with opCnt := v }
  | .xltKvopCmd => s.wKvOp v
  | .stmCredit => s.wCredit v
  | .colCtl => { s with col := { s.col with galliardOnly := bit1 v 31 } }
  | .errCtl => s.wErrCtl v
  | .errRingRetire => s.wRingRetire v
  | .errDrain => s.wDrain v
  | .pwrCap => s.wCap v
  | .pwrGroupCtl => s.wGroupCtl v
  | .pwrGroupBudget => s.wGroupBudget v
  | .pwrSlew => s.wSlew v
  | .secBootCtl => if bit1 v 31 then s.configured else s
  | .secSvcCtl => if bit1 v 31 then s.clearDrain else s
  | .secSpdmCtl => s.wSpdmCtl v
  | .secSpdmReq n => s.wSpdmReq n.val v
  | .tstCtl => s.wTstCtl v
  | .tstSwap => s.wTstSwap v
  | _ => s

/-! ### One access -/

/-- How an access ends: done, denied (the path may only read it), or not reachable. -/
inductive RegEnd where
  | done | denied | absent
  deriving DecidableEq, Repr

/-- Write at an offset of the window (19 R527, R530). -/
def State.writeAt (s : State) (p : Path) (off : Nat) (v : Word) : State × RegEnd :=
  match regAt off with
  | none => (s, .done)
  | some r =>
    match r.access p with
    | .rw => (s.writeReg p r v, .done)
    | .r => (s, if r.hasRw then .denied else .done)
    | .none => (s, .absent)

/-- Read at an offset of the window. -/
def State.readAt (s : State) (p : Path) (off : Nat) : State × Option Word :=
  match regAt off with
  | none => (s, some 0)
  | some r =>
    match r.access p with
    | .none => (s, none)
    | _ => let x := s.readReg p r; (x.1, some x.2)

def windowBytes : Nat := 0x04000000

/-! ### A command that names one register -/

/-- The path carries accesses now: queues from ready on (19 R531), the service interface once the map is reachable. -/
def State.pathOpen (s : State) (p : Path) : Bool :=
  match p with
  | .queue => s.hostReady
  | .service => s.svcAlive && s.fullMap

/-- A read of one register on a path. -/
def State.touchReg (s : State) (p : Path) (r : Reg) : State := if s.pathOpen p then (s.readReg p r).1 else s

/-- A write of one register on a path, with no effect where the path may not write it. -/
def State.setReg (s : State) (p : Path) (r : Reg) (v : Word) : State :=
  if s.pathOpen p && r.access p == .rw then s.writeReg p r v else s

end Sys2Proof.Machine
end

