-- ==== Sys2Proof/Machine/Host.lean ====
section
/-!
DEFINITION. The host port: receiving CQT packets (13 R370-R376, R379), carrying messages out in order (13 R380-R388, R392),
acknowledging and resending (13 R373-R375), DIGEST (15 R454-R456), address resolution (13 R370).
-/

namespace Sys2Proof.Machine

/-! ### The entry cache (13 R389) -/

def State.pinned (s : State) (q : BitVec 12) : Bool := (s.queue q).qstate != 0

/-- Use a queue's entry: a miss fetches it, and the least recently used entry that is not pinned goes; with none, it is not kept. -/
def State.useEntry (s : State) (q : BitVec 12) : State :=
  if s.qce.cached.contains q then s.modQce fun c => { c with cached := q :: c.cached.filter (· != q) }
  else
    let l := s.qce.cached
    let l :=
      if l.length < 256 then q :: l
      else match l.reverse.find? fun x => !s.pinned x with | some v => q :: l.filter (· != v) | none => l
    s.modQce fun c => { c with cached := l, misses := satInc c.misses }

/-! ### Acknowledgements (13 R371, R374-R376) -/

/-- The header acknowledges psn p. -/
def covers (h : Hdr) (p : Word) : Bool :=
  decide ((h.ackPsn - p).toInt ≥ 0) || ((List.range 32).any fun i => p == h.ackPsn + 2 + .ofNat 32 i && h.sack.getLsbD i)

/-- A record's EVENT has been acknowledged (14 R419). -/
def State.recordAcked (s : State) (serial : Word) : State :=
  (s.modErr fun e => { e with ring := e.ring.map fun r => if r.serial == serial then { r with acked := true } else r }).retire

/-- Send a packet again. -/
def State.resend (s : State) (qid : BitVec 12) (p : TxPkt) : State :=
  let q := s.queue qid
  let again (x : TxPkt) : TxPkt := if x.psn == p.psn then { x with tries := x.tries + 1, since := q.txPsn } else x
  (s.modQueue qid fun q => { q with needAck := false, devCred := q.limit, sent := q.sent.map again }).emit
    (.cqt (s.cqtNet qid) qid p.psn (q.rxPsn - 1) q.sack q.limit p.msg)

/-- Acknowledgements cover three packets that were sent after the last sending of this one. -/
def Queue.overtaken (q : Queue) (p : TxPkt) : Bool :=
  let still := (q.sent.filter fun x => decide ((x.psn - p.since).toInt ≥ 0)).length
  decide ((q.txPsn - p.since).toNat ≥ still + 3) && decide ((q.txPsn - p.since).toInt ≥ 0)

/-- Take a header's acknowledgements and credit. -/
def State.ackIn (s : State) (h : Hdr) : State :=
  let gone := (s.queue h.qid).sent.filter fun p => covers h p.psn
  let freed := (gone.filter fun p => p.msg.answers).length
  let s := s.modQueue h.qid fun q => { q with sent := q.sent.filter fun p => !covers h p.psn, freed := q.freed + .ofNat 32 freed, hostCred := h.credLimit }
  let s := gone.foldl (fun s p => match p.msg.record with | some r => s.recordAcked r | none => s) s
  let s := if gone.isEmpty then s
    else (((s.queue h.qid).sent.filter fun p => (s.queue h.qid).overtaken p && decide (p.tries < 16)).foldl (fun s p => s.resend h.qid p) s)
  s.flushTx h.qid

/-- Send an ACK packet. -/
def State.sendAck (s : State) (qid : BitVec 12) : State :=
  let q := s.queue qid
  (s.modQueue qid fun q => { q with needAck := false, devCred := q.limit }).emit (.ack (s.cqtNet qid) qid (q.rxPsn - 1) q.sack q.limit)

/-- CQT_ACK_TIMER: something received is not acknowledged yet. -/
def State.ackTimer (s : State) (qid : BitVec 12) : State := if s.hostReady && (s.queue qid).needAck then s.sendAck qid else s

/-- The endpoint of a queue is lost (13 R375): its queues are in the error state, and their unsent packets are discarded, as are
the COMPLETIONs of launches that run on them. An obligation that waited for such a COMPLETION ends with it (11 R330). -/
def State.endpointLost (s : State) (qid : BitVec 12) : State :=
  let ep := (s.queue qid).endpoint
  let s := s.log { code := eEndpointLost, source := 3, kind := 7, qid := some qid }
  State.flushHeld <| s.qce.queues.foldl (fun s e =>
    if e.2.valid && e.2.endpoint == ep then
      let q : BitVec 12 := .ofNat 12 e.1
      let keys := (s.queue q).txWait.map (·.releases)
      let s := (s.setQueueErr q eEndpointLost).modQueue q fun q => { q with sent := [], txWait := [] }
      let s : State := { s with launches := s.launches.map fun (l : Launch) => if l.qid = q then { l with lost := true } else l }
      keys.foldl State.clearObligations s
    else s) s

/-- CQT_RETRY_TIMEOUT: no acknowledgement covers the packet within its retry time. -/
def State.retryTimeout (s : State) (qid : BitVec 12) (psn : Word) : State :=
  match (s.queue qid).sent.find? fun p => p.psn == psn with
  | none => s
  | some p => if !s.hostReady then s else if p.tries ≥ 16 then s.endpointLost qid else s.resend qid p

/-! ### Receiving (13 R371, R373, R376, R379) -/

/-- A packet comes from its queue's endpoint. -/
def State.fromEndpoint (s : State) (h : Hdr) : Bool :=
  let e := sget ({} : Endpoint) s.qce.endpoints (s.queue h.qid).endpoint.toNat
  e.valid && e.ipv6 == h.srcIpv6 && e.port == h.srcPort && (if e.ipv6 then e.addr == h.srcAddr else e.addr.setWidth 32 == h.srcAddr.setWidth 32)

/-- A packet is addressed to the device: one of its addresses in use, on the CQT port (13 R370). -/
def State.addressed (s : State) (h : Hdr) : Bool :=
  (if h.srcIpv6 then s.qce.ipv6En && h.dstAddr == s.ipv6Addr else s.qce.ipv4En && h.dstAddr.setWidth 32 == s.qce.ipv4) && h.dstPort == s.qce.port

/-- The device takes packets of this header. -/
def State.takes (s : State) (h : Hdr) : Bool := s.hostReady && (s.queue h.qid).valid && s.fromEndpoint h && h.version == 1

/-- Messages in psn order from the next expected one on. -/
def takeRun : Nat → Word → List RxMsg → List RxMsg × Word × List RxMsg
  | 0, n, l => ([], n, l)
  | fuel + 1, n, l =>
    match l.find? fun m => m.psn == n with
    | some m => let r := takeRun fuel (n + 1) (l.filter fun x => x.psn != n); (m :: r.1, r.2)
    | none => ([], n, l)

/-! ### Memory messages (13 R386, 10 R285) -/

/-- Runs of bytes that are not headers of an enabled pool: (address, bytes). -/
def hostRuns (s : State) : Nat → List Byte → List Byte → List (Nat × List Byte)
  | pa, [], run => if run.isEmpty then [] else [(pa - run.length, run)]
  | pa, b :: t, run =>
    if s.inHeaders pa then (if run.isEmpty then [] else [(pa - run.length, run)]) ++ hostRuns s (pa + 1) t []
    else hostRuns s (pa + 1) t (run ++ [b])

/-- Write physical bytes for the host; true when a merged write met poison. -/
def State.hostWrite (s : State) (pa : Nat) (bs : List Byte) : State × Bool :=
  (hostRuns s pa bs []).foldl (fun a r => let w := a.1.pwrite r.1 r.2; (w.1, a.2 || w.2.isSome)) (s, false)

/-- Write the pieces of a translated range in order. -/
def State.hostWriteAll (s : State) : List (Nat × Nat) → List Byte → State × Bool
  | [], _ => (s, false)
  | (pa, k) :: t, bs =>
    let r := s.hostWrite pa (bs.take k)
    let q := r.1.hostWriteAll t (bs.drop k)
    (q.1, r.2 || q.2)

/-- How a WRITE_MEM's bytes were written: lost data at a merged burst is E_HBM_DETECT (08 R223, 14 R409). -/
def wroteMem (r : State × Bool) : State × CmdFail := (r.1, if r.2 then (eHbmDetect, [2]) else (0, []))

/-- A held request: its message waits (08 R222). -/
def cmdHeld : CmdFail := (heldCode, [])

/-- Fields of WRITE_MEM and READ_MEM: address, length, phys, and whether the layout is kept. -/
def memFields (b : List Word) : Nat × Nat × Bool × Bool :=
  let n := (wAt b 2).toNat
  ((dAt b 0).toNat, n, bit1 (wAt b 3) 0, b.length == 4 && decide (1 ≤ n ∧ n ≤ 8192) && wbits (wAt b 3) 1 31 == 0)

/-- No byte exists at or beyond the end of the stacks (08 R219; entry 15). -/
def beyondHbm (b : List Word) : Bool := let f := memFields b; f.2.2.1 && decide (f.1 + f.2.1 > hbmBytes)

def State.writeMem (s : State) (q : Queue) (b : List Word) (bytes : List Byte) : State × CmdFail :=
  let (a, n, phys, ok) := memFields b
  if !ok || bytes.length != n then (s, (eCqtMsg, []))
  else if phys && !q.priv then (s, (ePriv, []))
  else if beyondHbm b then (s, (eXltFault, [5]))
  else if phys then (if s.held a n then (s, cmdHeld) else wroteMem (s.hostWrite a bytes))
  else
    match s.xlat none q.ctx true a n with
    | .error e => (s, (e.code, [.ofNat 32 e.cause]))
    | .ok ps => wroteMem (s.hostWriteAll ps bytes)

/-- What READ_MEM reads at physical pieces: a burst whose read failed for good, or is poisoned, gives no data (13 R386). -/
def State.readPieces (s : State) (ps : List (Nat × Nat)) : State × CmdFail × List Byte :=
  let met (f : Nat × Code × Nat) : Bool := ps.any fun p => rangesMeet p.1 p.2 (32 * f.1) 32
  match s.hbm.failing.find? met, ps.find? fun p => (s.hbm.poisonIn p.1 p.2).isSome with
  | some f, _ => (s.modHbm fun h => { h with failing := h.failing.filter fun f => !met f }, (f.2.1, [.ofNat 32 f.2.2]), [])
  | none, some _ => (s, (eHbmDetect, [2]), [])
  | none, none => (s, (0, []), (ps.map fun p => s.hbm.read p.1 p.2).flatten)

/-- READ_MEM: its code, result and data. -/
def State.readMem (s : State) (q : Queue) (b : List Word) : State × CmdFail × List Byte :=
  let (a, n, phys, ok) := memFields b
  if !ok then (s, (eCqtMsg, []), [])
  else if phys && !q.priv then (s, (ePriv, []), [])
  else if beyondHbm b then (s, (eXltFault, [5]), [])
  else if phys then (if s.held a n then (s, cmdHeld, []) else s.readPieces [(a, n)])
  else
    match s.xlat none q.ctx false a n with
    | .error e => (s, (e.code, [.ofNat 32 e.cause]), [])
    | .ok ps => s.readPieces ps

/-! ### Register messages (13 R386, 19 R527, R530) -/

def readRun (p : Path) : Nat → Nat → State → State × List Word
  | 0, _, s => (s, [])
  | n + 1, off, s =>
    let r := s.readAt p off
    let t := readRun p n (off + 4) r.1
    (t.1, r.2.getD 0 :: t.2)

def State.regReadMsg (s : State) (q : Queue) (b : List Word) : State × Code × List Byte :=
  let off := (wAt b 0).toNat
  let n := (wAt b 1).toNat
  if !q.priv then (s, ePriv, [])
  else if b.length ≠ 2 ∨ off % 4 ≠ 0 ∨ n < 1 ∨ n > 64 ∨ off + 4 * n > windowBytes then (s, eCqtMsg, [])
  else let r := readRun .queue n off s; (r.1, 0, wordBytes r.2)

def State.regWriteMsg (s : State) (q : Queue) (b : List Word) : State × Code :=
  let off := (wAt b 0).toNat
  if !q.priv then (s, ePriv)
  else if b.length ≠ 2 ∨ off % 4 ≠ 0 ∨ off ≥ windowBytes then (s, eCqtMsg)
  else
    let r := s.writeAt .queue off (wAt b 1)
    (r.1, if r.2 = .done then 0 else ePriv)

/-! ### QUEUE_CTL (13 R381, R387, R388) -/

/-- The RW fields of an entry image, put into an entry. -/
def Queue.withImage (q : Queue) (w : List Word) : Queue :=
  let w0 := wAt w 0
  { q with valid := bit1 w0 31, priv := bit1 w0 30, nanMode := .ofNat 2 (wbits w0 28 2), ctx := .ofNat 8 (wbits w0 20 8),
           endpoint := .ofNat 10 (wbits w0 10 10), depth := .ofNat 8 (wbits w0 0 8), seed := dAt w 1 }

def State.ctlSet (s : State) (issuer : Queue) (t : BitVec 12) (reset : Bool) (va : Nat) : State × CmdFail :=
  match s.vread none issuer.ctx va 128 with
  | .error e => (s, e.result)
  | .ok bs =>
    let w := leWords 32 bs
    let q := s.queue t
    let n := q.withImage w
    if n.nanMode = 3 then (s, (eCqtMsg, []))
    else if (s.launchOf t).isSome && (n.ctx != q.ctx || n.endpoint != q.endpoint || n.valid != q.valid) then (s, (eQueueState, []))
    else
      let n := if reset then { n with txPsn := 0, rxPsn := 0, hostCred := 0, devCred := 0, freed := 0, rxAhead := [], sent := [] } else n
      -- a device drained at boot holds every queue in the error state (14 R427)
      let n := if s.err.bootDrain && n.valid && !q.valid then { n with err := true, errCode := eDrained } else n
      ((s.useEntry t).modQueue t fun _ => n, (0, []))

def State.queueCtl (s : State) (issuer : Queue) (b : List Word) : State × CmdFail :=
  let w1 := wAt b 0
  let op := wbits w1 28 4
  let t : BitVec 12 := .ofNat 12 (wbits w1 0 12)
  let named := bit1 w1 26
  let resv := wbits w1 12 14 != 0 || (b.drop 4).any (· != 0) || (op != 0 && bit1 w1 27) || (op != 1 && named) ||
    (op != 0 && (wAt b 1 != 0 || wAt b 2 != 0)) || (if op = 1 ∧ named = true then wbits (wAt b 3) 16 16 != 0 else wAt b 3 != 0)
  if !issuer.priv then (s, (ePriv, []))
  else if op > 3 ∨ resv = true then (s, (eCqtMsg, []))
  else
    match op with
    | 0 => s.ctlSet issuer t (bit1 w1 27) (dAt b 1).toNat
    | 1 =>
      let epoch := if named then some (BitVec.ofNat 16 (wbits (wAt b 3) 0 16)) else none
      match s.resumeRefusal t epoch with
      | some c => (s, (c, []))
      | none => ((s.resumeLaunch t epoch).1, (0, []))
    | 2 =>
      match s.launchOf t with
      | none => (s, (eQueueState, []))
      | some l => (s.stop l { code := eLaunchEnded, source := 3 }, (0, []))
    | _ =>
      if s.err.drained then (s, (eDrained, []))
      else if !(s.queue t).err then (s, (eQueueState, []))
      else (s.modQueue t fun q => { q with err := false, errCode := 0 }, (0, []))

/-! ### DIGEST (15 R454-R456) -/

/-- Words of a 128-bit value, most significant first. -/
def words128 (d : BitVec 128) : List Word := [d.extractLsb' 96 32, d.extractLsb' 64 32, d.extractLsb' 32 32, d.extractLsb' 0 32]

def State.digest (s : State) (q : Queue) (b : List Word) (slip : Option (BitVec 128)) : State × CmdFail :=
  let w (i : Nat) : Word := wAt b (i - 1)
  let check := bit1 (w 1) 31
  let base := (dAt b 3).toNat
  let kib := (w 6).toNat
  let expect : BitVec 128 := w 8 ++ w 9 ++ w 10 ++ w 11
  if wbits (w 1) 0 31 ≠ 0 ∨ base % 4096 ≠ 0 ∨ kib % 4 ≠ 0 ∨ kib < 4 ∨ kib > 1048576 ∨ (b.drop 11).any (· != 0) ∨ (check = false ∧ expect ≠ 0) then
    (s, (eCqtMsg, []))
  else
    match s.vread none q.ctx ((base + (w 7).toNat * kib * 1024) % 2 ^ 64) (kib * 1024) with
    | .error e =>
      if e.code = eHbmDetect then (s, (e.code, [0, 0, 0, 0, 0, 0, .ofNat 32 (e.pa / 4096 * 4096), .ofNat 32 (e.pa / 4096 * 4096 / 2 ^ 32)]))
      else (s, (e.code, [0, 0, 0, 0, 0, .ofNat 32 e.cause]))
    | .ok bs =>
      let d := digest128 (leBytes 8 (dAt b 1).toNat ++ leBytes 4 (w 7).toNat ++ bs)
      let r := words128 d ++ [w 7]
      let record : RecInfo := { code := eDigestMismatch, source := 5, kind := 8 }
      if check = true ∧ slip.getD d ≠ expect then
        if d ≠ expect then (s.logDrain { record with cls := 3 } none, (eDigestMismatch, r)) else (s.log { record with cls := 1 }, (0, r))
      else (s, (0, words128 (slip.getD d) ++ [w 7]))

/-! ### Delivering (13 R371-R373, R381) -/

/-- Bytes of a message; a reserved type has no layout. -/
def HostMsg.bytes : HostMsg → Option Nat
  | .submit _ b _ | .digest b _ => some (4 + 4 * b.length)
  | .writeMem b bs => some (4 * b.length + bs.length)
  | .readMem b | .regRead b | .regWrite b => some (4 * b.length)
  | .bad _ => none

/-- The header's reserved bits are 0 and its length is its message's. -/
def wellFormedHdr (h : Hdr) (m : HostMsg) : Bool :=
  h.res0 == 0 && h.res5 == 0 && h.res7 == 0 && m.bytes == some h.length.toNat

/-- The body of a QUEUE_CTL whose target is its own queue. -/
def HostMsg.selfCtl (m : HostMsg) (qid : BitVec 12) : Option (List Word) :=
  match m with
  | .submit w0 b _ => if w0 == 9 * 2 ^ 24 && b.length == 4 && wbits (wAt b 0) 0 12 == qid.toNat then some b else none
  | _ => none

/-- A QUEUE_CTL on its own queue acts at once, whatever stands before it in that queue's order; its COMPLETION keeps its place (13 R381, R392; entry 40). -/
def State.actAtOnce (s : State) (qid : BitVec 12) (m : RxMsg) : State × RxMsg :=
  match m.msg.selfCtl qid with
  | some b =>
    let r := s.queueCtl (s.queue qid) b
    let ahead := (s.queue qid).cur.isSome || !(s.queue qid).waiting.isEmpty
    if !ahead || m.overrun || !m.formed || !(s.queue qid).priv || r.2.1 == heldCode then (s, m) else (r.1, { m with acted := some r.2 })
  | none => (s, m)

/-- Deliver a message in psn order. -/
def State.deliver (qid : BitVec 12) (s : State) (m : RxMsg) : State :=
  let r := s.actAtOnce qid m
  r.1.modQueue qid fun q => { q with waiting := q.waiting ++ [r.2] }

/-- A psn lies above the window of 256 from the next expected one on (13 R373). -/
def Queue.above (q : Queue) (psn : Word) : Bool := decide (256 ≤ (psn - q.rxPsn).toNat ∧ (psn - q.rxPsn).toNat < 2 ^ 31)

/-- Put a message that is not above the window into it: in order, ahead of a gap, or a duplicate. -/
def State.receive (s : State) (h : Hdr) (msg : HostMsg) : State :=
  let q := s.queue h.qid
  let d := (h.psn - q.rxPsn).toNat
  if d ≥ 2 ^ 31 ∨ (q.rxAhead.any fun m => m.psn == h.psn) = true then s.modQueue h.qid fun q => { q with needAck := true }
  else
    let past := decide ((h.psn - q.devCred).toInt > 0)
    let m : RxMsg := { psn := h.psn, cookie := h.cookie, overrun := past, formed := wellFormedHdr h msg, msg := msg }
    let s := if past then s.modQce fun c => { c with dropOverrun := satInc c.dropOverrun } else s
    let r := takeRun (q.rxAhead.length + 1) q.rxPsn (q.rxAhead ++ [m])
    let s := s.modQueue h.qid fun q => { q with needAck := true, rxPsn := r.2.1, rxAhead := r.2.2 }
    let s := r.1.foldl (State.deliver h.qid) s
    if d ≠ 0 then s.sendAck h.qid else s

/-- A packet arrives. One for another address or port, or not of its queue's endpoint, is discarded and counted; one above the
window is discarded whole; of the others, the acknowledgements and the message are taken. None is an ACK. -/
def State.packet (s : State) (h : Hdr) (msg : Option HostMsg) : State :=
  if !s.hostReady then s
  else if !s.addressed h then s.modQce fun c => { c with dropOther := satInc c.dropOther }
  else if !s.takes h then s.modQce fun c => { c with dropSource := satInc c.dropSource }
  else
    match msg with
    | none => (s.useEntry h.qid).ackIn h
    | some m => if (s.queue h.qid).above h.psn then s.useEntry h.qid else ((s.useEntry h.qid).ackIn h).receive h m

/-! ### Carrying out (13 R380, R388, R392) -/

/-- Command code and type of a message. -/
def HostMsg.kind : HostMsg → Nat × Nat
  | .submit w0 _ _ => (wbits w0 24 8, 1)
  | .digest .. => (8, 1)
  | .writeMem .. => (0, 2)
  | .readMem _ => (0, 3)
  | .regRead _ => (0, 4)
  | .regWrite _ => (0, 5)
  | .bad t => (0, t.toNat)

def Answer.of (k : Nat × Nat) (r : CmdFail) (data : List Byte) : Answer := { cmd := k.1, type := k.2, code := r.1, result := r.2, data := data }

/-- How a command leaves its queue: completed, or in progress. -/
inductive Carried where
  | done (r : CmdFail) (data : List Byte)
  | busy (p : InProgress)
  deriving DecidableEq, Repr

def carryFail (c : Code) : Carried := .done (c, []) []

/-- Words of a command's body: its layout's last word (13 R380-R383, R385, R396, R400, 10 R304, 15 R447, R455; entry 23). -/
def submitWords : Nat → Option Nat
  | 1 => some 4 | 2 => some 14 | 3 => some 0 | 4 => some 2 | 5 => some 17 | 6 => some 1 | 7 => some 15 | 8 => some 15 | 9 => some 4
  | _ => none

/-- A SUBMIT on a queue (13 R372, R380). -/
def State.submit (s : State) (qid : BitVec 12) (w0 : Word) (b : List Word) (sig : SigVerdict) : State × Carried :=
  let q := s.queue qid
  let plain (r : State × CmdFail) : State × Carried := (r.1, .done r.2 [])
  if wbits w0 0 24 ≠ 0 ∨ submitWords (wbits w0 24 8) ≠ some b.length then (s, carryFail eCqtMsg)
  else
    match wbits w0 24 8 with
    | 1 => plain (s.loadProgram q.ctx q.priv b sig)
    | 2 =>
      match s.launchRefusal (parseLaunch b) with
      | some c => (s, carryFail c)
      | none => (s, .busy (.launchWait b))
    | 3 => (s, .done (0, []) [])
    | 4 =>
      match s.prefixLookup qid q.ctx (dAt b 0).toNat with
      | .error e => (s, .done e [])
      | .ok (s, m, n) => (s, .done (0, [.ofNat 32 m, .ofNat 32 n]) [])
    | 5 => plain (s.exportOpen qid b)
    | 6 =>
      match s.exportClose qid (wAt b 0) with
      | (s, some c) => (s, carryFail c)
      | (s, none) => (s, .busy (.closing (wAt b 0)))
    | 7 =>
      if !q.priv then (s, carryFail ePriv)
      else
        let r := match wbits (wAt b 0) 28 4 with
          | 0 => s.requestTest qid false b
          | 1 => s.requestTest qid true b
          | 2 => s.requestPorts qid b
          | _ => (s, some (eCqtMsg, []))
        match r with
        | (s, some f) => (s, .done f [])
        | (s, none) => (s, .busy .testing)
    | 8 => plain (s.digest q b none)
    | 9 => plain (s.queueCtl q b)
    | _ => (s, carryFail eCqtMsg)

/-- A message is refused while its queue's error state is set (13 R388). -/
def HostMsg.stopsOnErr (m : HostMsg) (priv : Bool) : Bool :=
  match m with
  | .submit w0 _ _ => !(priv && wbits w0 24 8 == 9)
  | .digest .. | .writeMem .. | .readMem _ => true
  | _ => false

/-- Carry out a message at the head of its queue's order. -/
def State.carryMsg (s : State) (qid : BitVec 12) (m : RxMsg) : State × Carried :=
  let q := s.queue qid
  if m.overrun then (s, carryFail eQueueOverrun)
  else if m.acted.isSome then (s, .done (m.acted.getD (0, [])) [])
  else if q.err && m.msg.stopsOnErr q.priv then (s, carryFail eQueueError)
  else if !m.formed then (s, carryFail eCqtMsg)
  else
    match m.msg with
    | .submit w0 b sig => s.submit qid w0 b sig
    | .digest b slip =>
      if submitWords 8 ≠ some b.length then (s, carryFail eCqtMsg) else let r := s.digest q b slip; (r.1, .done r.2 [])
    | .writeMem b bs => let r := s.writeMem q b bs; (r.1, .done r.2 [])
    | .readMem b => let r := s.readMem q b; (r.1, .done r.2.1 r.2.2)
    | .regRead b => let r := s.regReadMsg q b; (r.1, .done (r.2.1, []) r.2.2)
    | .regWrite b => let r := s.regWriteMsg q b; (r.1, carryFail r.2)
    | .bad _ => (s, carryFail eCqtMsg)

/-- Take the first waiting message of a queue and carry it out. -/
def State.carry (s : State) (qid : BitVec 12) : State :=
  match (s.queue qid).waiting with
  | [] => s
  | m :: rest =>
    let r := (s.modQueue qid fun q => { q with waiting := rest }).carryMsg qid m
    match r.2 with
    | .done f data =>
      -- a message that reaches a granule under retirement keeps its place and waits (08 R222)
      if f.1 = heldCode then s.modQueue qid fun q => { q with blocked := true }
      else r.1.complete qid m.cookie (Answer.of m.msg.kind f data)
    | .busy p => r.1.modQueue qid fun q => { q with cur := some (m, p) }

/-- A queue whose next message may begin. -/
def State.nextQueue (s : State) : Option (BitVec 12) :=
  (s.qce.queues.find? fun e => e.2.cur.isNone && !e.2.waiting.isEmpty && !e.2.blocked).map fun e => .ofNat 12 e.1

def carryAll : Nat → State → State
  | 0, s => s
  | fuel + 1, s => match s.nextQueue with
    | some q => carryAll fuel (s.carry q)
    | none => s

/-- LAUNCH_ACCEPT (13 R383). -/
def State.tryAccept (s : State) (qid : BitVec 12) : State :=
  match (s.queue qid).cur with
  | some (m, .launchWait b) =>
    let fail (s : State) (f : CmdFail) : State := (s.complete qid m.cookie { cmd := 2, type := 1, code := f.1, result := f.2 }).clearCur qid
    let r := parseLaunch b
    if (s.queue qid).err then fail s (eQueueError, [])
    else
      match s.launchRefusal r with
      | some c => fail s (c, [])
      | none =>
        if s.launches.length ≥ 4 ∨ (s.qce.queues.filter fun e => e.2.qstate != 0).length ≥ 256 then s
        else
          match s.acceptMemory (s.queue qid).ctx r with
          | (s', .error e) => if e.1 = heldCode then s else fail s' e
          | (s, .ok args) => ((s.useEntry qid).acceptLaunch qid m.cookie r args).modQueue qid fun q => { q with cur := some (m, .launched) }
  | _ => s

/-! ### Address resolution and unsupported packets (13 R370) -/

def State.arpIn (s : State) (target : BitVec 32) (mac : BitVec 48) : State :=
  if s.sec.powered && s.sec.hostUp && s.qce.ipv4En && target == s.qce.ipv4 then s.emit (.arp target mac) else s
def State.solicit (s : State) (target : BitVec 128) (mac : BitVec 48) : State :=
  if s.sec.powered && s.sec.hostUp && s.qce.ipv6En && target == s.ipv6Addr then s.emit (.neighbor target mac) else s

def State.badPacket (s : State) (k : DropKind) : State :=
  if !(s.sec.powered && s.sec.hostUp) then s
  else
    match k with
    | .badFcs | .badChecksum => s.modQce fun c => { c with dropFcs := satInc c.dropFcs }
    | .other => s.modQce fun c => { c with dropOther := satInc c.dropOther }
    | .tagged | .pause => s

end Sys2Proof.Machine
end

