-- ==== Sys2Proof/Machine/Service.lean ====
section
/-!
DEFINITION. The register access of the service interface (17 R507, 19 R530, R531), and how a command's effect ends: what it
let go on goes on (13 R392, 04 R110, R135, 11 R327, 15 R443), and stream bytes that left become flits (11 R313).
-/

namespace Sys2Proof.Machine

/-! ### Service register access -/

/-- Status of an offset before access: none when the register may be accessed in the module's present state. -/
def State.svcStatus (s : State) (off : Nat) : Option Nat :=
  if !s.responder then some 2
  else if s.fullMap then (if off ≥ windowBytes then some 1 else none)
  else if off = 0x80000 then none
  else some 2

/-- Read registers in ascending order up to the first that fails: status and values. -/
def svcReadGo : Nat → Nat → State → State × Nat × List Word
  | 0, _, s => (s, 0, [])
  | n + 1, off, s =>
    match s.svcStatus off with
    | some st => (s, st, [])
    | none =>
      match s.readAt .service off with
      | (s, none) => (s, 1, [])
      | (s, some v) => let t := svcReadGo n (off + 4) s; (t.1, t.2.1, v :: t.2.2)

def svcWriteGo : Nat → List Word → State → State × Nat
  | _, [], s => (s, 0)
  | off, v :: vs, s =>
    match s.svcStatus off with
    | some st => (s, st)
    | none =>
      match s.writeAt .service off v with
      | (s, .absent) => (s, 1)
      | (s, .denied) => (s, 3)
      | (s, .done) => svcWriteGo (off + 4) vs s

/-- A register-access message (17 R507). A request that fails answers no values (entry 20). -/
def State.svcRequest (s : State) (req : List Byte) : State :=
  if !s.svcAlive then s
  else
    let b (i : Nat) : Nat := (req.getD i 0).toNat
    let n := b 1
    let off := leNat ((req.drop 4).take 4)
    let reply (s : State) (st : Nat) (vs : List Word) : State :=
      s.answer (.registers ([BitVec.ofNat 8 st, BitVec.ofNat 8 n, 0, 0] ++ (if st = 0 then wordBytes vs else [])))
    let layout := decide (1 ≤ n ∧ n ≤ 12) && b 2 == 0 && b 3 == 0 && off % 4 == 0
    if !s.responder then reply s 2 []
    else if b 0 = 1 then
      if !layout || req.length != 8 then reply s 4 []
      else let r := svcReadGo n off s; reply r.1 r.2.1 r.2.2
    else if b 0 = 2 then
      if !layout || req.length != 8 + 4 * n then reply s 4 []
      else let r := svcWriteGo off ((List.range n).map fun i => .ofNat 32 (leNat ((req.drop (8 + 4 * i)).take 4))) s; reply r.1 r.2 []
    else reply s 4 []

/-! ### What a command lets go on -/

/-- Late boundaries, a finished launch, tests and swaps, a save. -/
def State.goesOnOnce (s : State) : State := ((((s.latePasses).1.commitIfDone).1).testMoments).startSave

/-- Messages and the machine go on in turn until no queue has a message that may begin. -/
def settleGo : Nat → State → State
  | 0, s => s
  | fuel + 1, s =>
    let s := (carryAll fuel s).goesOnOnce
    if s.nextQueue.isSome then settleGo fuel s else s

def State.settle (s : State) : State := settleGo ((s.qce.queues.foldl (fun n e => n + e.2.waiting.length) 0) + 1) s

/-- The answer of a meaning that started in `s0`: the flag says that something may go on. -/
def finish (s0 : State) (r : State × Bool) : Res := .next ((s0.ownedDrain (if r.2 then r.1.settle else r.1)).sendFlits s0.out.length)

/-- The same for an effect after which anything may go on. -/
def finishAll (s0 s : State) : Res := finish s0 (s, true)

end Sys2Proof.Machine
end

