-- ==== Sys2Proof/Machine/FabricCmds.lean ====
section
/-!
DEFINITION. Commands of the fabric ports, the beat and its leader (11 R312-R337).
-/

namespace Sys2Proof.Machine

/-- A port that is up has measured its delay again (11 R324); the constants of R325 follow when the live-link map next changes. -/
def State.remeasure (s : State) (p : Fin 6) (delta : BitVec 16) : State :=
  if (s.port p).state == .up then s.modPort p fun q => { q with delta := delta } else s

/-- Training of a port set ends: in a boot it is the last work of stage 6 beside the host port (11 R312, 17 R497). -/
def State.trained (s : State) (rs : List TrainResult) : State :=
  if s.fab.retraining then
    let s := s.trainingDone rs
    if s.sec.stage = 6 then { s with sec := { s.sec with fabricDone := true } } else s
  else s

def execFlitReceive (port : Fin 6) (bytes : List Byte) (s : State) : Res := .next (s.flitIn port bytes)
def execLinkAck (port : Fin 6) (seq : BitVec 12) (det : List Bool) (s : State) : Res := finish s (s.flitAck port seq det)
def execLinkNak (port : Fin 6) (n : Nak) (remaining : Nat) (s : State) : Res :=
  finishAll s (match n with | .flit seq => s.flitNak port seq | .beat => s.beatNak port remaining)
def execBeat (port : Fin 6) (b : Option BeatSym) (s : State) : Res := finishAll s (s.beatIn port b)
def execStretch (port : Fin 6) (k : Dword) (holder : BitVec 12) (elapsed : Nat) (s : State) : Res := .next (s.stretchIn port k holder elapsed)
def execHold (port : Fin 6) (on : Bool) (holder : BitVec 12) (s : State) : Res := .next (s.holdIn port on holder)
def execLimit (port : Fin 6) (k : Dword) (s : State) : Res := finish s (s.limitIn port k)
def execElect (port : Fin 6) (id : BitVec 12) (boundary : Dword) (s : State) : Res := .next (s.electIn port id boundary)
def execLink (port : Fin 6) (m : LinkMsg) (s : State) : Res := finishAll s (s.linkSym port m)
def execLane (port : Fin 6) (lane : Fin 9) (seq : BitVec 12) (s : State) : Res := finishAll s (s.laneSwitch port lane seq)
def execMgmt (port : Fin 6) (src dst : BitVec 12) (index total : BitVec 4) (bytes : List Byte) (s : State) : Res :=
  finishAll s (s.mgmtIn port src dst index total bytes)
def execLaneFail (port : Fin 6) (lanes : List (Fin 9)) (lockLost : Bool) (s : State) : Res := finishAll s (s.lanesFail port lanes lockLost)
def execControlSymbolTimeout (port : Fin 6) (s : State) : Res := finishAll s (s.linkDown port)
def execFabricTrainingComplete (results : List TrainResult) (s : State) : Res := finishAll s (s.trained results)
def execDelayRemeasure (port : Fin 6) (delta : BitVec 16) (s : State) : Res := .next (s.remeasure port delta)
def execCheckPoint (s : State) : Res := .next s.checkPoint
def execBeatAnnounce (stretch : Nat) (s : State) : Res := finishAll s (s.announce stretch)
def execBeatBoundary (skew : Nat) (heldFor : Nat) (s : State) : Res := finishAll s (s.boundary skew heldFor).1
def execStretchSend (elapsed : Nat) (s : State) : Res := .next (s.stretchSend elapsed)
def execHoldLimitExpiry (elapsed : Nat) (s : State) : Res := finish s (s.holdLimit elapsed)
def execElectionTimeout (s : State) : Res := .next s.electStart
def execElectionEnd (s : State) : Res := .next s.electEnd
def execLeaderHandover (dest : BitVec 12) (s : State) : Res := .next (s.handOver dest)
/-- Each end sends a control symbol at least every 0.5 us (11 R316). -/
def execControlSymbolSend (port : Fin 6) (s : State) : Res :=
  .next (if s.linkPorts.contains port then s.emit (.sym port .idle) else s)

end Sys2Proof.Machine
end

