-- ==== Sys2Proof/Machine/HostCmds.lean ====
section
/-!
DEFINITION. Packets of the host port (13 R370-R386) and of the export engine's queue pairs (13 R394-R400).
-/

namespace Sys2Proof.Machine

/-- A packet with a message, or an ACK, arrives. -/
def State.host (s : State) (h : Hdr) (m : Option HostMsg) : Res := finishAll s (s.packet h m)

/-- W0 of a command (13 R380). -/
def cmdWord (cmd : Nat) : Word := .ofNat 32 (cmd * 2 ^ 24)

/-- Set the `n` low bits at `off` of a body's first word to the row's value. -/
def withField (body : List Word) (off n v : Nat) : List Word :=
  match body with
  | [] => []
  | w :: t => .ofNat 32 (w.toNat - w.toNat / 2 ^ off % 2 ^ n * 2 ^ off + v * 2 ^ off) :: t

/-- A SUBMIT of a command whose image is not signed. -/
def State.command (s : State) (h : Hdr) (cmd : Nat) (body : List Word) : Res := s.host h (some (.submit (cmdWord cmd) body ⟨false, false⟩))

/-- LOAD_PROGRAM with its kind in W1 [31:30] (13 R382). -/
def State.load (s : State) (h : Hdr) (kind : Nat) (body : List Word) (sig : SigVerdict) : Res :=
  s.host h (some (.submit (cmdWord 1) (withField body 30 2 kind) sig))

/-! ### Messages -/

def execLaunch (h : Hdr) (body : List Word) (s : State) : Res := s.command h 2 body
def execLaunchAccept (qid : BitVec 12) (s : State) : Res := finishAll s (s.tryAccept qid)
def execSubmit (h : Hdr) (w0 : Word) (body : List Word) (sig : SigVerdict) (s : State) : Res := s.host h (some (.submit w0 body sig))
def execLoadProgram (h : Hdr) (body : List Word) (sig : SigVerdict) (s : State) : Res := s.load h 0 body sig
def execLoadScheduleImage (h : Hdr) (body : List Word) (sig : SigVerdict) (s : State) : Res := s.load h 1 body sig
def execLoadTestPack (h : Hdr) (body : List Word) (sig : SigVerdict) (s : State) : Res := s.load h 2 body sig
def execFence (h : Hdr) (body : List Word) (s : State) : Res := s.command h 3 body
def execPrefixLookup (h : Hdr) (body : List Word) (s : State) : Res := s.command h 4 body
def execExportOpen (h : Hdr) (body : List Word) (s : State) : Res := s.command h 5 body
def execExportClose (h : Hdr) (body : List Word) (s : State) : Res := s.command h 6 body
def execExportCloseComplete (seq : Word) (s : State) : Res := finishAll s (s.exportCloseDone seq).1
def execTestRequestTest (h : Hdr) (body : List Word) (s : State) : Res := s.command h 7 (withField body 28 4 0)
def execTestRequestRejoin (h : Hdr) (body : List Word) (s : State) : Res := s.command h 7 (withField body 28 4 1)
def execTestRequestPort (h : Hdr) (body : List Word) (s : State) : Res := s.command h 7 (withField body 28 4 2)
def execDigest (h : Hdr) (body : List Word) (slip : Option (BitVec 128)) (s : State) : Res := s.host h (some (.digest body slip))
def execQueueCtlSet (h : Hdr) (body : List Word) (s : State) : Res := s.command h 9 (withField body 28 4 0)
def execQueueCtlResume (h : Hdr) (body : List Word) (s : State) : Res := s.command h 9 (withField body 28 4 1)
def execQueueCtlEnd (h : Hdr) (body : List Word) (s : State) : Res := s.command h 9 (withField body 28 4 2)
def execQueueCtlClear (h : Hdr) (body : List Word) (s : State) : Res := s.command h 9 (withField body 28 4 3)
def execWriteMem (h : Hdr) (body : List Word) (bytes : List Byte) (s : State) : Res := s.host h (some (.writeMem body bytes))
def execReadMem (h : Hdr) (body : List Word) (s : State) : Res := s.host h (some (.readMem body))
def execRegRead (h : Hdr) (body : List Word) (s : State) : Res := s.host h (some (.regRead body))
def execRegWrite (h : Hdr) (body : List Word) (s : State) : Res := s.host h (some (.regWrite body))
def execCqtReservedType (h : Hdr) (type : BitVec 4) (s : State) : Res := s.host h (some (.bad type))

/-! ### Transport -/

def execAck (h : Hdr) (s : State) : Res := s.host h none
def execCqtAckTimer (qid : BitVec 12) (s : State) : Res := .next (s.ackTimer qid)
def execCqtRetryTimeout (qid : BitVec 12) (psn : Word) (s : State) : Res := finishAll s (s.retryTimeout qid psn)
def execArpRequest (target _sender : BitVec 32) (senderMac : BitVec 48) (s : State) : Res := .next (s.arpIn target senderMac)
def execNeighborSolicitation (target _sender : BitVec 128) (senderMac : BitVec 48) (s : State) : Res := .next (s.solicit target senderMac)
def execUnsupportedPacket (kind : DropKind) (s : State) : Res := .next (s.badPacket kind)

/-! ### Queue pairs of the export engine -/

def execRoceAck (lqpn psn : BitVec 24) (s : State) : Res := finishAll s (s.roceAck lqpn psn)
def execRoceNakSequence (lqpn psn : BitVec 24) (s : State) : Res := finishAll s (s.nakSequence lqpn psn)
def execRoceNakRnr (lqpn psn : BitVec 24) (timer : Nat) (s : State) : Res := finishAll s (s.nakRnr lqpn psn timer)
def execRoceNakRemoteError (lqpn : BitVec 24) (s : State) : Res := finishAll s (s.nakRemote lqpn)
def execCnp (lqpn : BitVec 24) (s : State) : Res := .next (s.cnp lqpn)
def execRoceRetryTimeout (lqpn : BitVec 24) (s : State) : Res := finishAll s (s.roceTimeout lqpn)
def execRnrTimerExpiry (lqpn : BitVec 24) (s : State) : Res := finishAll s (s.rnrExpiry lqpn)
def execRateIncrease (lqpn : BitVec 24) (s : State) : Res := .next (s.rateUp lqpn)

end Sys2Proof.Machine
end

