-- ==== Sys2Proof/Machine/LaunchCmds.lean ====
section
/-!
DEFINITION. Commands that carry a launch on (01 R25, 04 R135, R136) and those of collectives (12 R345-R367).
-/

namespace Sys2Proof.Machine

def execLaunchResident (s : State) : Res := finish s s.becomeResident
def execLaunchSaveComplete (s : State) : Res := finishAll s s.saveDone
def execLaunchRestoreComplete (s : State) : Res := finish s s.restoreDone
def execLaunchBarrierComplete (start : Dword) (s : State) : Res := .next (s.barrierDone start)
def execLaunchBarrierTimeout (s : State) : Res := finish s s.barrierLate
def execLaunchStart (s : State) : Res := finish s s.beginLaunch

def execCountPhaseEntry (port : Fin 6) (jobTag : Word) (collId : BitVec 12) (e : CEntry) (det : List Bool) (s : State) : Res :=
  finish s (s.countEntry port jobTag collId e det)
def execCollChunkArrival (port : Fin 6) (jobTag : Word) (collId : BitVec 12) (axis : Axis) (result : Bool) (chunk : BitVec 24)
    (data : List Byte) (det : List Bool) (s : State) : Res :=
  finish s (s.collChunk port jobTag collId axis result chunk.toNat data det)
def execCollComplete (jobTag : Word) (collId : BitVec 12) (s : State) : Res := finish s (s.collComplete jobTag collId)
def execCollDeadlineExpiry (jobTag : Word) (collId : BitVec 12) (s : State) : Res :=
  finish s (s.collDeadline jobTag collId)
def execCollAbortReceive (port : Fin 6) (jobTag : Word) (collId : BitVec 12) (a : CAbort) (s : State) : Res :=
  finish s (s.collAbort port jobTag collId a)

end Sys2Proof.Machine
end

