-- ==== Sys2Proof/Machine/MemCmds.lean ====
section
/-!
DEFINITION. Commands of the walker, HBM and shared cache (08 R220-R237), the takeover copy (14 R413) and strict mode's compare
(14 R423-R426).
-/

namespace Sys2Proof.Machine

/-! ### Strict mode -/

/-- The physical cores that a mismatch makes suspect: the one that disagrees with the other two, else all three (14 R424). -/
def State.suspects (s : State) (x : Shadow) (shadow arbiter : BitVec 64) : List Nat :=
  let c := x.core.val
  (if shadow = arbiter then [c] else if arbiter = x.sig then [(c + 8) % 64] else [c, (c + 8) % 64, (c + 16) % 64]).filterMap s.physOf

/-- E_SHADOW_MISMATCH: the launch stops, and the device drains (14 R424-R427). -/
def State.mismatch (s : State) (x : Shadow) (shadow arbiter : BitVec 64) : State :=
  let c := x.core.val
  let unit := ((s.suspects x shadow arbiter).head?.map coreUnit).getD 0
  let detail : Dword := (Config.shadowCores ((c + 8) % 64) ((c + 16) % 64)).extractLsb' 31 32 ++ BitVec.ofBool (arbiter == x.sig) ++
    (Config.shadowCores ((c + 8) % 64) ((c + 16) % 64)).extractLsb' 0 31
  let s := { s with err := { s.err with shadowMiss := satInc s.err.shadowMiss } }
  let s := (s.suspects x shadow arbiter).foldl (fun s p => s.history 1 p .suspect) s
  s.logDrain { code := eShadowMismatch, cls := 3, kind := 1, unit := unit, qid := some x.qid, core := some (.ofNat 6 c, x.pc), detail := detail }
    (some (x.qid, { code := eShadowMismatch, core := some c, pc := x.pc, source := 0, cls := 3, kind := 1, unit := unit, detail := detail }))

/-- The shadow's signature has come; the arbiter's counts when they differ (14 R423, R424). -/
def State.compareShadow (s : State) (core : Fin 64) (index : Nat) (shadow arbiter : BitVec 64) : State :=
  match s.err.shadows.find? fun x => x.core == core && x.index == index with
  | none => s
  | some x =>
    let s := { s with err := { s.err with shadows := s.err.shadows.erase x } }
    if shadow = x.sig then s else s.mismatch x shadow arbiter

/-! ### Meanings -/

def execTableWalkComplete (who : Requester) (ctx : BitVec 8) (va : Dword) (write : Bool) (s : State) : Res :=
  finishAll s (s.walkComplete who ctx va write)
def execHbmRead (burst : BitVec 32) (who : Consumer) (va : Dword) (first second : ReadFault) (s : State) : Res :=
  finishAll s (s.hbmRead burst who va first second)
def execHbmWrite (pa : BitVec 37) (bytes : List Byte) (who : Consumer) (va : Dword) (s : State) : Res :=
  finish s (s.hbmWrite pa bytes who va)
def execGranuleRetireComplete (granule : BitVec 25) (bad : List (BitVec 7)) (s : State) : Res := finishAll s (s.retireDone granule bad)
def execCacheAccess (pa : BitVec 37) (write full : Bool) (hint : Hint) (parity : Option (List (BitVec 2))) (who : Consumer) (s : State) : Res :=
  finishAll s (s.cacheAccess pa write full hint parity who)
def execCacheWayHandover (slice : Fin 8) (way : Fin 16) (s : State) : Res := .next (s.wayHandover slice way)
def execTakeoverCopyComplete (set : Fin 8) (bad : List CopyFault) (s : State) : Res := finishAll s (s.takeoverDone set bad).1
/-- A launch commits only when its compares have completed (14 R423). -/
def execShadowCompare (core : Fin 64) (index : Nat) (shadow arbiter : BitVec 64) (s : State) : Res :=
  finishAll s (s.compareShadow core index shadow arbiter)

end Sys2Proof.Machine
end

