-- ==== Sys2Proof/Machine/PowerCmds.lean ====
section
/-!
DEFINITION. Commands of the power controller (16 R463-R482).
-/

namespace Sys2Proof.Machine

def execPowerTick (t : PowerSample) (s : State) : Res := finishAll s (s.powerTick t)
def execCapFloor (s : State) : Res := finishAll s s.capFloor
def execMeasurementWindow (m : Option (Nat × Nat)) (s : State) : Res := .next (s.window m)
def execVoltageSettled (set : Fin 8) (s : State) : Res := .next (s.voltageSettled set.val)
def execDroopDetect (set : Fin 8) (s : State) : Res := .next (s.droopDetect set.val)
def execDroopRelease (set : Fin 8) (s : State) : Res := .next (s.droopRelease set.val)
def execThermalCeilingStep (tenth : Bool) (tj hbm : List Nat) (s : State) : Res := .next (s.thermalStep tenth tj hbm)
def execThermalTrip (sensor : ThermalSensor) (reading : Nat) (s : State) : Res := finishAll s (s.thermalTrip sensor reading)
def execThermalTripRelease (sensor : ThermalSensor) (reading : Nat) (s : State) : Res := .next (s.thermalRelease sensor reading)
def execGroupReport (s : State) : Res := finishAll s s.groupReport
def execGroupAllocate (s : State) : Res := finishAll s s.groupAllocate
def execAllocationReceive (alloc : BitVec 16) (s : State) : Res := .next (s.takeAllocation alloc.toNat)
def execAllocationFallback (s : State) : Res := finishAll s s.fallBack
def execInputCharge (s : State) : Res := .next s.charge
def execInputChargeComplete (s : State) : Res := .next s.charged
/-- The switch opens and stays open until it is released (16 R480). -/
def execInputOvercurrent (s : State) : Res := .next (s.openSwitch .overcurrent true true)
def execInputReverseCurrent (s : State) : Res := .next (s.openSwitch .reverse true true)
def execInputOvervoltage (s : State) : Res := .next (s.openSwitch .overvoltage false true)
def execInputUndervoltage (s : State) : Res := .next (s.openSwitch .undervoltage false false)
def execInputAbsentRelease (s : State) : Res := .next s.absentRelease

end Sys2Proof.Machine
end

