-- ==== Sys2Proof/Machine/RegCmds.lean ====
section
/-!
DEFINITION. The register accesses that are commands of their own and the work they start (08 R237, R244, 10 R288, R295, 19 R530).
-/

namespace Sys2Proof.Machine

/-- `v` with bit 31 set. -/
def go31 (v : Word) : Word := v ||| 0x80000000#32
/-- `v` with bit 31 clear. -/
def stop31 (v : Word) : Word := v &&& 0x7FFFFFFF#32
/-- `v` with field [9:8] as given (10 R310). -/
def withOp (v : Word) (op : Word) : Word := (v &&& 0xFFFFFCFF#32) ||| (op <<< 8)

def execXltCtxKvbaseWrite (p : Path) (v : Word) (s : State) : Res := .next (s.setReg p .xltCtxKvbase v)
def execXltCtxKvlshWrite (p : Path) (v : Word) (s : State) : Res := .next (s.setReg p .xltCtxKvlsh v)
def execXltCtxRootWrite (p : Path) (v : Word) (s : State) : Res := .next (s.setReg p .xltCtxRoot v)
def execXltInv (p : Path) (v : Word) (s : State) : Res := .next (s.setReg p .xltInv v)
def execXltInvComplete (s : State) : Res := .next s.invDone
def execXltKvpEnable (p : Path) (v : Word) (s : State) : Res := .next (s.setReg p .xltKvpCfg (go31 v))
def execXltKvpDisable (p : Path) (v : Word) (s : State) : Res := .next (s.setReg p .xltKvpCfg (stop31 v))
def execPoolInitComplete (pool : Fin 5) (s : State) : Res := finishAll s (s.poolReady pool.val)
def execXltPfxCfgWrite (p : Path) (v : Word) (s : State) : Res := .next (s.setReg p .xltPfxCfg v)
def execDrop (p : Path) (v : Word) (s : State) : Res := .next (s.setReg p .xltKvopCmd (withOp v 1))
def execRelease (p : Path) (v : Word) (s : State) : Res := .next (s.setReg p .xltKvopCmd (withOp v 2))
def execXltKvopComplete (s : State) : Res := .next s.kvOpDone
def execStmCreditWrite (p : Path) (v : Word) (s : State) : Res := .next (s.setReg p .stmCredit v)
def execColCtlWrite (p : Path) (v : Word) (s : State) : Res := .next (s.setReg p .colCtl v)
def execErrCtlWrite (p : Path) (v : Word) (s : State) : Res := .next (s.setReg p .errCtl v)
def execErrRingRetire (p : Path) (v : Word) (s : State) : Res := .next (s.setReg p .errRingRetire v)
/-- A drain completes messages: what waited goes on (14 R427, 13 R392). -/
def execErrDrainReq (p : Path) (v : Word) (s : State) : Res := finishAll s (s.setReg p .errDrain (v ||| 0x20000000#32))
def execFabCtlRetrain (p : Path) (v : Word) (s : State) : Res := .next (s.setReg p .fabCtl (go31 v))
def execBeatCntLoRead (p : Path) (s : State) : Res := .next (s.touchReg p .beatCntLo)
def execPwrEnergyLoRead (p : Path) (total : Bool) (s : State) : Res := .next (s.touchReg p (if total then .pwrTotalLo else .pwrIdleLo))
def execPwrCapWrite (p : Path) (v : Word) (s : State) : Res := .next (s.setReg p .pwrCap v)
def execPwrGroupWrite (p : Path) (budget : Bool) (v : Word) (s : State) : Res :=
  .next (s.setReg p (if budget then .pwrGroupBudget else .pwrGroupCtl) v)
def execPwrSlewWrite (p : Path) (v : Word) (s : State) : Res := .next (s.setReg p .pwrSlew v)
def execQceEpData7Commit (p : Path) (v : Word) (s : State) : Res := .next (s.setReg p (.qceEpData 7) v)
def execTstCtlWrite (p : Path) (swap : Bool) (v : Word) (s : State) : Res := finishAll s (s.setReg p (if swap then .tstSwap else .tstCtl) v)
def execCfgDone (p : Path) (v : Word) (s : State) : Res := .next (s.setReg p .secBootCtl (go31 v))
def execClearDrain (p : Path) (v : Word) (s : State) : Res := .next (s.setReg p .secSvcCtl (go31 v))
def execSecSpdmCtlGo (p : Path) (v : Word) (s : State) : Res := .next (s.setReg p .secSpdmCtl (go31 v))

end Sys2Proof.Machine
end

