-- ==== Sys2Proof/Machine/Seq.lean ====
section
/-!
DEFINITION. The SEQ instructions (04 R106-R110, R122, R124; 07 R210; 08 R241; 12 R343).
-/

namespace Sys2Proof.Machine

/-! ### Operations -/

/-- A SEQ instruction that only changes its core. -/
def State.seqCore (s : State) (h : Ih) (bits : Dword) (f : Core → Core) : Res :=
  finish s (s.seq h bits fun s _ c => .ok (s.modCore c f))

/-- A SEQ instruction of the reg format: rd = f rs1 rs2 (04 R106). -/
def State.alu (s : State) (h : Ih) (bits : Dword) (rd rs1 rs2 : BitVec 5) (f : Word → Word → Word) : Res :=
  s.seqCore h bits fun k => k.setS rd (f (k.rs rs1) (k.rs rs2))

/-- A SEQ instruction of the imm format: rd = f rs1 imm32 (04 R106). -/
def State.aluImm (s : State) (h : Ih) (bits : Dword) (rd rs1 : BitVec 5) (imm : Word) (f : Word → Word → Word) : Res :=
  s.seqCore h bits fun k => k.setS rd (f (k.rs rs1) imm)

/-- Shift counts are the low 5 bits (04 R106). -/
def shiftCount (w : Word) : Nat := w.toNat % 32

def sltWord (a b : Word) : Word := if a.slt b then 1 else 0
def sltuWord (a b : Word) : Word := if a.ult b then 1 else 0
def minWord (a b : Word) : Word := if b.slt a then b else a
def minuWord (a b : Word) : Word := if b.ult a then b else a
def maxWord (a b : Word) : Word := if a.slt b then b else a
def maxuWord (a b : Word) : Word := if a.ult b then b else a

/-- Offset of LDO, STO, DLD, DST; a scalar sum wraps (04 R106). -/
def Core.offset (k : Core) (rs1 : BitVec 5) (imm : Word) : Nat := (k.rs rs1 + imm).toNat
/-- A word of the operand store (04 R108). -/
def ostWordOk (a : Nat) : Bool := a % 4 == 0 && decide (a < ostSize)
/-- A word of the descriptor store (04 R108). -/
def dscWordOk (a : Nat) : Bool := a % 4 == 0 && decide (a < 0x10000)
/-- DST leaves lines 0 and 1 alone (04 R108). -/
def dstWordOk (a : Nat) : Bool := dscWordOk a && decide (a ≥ 128)

/-- A line number that DBIND takes (04 R122). -/
def bindable (n : Nat) : Bool := decide (n ≤ 1023) && n != 1

/-- Whether a condition holds (04 R107). -/
def Core.holds (k : Core) : Cond → Bool
  | .eq a b => k.rs a == k.rs b
  | .ne a b => k.rs a != k.rs b
  | .lt a b => (k.rs a).slt (k.rs b)
  | .ge a b => !(k.rs a).slt (k.rs b)
  | .ltu a b => (k.rs a).ult (k.rs b)
  | .geu a b => !(k.rs a).ult (k.rs b)
  | .always => true

/-- The address of the BR plus 8 sext(off24); `pc` is the address after it (04 R107). -/
def branchPc (pc : BitVec 20) (off : BitVec 24) : BitVec 20 := pc - 8 + (off.signExtend 64 * 8#64).setWidth 20

/-- A collective line's state word says that its collective runs (12 R343). -/
def Core.collBusy (k : Core) (line : BitVec 10) : Bool := let st := wbits (k.dw line.toNat 11) 28 4; decide (1 ≤ st ∧ st ≤ 3)

/-- A word that an engine writes: W1, W2, W15 of a stream line, W11 to W14 of a collective line (04 R124). -/
def Core.engineWord (k : Core) (line : BitVec 10) (w : Nat) : Bool :=
  (k.streamLines.contains line && (w == 1 || w == 2 || w == 15)) || (k.collLines.contains line && decide (11 ≤ w ∧ w ≤ 14))

/-- A line written with another kind stops being a stream or collective line, unless its transfer is under way (04 R124). -/
def Core.rekind (k : Core) (line : BitVec 10) (kind : Nat) : Core :=
  let k := if kind ≠ 5 && !k.streamBusy line then { k with streamLines := k.streamLines.filter (· != line) } else k
  if kind ≠ 6 && !k.collBusy line then { k with collLines := k.collLines.filter (· != line) } else k

/-- The effect of a DST (04 R124, 08 R241, 12 R343); `pc` is the address after it. -/
def State.dstWord (s : State) (l : Launch) (c : Nat) (a : Nat) (v : Word) : State :=
  let k := s.core c
  let line := BitVec.ofNat 10 (a / 64)
  let w := a / 4 % 16
  if k.engineWord line w then
    if w = 1 then
      if k.streamBusy line then s.log (rearmRecord l c (k.pc - 8))
      else s.setCore c (k.setDw line.toNat 1 (.ofNat 32 (v.toNat % 2 ^ 28)))
    else s
  else s.setCore c ((if w = 0 then k.rekind line (wbits v 28 4) else k).setDw line.toNat w v)

/-- A DST waits while an earlier instruction has still to latch its line (04 R124). -/
def Core.dstWaits (k : Core) (h : Ih) (a : Nat) : Bool :=
  let line := BitVec.ofNat 10 (a / 64)
  k.tokOk h.wt && dstWordOk a && !k.engineWord line (a / 4 % 16) && k.lineHeld line.toNat

/-! ### Meanings -/

def execNop (h : Ih) (s : State) : Res := s.seqCore h (bitsOf (.nop h)) id
def execAdd (h : Ih) (rd rs1 rs2 : BitVec 5) (s : State) : Res := s.alu h (bitsOf (.add h rd rs1 rs2)) rd rs1 rs2 (· + ·)
def execSub (h : Ih) (rd rs1 rs2 : BitVec 5) (s : State) : Res := s.alu h (bitsOf (.sub h rd rs1 rs2)) rd rs1 rs2 (· - ·)
def execMul (h : Ih) (rd rs1 rs2 : BitVec 5) (s : State) : Res := s.alu h (bitsOf (.mul h rd rs1 rs2)) rd rs1 rs2 (· * ·)
def execAnd (h : Ih) (rd rs1 rs2 : BitVec 5) (s : State) : Res := s.alu h (bitsOf (.and h rd rs1 rs2)) rd rs1 rs2 (· &&& ·)
def execOr (h : Ih) (rd rs1 rs2 : BitVec 5) (s : State) : Res := s.alu h (bitsOf (.or h rd rs1 rs2)) rd rs1 rs2 (· ||| ·)
def execXor (h : Ih) (rd rs1 rs2 : BitVec 5) (s : State) : Res := s.alu h (bitsOf (.xor h rd rs1 rs2)) rd rs1 rs2 (· ^^^ ·)
def execShl (h : Ih) (rd rs1 rs2 : BitVec 5) (s : State) : Res :=
  s.alu h (bitsOf (.shl h rd rs1 rs2)) rd rs1 rs2 fun a b => a <<< shiftCount b
def execShr (h : Ih) (rd rs1 rs2 : BitVec 5) (s : State) : Res :=
  s.alu h (bitsOf (.shr h rd rs1 rs2)) rd rs1 rs2 fun a b => a >>> shiftCount b
def execSra (h : Ih) (rd rs1 rs2 : BitVec 5) (s : State) : Res :=
  s.alu h (bitsOf (.sra h rd rs1 rs2)) rd rs1 rs2 fun a b => a.sshiftRight (shiftCount b)
def execMin (h : Ih) (rd rs1 rs2 : BitVec 5) (s : State) : Res := s.alu h (bitsOf (.min h rd rs1 rs2)) rd rs1 rs2 minWord
def execMinu (h : Ih) (rd rs1 rs2 : BitVec 5) (s : State) : Res := s.alu h (bitsOf (.minu h rd rs1 rs2)) rd rs1 rs2 minuWord
def execMax (h : Ih) (rd rs1 rs2 : BitVec 5) (s : State) : Res := s.alu h (bitsOf (.max h rd rs1 rs2)) rd rs1 rs2 maxWord
def execMaxu (h : Ih) (rd rs1 rs2 : BitVec 5) (s : State) : Res := s.alu h (bitsOf (.maxu h rd rs1 rs2)) rd rs1 rs2 maxuWord
def execSlt (h : Ih) (rd rs1 rs2 : BitVec 5) (s : State) : Res := s.alu h (bitsOf (.slt h rd rs1 rs2)) rd rs1 rs2 sltWord
def execSltu (h : Ih) (rd rs1 rs2 : BitVec 5) (s : State) : Res := s.alu h (bitsOf (.sltu h rd rs1 rs2)) rd rs1 rs2 sltuWord
def execAddi (h : Ih) (rd rs1 : BitVec 5) (imm : Word) (s : State) : Res := s.aluImm h (bitsOf (.addi h rd rs1 imm)) rd rs1 imm (· + ·)
def execMuli (h : Ih) (rd rs1 : BitVec 5) (imm : Word) (s : State) : Res := s.aluImm h (bitsOf (.muli h rd rs1 imm)) rd rs1 imm (· * ·)
def execAndi (h : Ih) (rd rs1 : BitVec 5) (imm : Word) (s : State) : Res := s.aluImm h (bitsOf (.andi h rd rs1 imm)) rd rs1 imm (· &&& ·)
def execOri (h : Ih) (rd rs1 : BitVec 5) (imm : Word) (s : State) : Res := s.aluImm h (bitsOf (.ori h rd rs1 imm)) rd rs1 imm (· ||| ·)

def execAdda (h : Ih) (ad asrc : BitVec 4) (rs : BitVec 5) (imm : Word) (s : State) : Res :=
  s.seqCore h (bitsOf (.adda h ad asrc rs imm)) fun k => k.setA ad (k.ra asrc + imm.signExtend 64 + (k.rs rs).setWidth 64)
def execAddah (h : Ih) (ad asrc : BitVec 4) (rs : BitVec 5) (imm : Word) (s : State) : Res :=
  s.seqCore h (bitsOf (.addah h ad asrc rs imm)) fun k => k.setA ad (k.ra asrc + (((k.rs rs).setWidth 64 + imm.setWidth 64) <<< 32))
def execMovsa (h : Ih) (rd : BitVec 5) (asrc : BitVec 4) (hi : Bool) (s : State) : Res :=
  s.seqCore h (bitsOf (.movsa h rd asrc hi)) fun k => k.setS rd (if hi then hi32 (k.ra asrc) else lo32 (k.ra asrc))

def execLdo (h : Ih) (rd rs1 : BitVec 5) (imm : Word) (s : State) : Res :=
  finish s (s.seq h (bitsOf (.ldo h rd rs1 imm)) fun s _ c =>
    let k := s.core c
    let a := k.offset rs1 imm
    if ostWordOk a then .ok (s.setCore c (k.setS rd (.ofNat 32 (leNat (k.ostRead a 4))))) else .error eLocalBound)
def execSto (h : Ih) (rd rs1 : BitVec 5) (imm : Word) (s : State) : Res :=
  finish s (s.seq h (bitsOf (.sto h rd rs1 imm)) fun s _ c =>
    let k := s.core c
    let a := k.offset rs1 imm
    if ostWordOk a then .ok (s.setCore c (k.ostWrite a (leBytes 4 (k.rs rd).toNat))) else .error eLocalBound)
def execDld (h : Ih) (rd rs1 : BitVec 5) (imm : Word) (s : State) : Res :=
  finish s (s.seq h (bitsOf (.dld h rd rs1 imm)) fun s _ c =>
    let k := s.core c
    let a := k.offset rs1 imm
    if dscWordOk a then .ok (s.setCore c (k.setS rd (k.dw (a / 64) (a / 4 % 16)))) else .error eLocalBound)
def execDst (h : Ih) (rd rs1 : BitVec 5) (imm : Word) (s : State) : Res :=
  let k := s.core h.core.val
  let a := k.offset rs1 imm
  -- it waits for the line alone: its token is there
  if (s.canIssue h.core.val).isSome && k.dstWaits h a then .next (s.setCore h.core.val { k with seqWait := none })
  else
    let r := s.seq h (bitsOf (.dst h rd rs1 imm)) fun s l c =>
      if dstWordOk a then .ok (s.dstWord l c a ((s.core c).rs rd)) else .error eLocalBound
    -- a DST that meets a running stream may have filled the log ring (14 R419)
    finish s (r.1, r.2 || k.streamBusy (.ofNat 10 (a / 64)))
def execDbind (h : Ih) (rd rs1 : BitVec 5) (imm : Word) (s : State) : Res :=
  finish s (s.seq h (bitsOf (.dbind h rd rs1 imm)) fun s _ c =>
    let k := s.core c
    let n := k.offset rs1 imm
    if bindable n then .ok (s.setCore c { k with d := sset 0 k.d rd.toNat (.ofNat 10 n) }) else .error eLocalBound)
def execBr (h : Ih) (cond : Cond) (off : BitVec 24) (s : State) : Res :=
  s.seqCore h (bitsOf (.br h cond off)) fun k => if k.holds cond then { k with pc := branchPc k.pc off } else k
def execRdflg (h : Ih) (rd : BitVec 5) (clear : Bool) (s : State) : Res :=
  s.seqCore h (bitsOf (.rdflg h rd clear)) fun k =>
    let v := k.setS rd (k.flags.setWidth 32)
    if clear then { v with flags := 0 } else v

/-- END may let the launch commit (04 R110). -/
def execEndProgram (h : Ih) (s : State) : Res := finishAll s (s.endCore h (bitsOf (.endProgram h))).1

end Sys2Proof.Machine
end

