-- ==== Sys2Proof/Machine/ServiceCmds.lean ====
section
/-!
DEFINITION. Commands of the service interface (17 R500-R513), of boot (17 R494-R497) and of the in-field test (15 R440-R443).
-/

namespace Sys2Proof.Machine

/-! ### Registers, SPDM, sensors -/

def execSpdmMailboxComplete (s : State) : Res := .next s.mailboxDone
def execSvcRegisterRead (req : List Byte) (s : State) : Res := finishAll s (s.svcRequest req)
def execSvcRegisterWrite (req : List Byte) (s : State) : Res := finishAll s (s.svcRequest req)
def execGetVersion (c : Conn) (s : State) : Res := .next (s.spdm c .version)
def execGetCapabilities (c : Conn) (s : State) : Res := .next (s.spdm c .capabilities)
def execNegotiateAlgorithms (c : Conn) (p384 sha384 : Bool) (s : State) : Res := .next (s.spdm c (.algorithms p384 sha384))
def execGetDigests (c : Conn) (s : State) : Res := .next (s.spdm c .digests)
def execGetCertificate (c : Conn) (slot : BitVec 4) (off len : BitVec 16) (s : State) : Res :=
  .next (s.spdm c (.certificate slot.toNat off.toNat len.toNat))
def execChallenge (c : Conn) (slot : BitVec 8) (nonce : List Byte) (s : State) : Res := .next (s.spdm c (.challenge slot.toNat nonce))
def execGetMeasurements (c : Conn) (index : BitVec 8) (signed : Bool) (nonce : List Byte) (s : State) : Res :=
  .next (s.spdm c (.measurements index.toNat signed nonce))
def execSetEndpointId (eid : BitVec 8) (s : State) : Res := .next (s.setEid eid)
def execGetSensorReading (sensor : BitVec 16) (s : State) : Res := .next (s.readSensor sensor.toNat)
def execGetStateSensorReadings (sensor : BitVec 16) (s : State) : Res := .next (s.readState sensor.toNat)
def execGetPdr (handle : Word) (s : State) : Res := .next (s.readPdr handle)
def execSvc3v3Loss (s : State) : Res := .next s.svcLoss
def execSvc3v3Return (s : State) : Res := .next s.svcReturn
def execDynamicAddressAssignment (addr : BitVec 7) (s : State) : Res := .next (s.setAddress addr)

/-! ### Firmware update -/

def execQueryDeviceIdentifiers (s : State) : Res := .next (s.fw (·.deviceIds))
def execGetFirmwareParameters (s : State) : Res := .next (s.fw (·.fwParameters))
def execRequestUpdate (s : State) : Res := .next (s.fw (·.requestUpdate))
def execPassComponentTable (components : List (BitVec 16)) (s : State) : Res := .next (s.fw (·.passTable components))
def execUpdateComponent (component : BitVec 16) (size : Word) (s : State) : Res := .next (s.fw (·.updateComponent component size.toNat))
def execFirmwareDataReceive (bytes : List Byte) (inB inA : SigVerdict) (s : State) : Res :=
  finishAll s (s.fw (·.firmwareData bytes inB inA))
def execActivateFirmware (s : State) : Res := .next (s.fw (·.activate))
def execGetStatus (s : State) : Res := .next (s.fw (·.updateStatus))
def execCancelUpdate (s : State) : Res := .next (s.fw (·.cancelUpdate))

/-! ### Boot and the seconds of operation -/

def execBootRom (v : BootVerdicts) (s : State) : Res := .next (s.bootRom v)
def execBootStage2 (v : BootVerdicts) (w : BootWork) (s : State) : Res := .next (s.bootStage2 v w)
def execBootReady (tReady : BitVec 16) (s : State) : Res := .next (s.bootReady tReady)
def execHostPortRetry (trained : Bool) (s : State) : Res := .next (s.hostRetry trained)
def execOperatingSecond (flashOk : Bool) (s : State) : Res := finishAll s (s.operatingSecond flashOk)

/-! ### Tests -/

def execRotationDue (set : Fin 8) (s : State) : Res := finishAll s (s.rotationDue set)
def execTestCaseRun (site : TestSite) (outcome : CaseOutcome) (s : State) : Res :=
  finishAll s (match site with
    | .slot set => s.slotCase set outcome State.retireGranule
    | .ports => s.portCase outcome State.retireGranule)
def execTestCaseLimit (site : TestSite) (s : State) : Res := .next (s.caseLimit site)
def execTestEnd (site : TestSite) (s : State) : Res := finishAll s (s.testEnd site).1

end Sys2Proof.Machine
end

