-- ==== Sys2Proof/Machine/UnitOps.lean ====
section
/-!
DEFINITION. The instructions of the MXU, VEC, STM and SYN units and what follows their issue (04 R100, R101, R109, R112-R118,
07 R199, 08 R240-R248, 13 R398).
-/

namespace Sys2Proof.Machine

/-- Issue a unit instruction. -/
def State.issueRes (s : State) (h : Ih) (bits : Dword) (u : CUnit) (op : Core → UOp) : Res := finish s (s.issue h bits u op)

/-- An extent register of the mat format: 0 selects the planned maximum (04 R105). -/
def Core.extent (k : Core) (r : BitVec 5) : Option Word := if r = 0 then none else some (k.rs r)
/-- The problem index (04 R126). -/
def Core.problem (k : Core) (r : BitVec 5) (imm : BitVec 16) : Word := k.rs r + imm.setWidth 32
/-- The exact operand-store offset of the vmem and vcvt formats (04 R109). -/
def Core.vOffset (k : Core) (r : BitVec 5) (imm : BitVec 16) : Nat := (k.rs r).toNat + 64 * imm.toNat

/-! ### MXU -/

def execMma (h : Ih) (dslot sProb sM sN sK : BitVec 5) (imm : BitVec 16) (s : State) : Res :=
  s.issueRes h (bitsOf (.mma h dslot sProb sM sN sK imm)) .mxu fun k =>
    .mma dslot (k.slot dslot) (k.problem sProb imm) (k.extent sM) (k.extent sN) (k.extent sK)
def execAttn (h : Ih) (dslot sProb sM sN sK : BitVec 5) (imm : BitVec 16) (s : State) : Res :=
  s.issueRes h (bitsOf (.attn h dslot sProb sM sN sK imm)) .mxu fun k =>
    .attn dslot (k.slot dslot) (k.problem sProb imm) (k.extent sM) (k.extent sN) (k.extent sK)
/-- `accTiles` is the number of tiles minus 1. An EPI past tile 7 never passes the loader, which answers E_OPCODE for it (04 R109, R130);
issued all the same, it stops its queue with that code (DESIGN CHOICE, entry 54). -/
def execEpi (h : Ih) (dslot sOff : BitVec 5) (accBase accTiles : BitVec 3) (s : State) : Res :=
  if accBase.toNat + accTiles.toNat > 7 then finish s (s.seq h (bitsOf (.epi h dslot sOff accBase accTiles)) fun _ _ _ => .error eOpcode)
  else s.issueRes h (bitsOf (.epi h dslot sOff accBase accTiles)) .mxu fun k => .epi (k.slot dslot) (k.rs sOff) accBase accTiles
def execAccinit (h : Ih) (mask : BitVec 8) (i32 : Bool) (s : State) : Res :=
  s.issueRes h (bitsOf (.accinit h mask i32)) .mxu fun _ => .accinit mask i32

/-! ### VEC -/

def execVprog (h : Ih) (td ta tb : BitVec 6) (tp : Option (BitVec 6)) (dslot : BitVec 5) (s : State) : Res :=
  s.issueRes h (bitsOf (.vprog h td ta tb tp dslot)) .vec fun k => .vprog td ta tb tp (k.slot dslot)
def execVred (h : Ih) (td ta : BitVec 6) (rop : RedOp) (axis : Bool) (s : State) : Res :=
  s.issueRes h (bitsOf (.vred h td ta rop axis)) .vec fun _ => .vred td ta rop axis
def execVld (h : Ih) (tv : BitVec 6) (fmt : BitVec 4) (uns : Bool) (rs : BitVec 5) (imm : BitVec 16) (s : State) : Res :=
  s.issueRes h (bitsOf (.vld h tv fmt uns rs imm)) .vec fun k => .vld tv fmt uns (k.vOffset rs imm)
def execVst (h : Ih) (tv : BitVec 6) (fmt : BitVec 4) (uns : Bool) (rs : BitVec 5) (imm : BitVec 16) (s : State) : Res :=
  s.issueRes h (bitsOf (.vst h tv fmt uns rs imm)) .vec fun k => .vst tv fmt uns (k.vOffset rs imm)
def execVcvt (h : Ih) (ta : BitVec 6) (sCvt rs : BitVec 5) (imm : BitVec 16) (s : State) : Res :=
  s.issueRes h (bitsOf (.vcvt h ta sCvt rs imm)) .vec fun k => .vcvt ta (k.rs sCvt) (k.vOffset rs imm)
def execVaccr (h : Ih) (tv : BitVec 6) (tile : BitVec 3) (rblk cblk : BitVec 2) (s : State) : Res :=
  s.issueRes h (bitsOf (.vaccr h tv tile rblk cblk)) .vec fun _ => .vaccr tv tile rblk cblk
def execVaccw (h : Ih) (tv : BitVec 6) (tile : BitVec 3) (rblk cblk : BitVec 2) (s : State) : Res :=
  s.issueRes h (bitsOf (.vaccw h tv tile rblk cblk)) .vec fun _ => .vaccw tv tile rblk cblk
def execVmov (h : Ih) (td ta : BitVec 6) (s : State) : Res := s.issueRes h (bitsOf (.vmov h td ta)) .vec fun _ => .vmov td ta
def execVfill (h : Ih) (td : BitVec 6) (rs : BitVec 5) (s : State) : Res :=
  s.issueRes h (bitsOf (.vfill h td rs)) .vec fun k => .vfill td (k.rs rs)

/-! ### STM and SYN -/

def execSarm (h : Ih) (dslot : BitVec 5) (eng : Fin 4) (s : State) : Res :=
  s.issueRes h (bitsOf (.sarm h dslot eng)) .stm fun k => .sarm (k.slot dslot) eng
def execSexp (h : Ih) (dslot : BitVec 5) (s : State) : Res := s.issueRes h (bitsOf (.sexp h dslot)) .stm fun k => .sexp (k.slot dslot)
def execTsig (h : Ih) (k : Fin 16) (n : BitVec 16) (s : State) : Res := s.issueRes h (bitsOf (.tsig h k n)) .syn fun _ => .tsig k n
def execTwait (h : Ih) (k : Fin 16) (n : BitVec 16) (s : State) : Res := s.issueRes h (bitsOf (.twait h k n)) .syn fun _ => .twait k n
def execWaitbeat (h : Ih) (rs : BitVec 5) (imm : Word) (s : State) : Res :=
  s.issueRes h (bitsOf (.waitbeat h rs imm)) .syn fun k => .waitbeat (k.rs rs + imm)
/-- Meeting an obligation may let a late boundary pass (04 R118, 11 R327). -/
def execBeatmark (h : Ih) (rs : BitVec 5) (imm : Word) (s : State) : Res :=
  finishAll s (s.issue h (bitsOf (.beatmark h rs imm)) .syn fun k => .beatmark (k.rs rs + imm)).1
def execColl (h : Ih) (dslot : BitVec 5) (s : State) : Res := s.issueRes h (bitsOf (.coll h dslot)) .syn fun k => .coll (k.slot dslot)
def execLbar (h : Ih) (s : State) : Res := s.issueRes h (bitsOf (.lbar h)) .syn fun _ => .lbar

/-! ### After issue -/

def execUnitInstructionBegin (core : Fin 64) (unit : CUnit) (det : List Detection) (s : State) : Res :=
  finishAll s (s.beginHead core.val unit det).1
def execInstructionComplete (core : Fin 64) (serial : Nat) (s : State) : Res := finish s (s.completeSerial core.val serial)
def execWaitLimitExpiry (core : Fin 64) (unit : CUnit) (s : State) : Res := finish s (s.expireWait core.val unit)
def execBeatRangeExpiry (s : State) : Res := finish s s.beatRange
def execExportPageSend (lqpn : BitVec 24) (s : State) : Res := finishAll s (s.pageSend lqpn)
def execStreamStart (core : Fin 64) (eng : Fin 4) (det : List Detection) (s : State) : Res :=
  finish s (s.startStream core.val eng det)
def execRemoteStreamStart (core : Fin 64) (eng : Fin 4) (s : State) : Res := finish s (s.startRemote core.val eng)
def execStreamDone (core : Fin 64) (eng : Fin 4) (acked : Nat) (det : List Detection) (s : State) : Res :=
  finish s (s.streamDone core.val eng acked det)
def execRemoteStreamArrival (src : BitVec 12) (core : Fin 64) (toMem : Bool) (jobTag : Word) (addr : Dword) (bytes : List Byte) (last : Bool)
    (sig : Option (Fin 16)) (s : State) : Res :=
  finish s (s.remoteArrival src core toMem jobTag addr bytes last sig)

end Sys2Proof.Machine
end

