-- ==== Sys2Proof/Machine/Dispatch.lean ====
section
/-!
DEFINITION. One arm per command: its meaning, called by its full name.
-/

namespace Sys2Proof.Machine

/-- The effect of a command on everything but the queue (spec/opcode_table.json). -/
def exec (i : Instr) (s : State) : Host.Outcome State Fault Refusal :=
  match i with
  | .nop h => Sys2Proof.Machine.execNop h s
  | .add h rd rs1 rs2 => Sys2Proof.Machine.execAdd h rd rs1 rs2 s
  | .sub h rd rs1 rs2 => Sys2Proof.Machine.execSub h rd rs1 rs2 s
  | .mul h rd rs1 rs2 => Sys2Proof.Machine.execMul h rd rs1 rs2 s
  | .and h rd rs1 rs2 => Sys2Proof.Machine.execAnd h rd rs1 rs2 s
  | .or h rd rs1 rs2 => Sys2Proof.Machine.execOr h rd rs1 rs2 s
  | .xor h rd rs1 rs2 => Sys2Proof.Machine.execXor h rd rs1 rs2 s
  | .shl h rd rs1 rs2 => Sys2Proof.Machine.execShl h rd rs1 rs2 s
  | .shr h rd rs1 rs2 => Sys2Proof.Machine.execShr h rd rs1 rs2 s
  | .sra h rd rs1 rs2 => Sys2Proof.Machine.execSra h rd rs1 rs2 s
  | .min h rd rs1 rs2 => Sys2Proof.Machine.execMin h rd rs1 rs2 s
  | .minu h rd rs1 rs2 => Sys2Proof.Machine.execMinu h rd rs1 rs2 s
  | .max h rd rs1 rs2 => Sys2Proof.Machine.execMax h rd rs1 rs2 s
  | .maxu h rd rs1 rs2 => Sys2Proof.Machine.execMaxu h rd rs1 rs2 s
  | .slt h rd rs1 rs2 => Sys2Proof.Machine.execSlt h rd rs1 rs2 s
  | .sltu h rd rs1 rs2 => Sys2Proof.Machine.execSltu h rd rs1 rs2 s
  | .addi h rd rs1 imm => Sys2Proof.Machine.execAddi h rd rs1 imm s
  | .muli h rd rs1 imm => Sys2Proof.Machine.execMuli h rd rs1 imm s
  | .andi h rd rs1 imm => Sys2Proof.Machine.execAndi h rd rs1 imm s
  | .ori h rd rs1 imm => Sys2Proof.Machine.execOri h rd rs1 imm s
  | .adda h ad asrc rs imm => Sys2Proof.Machine.execAdda h ad asrc rs imm s
  | .addah h ad asrc rs imm => Sys2Proof.Machine.execAddah h ad asrc rs imm s
  | .movsa h rd asrc hi => Sys2Proof.Machine.execMovsa h rd asrc hi s
  | .ldo h rd rs1 imm => Sys2Proof.Machine.execLdo h rd rs1 imm s
  | .sto h rd rs1 imm => Sys2Proof.Machine.execSto h rd rs1 imm s
  | .dld h rd rs1 imm => Sys2Proof.Machine.execDld h rd rs1 imm s
  | .dst h rd rs1 imm => Sys2Proof.Machine.execDst h rd rs1 imm s
  | .dbind h rd rs1 imm => Sys2Proof.Machine.execDbind h rd rs1 imm s
  | .br h cond off => Sys2Proof.Machine.execBr h cond off s
  | .rdflg h rd clear => Sys2Proof.Machine.execRdflg h rd clear s
  | .endProgram h => Sys2Proof.Machine.execEndProgram h s
  | .mma h dslot sProb sM sN sK imm => Sys2Proof.Machine.execMma h dslot sProb sM sN sK imm s
  | .attn h dslot sProb sM sN sK imm => Sys2Proof.Machine.execAttn h dslot sProb sM sN sK imm s
  | .epi h dslot sOff accBase accTiles => Sys2Proof.Machine.execEpi h dslot sOff accBase accTiles s
  | .accinit h mask i32 => Sys2Proof.Machine.execAccinit h mask i32 s
  | .vprog h td ta tb tp dslot => Sys2Proof.Machine.execVprog h td ta tb tp dslot s
  | .vred h td ta rop axis => Sys2Proof.Machine.execVred h td ta rop axis s
  | .vld h tv fmt uns rs imm => Sys2Proof.Machine.execVld h tv fmt uns rs imm s
  | .vst h tv fmt uns rs imm => Sys2Proof.Machine.execVst h tv fmt uns rs imm s
  | .vcvt h ta sCvt rs imm => Sys2Proof.Machine.execVcvt h ta sCvt rs imm s
  | .vaccr h tv tile rblk cblk => Sys2Proof.Machine.execVaccr h tv tile rblk cblk s
  | .vaccw h tv tile rblk cblk => Sys2Proof.Machine.execVaccw h tv tile rblk cblk s
  | .vmov h td ta => Sys2Proof.Machine.execVmov h td ta s
  | .vfill h td rs => Sys2Proof.Machine.execVfill h td rs s
  | .sarm h dslot eng => Sys2Proof.Machine.execSarm h dslot eng s
  | .sexp h dslot => Sys2Proof.Machine.execSexp h dslot s
  | .tsig h k n => Sys2Proof.Machine.execTsig h k n s
  | .twait h k n => Sys2Proof.Machine.execTwait h k n s
  | .waitbeat h rs imm => Sys2Proof.Machine.execWaitbeat h rs imm s
  | .beatmark h rs imm => Sys2Proof.Machine.execBeatmark h rs imm s
  | .coll h dslot => Sys2Proof.Machine.execColl h dslot s
  | .lbar h => Sys2Proof.Machine.execLbar h s
  | .unitInstructionBegin core unit det => Sys2Proof.Machine.execUnitInstructionBegin core unit det s
  | .instructionComplete core serial => Sys2Proof.Machine.execInstructionComplete core serial s
  | .waitLimitExpiry core unit => Sys2Proof.Machine.execWaitLimitExpiry core unit s
  | .beatRangeExpiry => Sys2Proof.Machine.execBeatRangeExpiry s
  | .exportPageSend lqpn => Sys2Proof.Machine.execExportPageSend lqpn s
  | .streamStart core eng det => Sys2Proof.Machine.execStreamStart core eng det s
  | .remoteStreamStart core eng => Sys2Proof.Machine.execRemoteStreamStart core eng s
  | .streamDone core eng acked det => Sys2Proof.Machine.execStreamDone core eng acked det s
  | .remoteStreamArrival src core toMem jobTag addr bytes last sig => Sys2Proof.Machine.execRemoteStreamArrival src core toMem jobTag addr bytes last sig s
  | .tableWalkComplete who ctx va write => Sys2Proof.Machine.execTableWalkComplete who ctx va write s
  | .hbmRead burst who va first second => Sys2Proof.Machine.execHbmRead burst who va first second s
  | .hbmWrite pa bytes who va => Sys2Proof.Machine.execHbmWrite pa bytes who va s
  | .granuleRetireComplete granule bad => Sys2Proof.Machine.execGranuleRetireComplete granule bad s
  | .cacheAccess pa write full hint parity who => Sys2Proof.Machine.execCacheAccess pa write full hint parity who s
  | .cacheWayHandover slice way => Sys2Proof.Machine.execCacheWayHandover slice way s
  | .takeoverCopyComplete set bad => Sys2Proof.Machine.execTakeoverCopyComplete set bad s
  | .shadowCompare core index shadow arbiter => Sys2Proof.Machine.execShadowCompare core index shadow arbiter s
  | .launch h body => Sys2Proof.Machine.execLaunch h body s
  | .launchAccept qid => Sys2Proof.Machine.execLaunchAccept qid s
  | .launchResident => Sys2Proof.Machine.execLaunchResident s
  | .launchSaveComplete => Sys2Proof.Machine.execLaunchSaveComplete s
  | .launchRestoreComplete => Sys2Proof.Machine.execLaunchRestoreComplete s
  | .launchBarrierComplete start => Sys2Proof.Machine.execLaunchBarrierComplete start s
  | .launchBarrierTimeout => Sys2Proof.Machine.execLaunchBarrierTimeout s
  | .launchStart => Sys2Proof.Machine.execLaunchStart s
  | .countPhaseEntry port jobTag collId e det => Sys2Proof.Machine.execCountPhaseEntry port jobTag collId e det s
  | .collChunkArrival port jobTag collId axis result chunk data det => Sys2Proof.Machine.execCollChunkArrival port jobTag collId axis result chunk data det s
  | .collComplete jobTag collId => Sys2Proof.Machine.execCollComplete jobTag collId s
  | .collDeadlineExpiry jobTag collId => Sys2Proof.Machine.execCollDeadlineExpiry jobTag collId s
  | .collAbortReceive port jobTag collId a => Sys2Proof.Machine.execCollAbortReceive port jobTag collId a s
  | .flitReceive port bytes => Sys2Proof.Machine.execFlitReceive port bytes s
  | .linkAck port seq det => Sys2Proof.Machine.execLinkAck port seq det s
  | .linkNak port n remaining => Sys2Proof.Machine.execLinkNak port n remaining s
  | .beat port b => Sys2Proof.Machine.execBeat port b s
  | .stretch port k holder elapsed => Sys2Proof.Machine.execStretch port k holder elapsed s
  | .hold port on holder => Sys2Proof.Machine.execHold port on holder s
  | .limit port k => Sys2Proof.Machine.execLimit port k s
  | .elect port id boundary => Sys2Proof.Machine.execElect port id boundary s
  | .link port m => Sys2Proof.Machine.execLink port m s
  | .lane port lane seq => Sys2Proof.Machine.execLane port lane seq s
  | .mgmt port src dst index total bytes => Sys2Proof.Machine.execMgmt port src dst index total bytes s
  | .laneFail port lanes lockLost => Sys2Proof.Machine.execLaneFail port lanes lockLost s
  | .controlSymbolTimeout port => Sys2Proof.Machine.execControlSymbolTimeout port s
  | .fabricTrainingComplete results => Sys2Proof.Machine.execFabricTrainingComplete results s
  | .delayRemeasure port delta => Sys2Proof.Machine.execDelayRemeasure port delta s
  | .checkPoint => Sys2Proof.Machine.execCheckPoint s
  | .beatAnnounce stretch => Sys2Proof.Machine.execBeatAnnounce stretch s
  | .beatBoundary skew heldFor => Sys2Proof.Machine.execBeatBoundary skew heldFor s
  | .stretchSend elapsed => Sys2Proof.Machine.execStretchSend elapsed s
  | .holdLimitExpiry elapsed => Sys2Proof.Machine.execHoldLimitExpiry elapsed s
  | .electionTimeout => Sys2Proof.Machine.execElectionTimeout s
  | .electionEnd => Sys2Proof.Machine.execElectionEnd s
  | .leaderHandover dest => Sys2Proof.Machine.execLeaderHandover dest s
  | .powerTick t => Sys2Proof.Machine.execPowerTick t s
  | .capFloor => Sys2Proof.Machine.execCapFloor s
  | .measurementWindow m => Sys2Proof.Machine.execMeasurementWindow m s
  | .voltageSettled set => Sys2Proof.Machine.execVoltageSettled set s
  | .droopDetect set => Sys2Proof.Machine.execDroopDetect set s
  | .droopRelease set => Sys2Proof.Machine.execDroopRelease set s
  | .thermalCeilingStep tenth tj hbm => Sys2Proof.Machine.execThermalCeilingStep tenth tj hbm s
  | .thermalTrip sensor reading => Sys2Proof.Machine.execThermalTrip sensor reading s
  | .thermalTripRelease sensor reading => Sys2Proof.Machine.execThermalTripRelease sensor reading s
  | .groupReport => Sys2Proof.Machine.execGroupReport s
  | .groupAllocate => Sys2Proof.Machine.execGroupAllocate s
  | .allocationReceive alloc => Sys2Proof.Machine.execAllocationReceive alloc s
  | .allocationFallback => Sys2Proof.Machine.execAllocationFallback s
  | .inputCharge => Sys2Proof.Machine.execInputCharge s
  | .inputChargeComplete => Sys2Proof.Machine.execInputChargeComplete s
  | .inputOvercurrent => Sys2Proof.Machine.execInputOvercurrent s
  | .inputReverseCurrent => Sys2Proof.Machine.execInputReverseCurrent s
  | .inputOvervoltage => Sys2Proof.Machine.execInputOvervoltage s
  | .inputUndervoltage => Sys2Proof.Machine.execInputUndervoltage s
  | .inputAbsentRelease => Sys2Proof.Machine.execInputAbsentRelease s
  | .submit h w0 body sig => Sys2Proof.Machine.execSubmit h w0 body sig s
  | .loadProgram h body sig => Sys2Proof.Machine.execLoadProgram h body sig s
  | .loadScheduleImage h body sig => Sys2Proof.Machine.execLoadScheduleImage h body sig s
  | .loadTestPack h body sig => Sys2Proof.Machine.execLoadTestPack h body sig s
  | .fence h body => Sys2Proof.Machine.execFence h body s
  | .prefixLookup h body => Sys2Proof.Machine.execPrefixLookup h body s
  | .exportOpen h body => Sys2Proof.Machine.execExportOpen h body s
  | .exportClose h body => Sys2Proof.Machine.execExportClose h body s
  | .exportCloseComplete seq => Sys2Proof.Machine.execExportCloseComplete seq s
  | .testRequestTest h body => Sys2Proof.Machine.execTestRequestTest h body s
  | .testRequestRejoin h body => Sys2Proof.Machine.execTestRequestRejoin h body s
  | .testRequestPort h body => Sys2Proof.Machine.execTestRequestPort h body s
  | .digest h body slip => Sys2Proof.Machine.execDigest h body slip s
  | .queueCtlSet h body => Sys2Proof.Machine.execQueueCtlSet h body s
  | .queueCtlResume h body => Sys2Proof.Machine.execQueueCtlResume h body s
  | .queueCtlEnd h body => Sys2Proof.Machine.execQueueCtlEnd h body s
  | .queueCtlClear h body => Sys2Proof.Machine.execQueueCtlClear h body s
  | .writeMem h body bytes => Sys2Proof.Machine.execWriteMem h body bytes s
  | .readMem h body => Sys2Proof.Machine.execReadMem h body s
  | .regRead h body => Sys2Proof.Machine.execRegRead h body s
  | .regWrite h body => Sys2Proof.Machine.execRegWrite h body s
  | .ack h => Sys2Proof.Machine.execAck h s
  | .cqtAckTimer qid => Sys2Proof.Machine.execCqtAckTimer qid s
  | .cqtRetryTimeout qid psn => Sys2Proof.Machine.execCqtRetryTimeout qid psn s
  | .arpRequest target sender senderMac => Sys2Proof.Machine.execArpRequest target sender senderMac s
  | .neighborSolicitation target sender senderMac => Sys2Proof.Machine.execNeighborSolicitation target sender senderMac s
  | .unsupportedPacket kind => Sys2Proof.Machine.execUnsupportedPacket kind s
  | .roceAck lqpn psn => Sys2Proof.Machine.execRoceAck lqpn psn s
  | .roceNakSequence lqpn psn => Sys2Proof.Machine.execRoceNakSequence lqpn psn s
  | .roceNakRnr lqpn psn timer => Sys2Proof.Machine.execRoceNakRnr lqpn psn timer s
  | .roceNakRemoteError lqpn => Sys2Proof.Machine.execRoceNakRemoteError lqpn s
  | .cnp lqpn => Sys2Proof.Machine.execCnp lqpn s
  | .roceRetryTimeout lqpn => Sys2Proof.Machine.execRoceRetryTimeout lqpn s
  | .rnrTimerExpiry lqpn => Sys2Proof.Machine.execRnrTimerExpiry lqpn s
  | .rateIncrease lqpn => Sys2Proof.Machine.execRateIncrease lqpn s
  | .xltCtxKvbaseWrite p v => Sys2Proof.Machine.execXltCtxKvbaseWrite p v s
  | .xltCtxKvlshWrite p v => Sys2Proof.Machine.execXltCtxKvlshWrite p v s
  | .xltInv p v => Sys2Proof.Machine.execXltInv p v s
  | .xltInvComplete => Sys2Proof.Machine.execXltInvComplete s
  | .xltKvpEnable p v => Sys2Proof.Machine.execXltKvpEnable p v s
  | .xltKvpDisable p v => Sys2Proof.Machine.execXltKvpDisable p v s
  | .poolInitComplete pool => Sys2Proof.Machine.execPoolInitComplete pool s
  | .xltPfxCfgWrite p v => Sys2Proof.Machine.execXltPfxCfgWrite p v s
  | .drop p v => Sys2Proof.Machine.execDrop p v s
  | .release p v => Sys2Proof.Machine.execRelease p v s
  | .xltKvopComplete => Sys2Proof.Machine.execXltKvopComplete s
  | .stmCreditWrite p v => Sys2Proof.Machine.execStmCreditWrite p v s
  | .colCtlWrite p v => Sys2Proof.Machine.execColCtlWrite p v s
  | .errCtlWrite p v => Sys2Proof.Machine.execErrCtlWrite p v s
  | .errRingRetire p v => Sys2Proof.Machine.execErrRingRetire p v s
  | .errDrainReq p v => Sys2Proof.Machine.execErrDrainReq p v s
  | .fabCtlRetrain p v => Sys2Proof.Machine.execFabCtlRetrain p v s
  | .beatCntLoRead p => Sys2Proof.Machine.execBeatCntLoRead p s
  | .pwrEnergyLoRead p total => Sys2Proof.Machine.execPwrEnergyLoRead p total s
  | .pwrCapWrite p v => Sys2Proof.Machine.execPwrCapWrite p v s
  | .pwrGroupWrite p budget v => Sys2Proof.Machine.execPwrGroupWrite p budget v s
  | .pwrSlewWrite p v => Sys2Proof.Machine.execPwrSlewWrite p v s
  | .qceEpData7Commit p v => Sys2Proof.Machine.execQceEpData7Commit p v s
  | .tstCtlWrite p swap v => Sys2Proof.Machine.execTstCtlWrite p swap v s
  | .cfgDone p v => Sys2Proof.Machine.execCfgDone p v s
  | .clearDrain p v => Sys2Proof.Machine.execClearDrain p v s
  | .secSpdmCtlGo p v => Sys2Proof.Machine.execSecSpdmCtlGo p v s
  | .spdmMailboxComplete => Sys2Proof.Machine.execSpdmMailboxComplete s
  | .svcRegisterRead req => Sys2Proof.Machine.execSvcRegisterRead req s
  | .svcRegisterWrite req => Sys2Proof.Machine.execSvcRegisterWrite req s
  | .getVersion c => Sys2Proof.Machine.execGetVersion c s
  | .getCapabilities c => Sys2Proof.Machine.execGetCapabilities c s
  | .negotiateAlgorithms c p384 sha384 => Sys2Proof.Machine.execNegotiateAlgorithms c p384 sha384 s
  | .getDigests c => Sys2Proof.Machine.execGetDigests c s
  | .getCertificate c slot off len => Sys2Proof.Machine.execGetCertificate c slot off len s
  | .challenge c slot nonce => Sys2Proof.Machine.execChallenge c slot nonce s
  | .getMeasurements c index signed nonce => Sys2Proof.Machine.execGetMeasurements c index signed nonce s
  | .setEndpointId eid => Sys2Proof.Machine.execSetEndpointId eid s
  | .getSensorReading sensor => Sys2Proof.Machine.execGetSensorReading sensor s
  | .getStateSensorReadings sensor => Sys2Proof.Machine.execGetStateSensorReadings sensor s
  | .getPdr handle => Sys2Proof.Machine.execGetPdr handle s
  | .queryDeviceIdentifiers => Sys2Proof.Machine.execQueryDeviceIdentifiers s
  | .getFirmwareParameters => Sys2Proof.Machine.execGetFirmwareParameters s
  | .requestUpdate => Sys2Proof.Machine.execRequestUpdate s
  | .passComponentTable components => Sys2Proof.Machine.execPassComponentTable components s
  | .updateComponent component size => Sys2Proof.Machine.execUpdateComponent component size s
  | .firmwareDataReceive bytes inB inA => Sys2Proof.Machine.execFirmwareDataReceive bytes inB inA s
  | .activateFirmware => Sys2Proof.Machine.execActivateFirmware s
  | .getStatus => Sys2Proof.Machine.execGetStatus s
  | .cancelUpdate => Sys2Proof.Machine.execCancelUpdate s
  | .bootRom v => Sys2Proof.Machine.execBootRom v s
  | .bootStage2 v w => Sys2Proof.Machine.execBootStage2 v w s
  | .bootReady tReady => Sys2Proof.Machine.execBootReady tReady s
  | .hostPortRetry trained => Sys2Proof.Machine.execHostPortRetry trained s
  | .rotationDue set => Sys2Proof.Machine.execRotationDue set s
  | .testCaseRun site outcome => Sys2Proof.Machine.execTestCaseRun site outcome s
  | .testCaseLimit site => Sys2Proof.Machine.execTestCaseLimit site s
  | .testEnd site => Sys2Proof.Machine.execTestEnd site s
  | .xltCtxRootWrite p v => Sys2Proof.Machine.execXltCtxRootWrite p v s
  | .cqtReservedType h type => Sys2Proof.Machine.execCqtReservedType h type s
  | .svc3v3Loss => Sys2Proof.Machine.execSvc3v3Loss s
  | .svc3v3Return => Sys2Proof.Machine.execSvc3v3Return s
  | .controlSymbolSend port => Sys2Proof.Machine.execControlSymbolSend port s
  | .operatingSecond flashOk => Sys2Proof.Machine.execOperatingSecond flashOk s
  | .dynamicAddressAssignment addr => Sys2Proof.Machine.execDynamicAddressAssignment addr s

end Sys2Proof.Machine
end

