-- ==== Sys2Proof/WellFormed.lean ====
section
/-!
DEFINITION. Which commands can be sent: fields that the loader, a packet's layout or a unit's size rules out.
-/

namespace Sys2Proof

/-- A granule of the operand store is one of its 49,152 (03 R70). -/
def Detection.wellFormed (d : Detection) : Bool :=
  match d.kind with
  | .lostGranule g _ => decide (g.toNat < 49152)
  | _ => true

def CopyFault.wellFormed : CopyFault → Bool
  | .granule g _ => decide (g.toNat < 49152)
  | _ => true

def Ih.wellFormed (h : Ih) : Bool := h.det.all (·.wellFormed)

/-- The header of a core instruction; none for every other command. -/
def Instr.header : Instr → Option Ih
  | .nop h => some h
  | .add h _ _ _ => some h
  | .sub h _ _ _ => some h
  | .mul h _ _ _ => some h
  | .and h _ _ _ => some h
  | .or h _ _ _ => some h
  | .xor h _ _ _ => some h
  | .shl h _ _ _ => some h
  | .shr h _ _ _ => some h
  | .sra h _ _ _ => some h
  | .min h _ _ _ => some h
  | .minu h _ _ _ => some h
  | .max h _ _ _ => some h
  | .maxu h _ _ _ => some h
  | .slt h _ _ _ => some h
  | .sltu h _ _ _ => some h
  | .addi h _ _ _ => some h
  | .muli h _ _ _ => some h
  | .andi h _ _ _ => some h
  | .ori h _ _ _ => some h
  | .adda h _ _ _ _ => some h
  | .addah h _ _ _ _ => some h
  | .movsa h _ _ _ => some h
  | .ldo h _ _ _ => some h
  | .sto h _ _ _ => some h
  | .dld h _ _ _ => some h
  | .dst h _ _ _ => some h
  | .dbind h _ _ _ => some h
  | .br h _ _ => some h
  | .rdflg h _ _ => some h
  | .endProgram h => some h
  | .mma h _ _ _ _ _ _ => some h
  | .attn h _ _ _ _ _ _ => some h
  | .epi h _ _ _ _ => some h
  | .accinit h _ _ => some h
  | .vprog h _ _ _ _ _ => some h
  | .vred h _ _ _ _ => some h
  | .vld h _ _ _ _ _ => some h
  | .vst h _ _ _ _ _ => some h
  | .vcvt h _ _ _ _ => some h
  | .vaccr h _ _ _ _ => some h
  | .vaccw h _ _ _ _ => some h
  | .vmov h _ _ => some h
  | .vfill h _ _ => some h
  | .sarm h _ _ => some h
  | .sexp h _ => some h
  | .tsig h _ _ => some h
  | .twait h _ _ => some h
  | .waitbeat h _ _ => some h
  | .beatmark h _ _ => some h
  | .coll h _ => some h
  | .lbar h => some h
  | _ => none

/-- The instruction without the detections that meet it: what its word says. -/
def Instr.clean : Instr → Instr
  | .nop h => .nop { h with det := [] }
  | .add h x1 x2 x3 => .add { h with det := [] } x1 x2 x3
  | .sub h x1 x2 x3 => .sub { h with det := [] } x1 x2 x3
  | .mul h x1 x2 x3 => .mul { h with det := [] } x1 x2 x3
  | .and h x1 x2 x3 => .and { h with det := [] } x1 x2 x3
  | .or h x1 x2 x3 => .or { h with det := [] } x1 x2 x3
  | .xor h x1 x2 x3 => .xor { h with det := [] } x1 x2 x3
  | .shl h x1 x2 x3 => .shl { h with det := [] } x1 x2 x3
  | .shr h x1 x2 x3 => .shr { h with det := [] } x1 x2 x3
  | .sra h x1 x2 x3 => .sra { h with det := [] } x1 x2 x3
  | .min h x1 x2 x3 => .min { h with det := [] } x1 x2 x3
  | .minu h x1 x2 x3 => .minu { h with det := [] } x1 x2 x3
  | .max h x1 x2 x3 => .max { h with det := [] } x1 x2 x3
  | .maxu h x1 x2 x3 => .maxu { h with det := [] } x1 x2 x3
  | .slt h x1 x2 x3 => .slt { h with det := [] } x1 x2 x3
  | .sltu h x1 x2 x3 => .sltu { h with det := [] } x1 x2 x3
  | .addi h x1 x2 x3 => .addi { h with det := [] } x1 x2 x3
  | .muli h x1 x2 x3 => .muli { h with det := [] } x1 x2 x3
  | .andi h x1 x2 x3 => .andi { h with det := [] } x1 x2 x3
  | .ori h x1 x2 x3 => .ori { h with det := [] } x1 x2 x3
  | .adda h x1 x2 x3 x4 => .adda { h with det := [] } x1 x2 x3 x4
  | .addah h x1 x2 x3 x4 => .addah { h with det := [] } x1 x2 x3 x4
  | .movsa h x1 x2 x3 => .movsa { h with det := [] } x1 x2 x3
  | .ldo h x1 x2 x3 => .ldo { h with det := [] } x1 x2 x3
  | .sto h x1 x2 x3 => .sto { h with det := [] } x1 x2 x3
  | .dld h x1 x2 x3 => .dld { h with det := [] } x1 x2 x3
  | .dst h x1 x2 x3 => .dst { h with det := [] } x1 x2 x3
  | .dbind h x1 x2 x3 => .dbind { h with det := [] } x1 x2 x3
  | .br h x1 x2 => .br { h with det := [] } x1 x2
  | .rdflg h x1 x2 => .rdflg { h with det := [] } x1 x2
  | .endProgram h => .endProgram { h with det := [] }
  | .mma h x1 x2 x3 x4 x5 x6 => .mma { h with det := [] } x1 x2 x3 x4 x5 x6
  | .attn h x1 x2 x3 x4 x5 x6 => .attn { h with det := [] } x1 x2 x3 x4 x5 x6
  | .epi h x1 x2 x3 x4 => .epi { h with det := [] } x1 x2 x3 x4
  | .accinit h x1 x2 => .accinit { h with det := [] } x1 x2
  | .vprog h x1 x2 x3 x4 x5 => .vprog { h with det := [] } x1 x2 x3 x4 x5
  | .vred h x1 x2 x3 x4 => .vred { h with det := [] } x1 x2 x3 x4
  | .vld h x1 x2 x3 x4 x5 => .vld { h with det := [] } x1 x2 x3 x4 x5
  | .vst h x1 x2 x3 x4 x5 => .vst { h with det := [] } x1 x2 x3 x4 x5
  | .vcvt h x1 x2 x3 x4 => .vcvt { h with det := [] } x1 x2 x3 x4
  | .vaccr h x1 x2 x3 x4 => .vaccr { h with det := [] } x1 x2 x3 x4
  | .vaccw h x1 x2 x3 x4 => .vaccw { h with det := [] } x1 x2 x3 x4
  | .vmov h x1 x2 => .vmov { h with det := [] } x1 x2
  | .vfill h x1 x2 => .vfill { h with det := [] } x1 x2
  | .sarm h x1 x2 => .sarm { h with det := [] } x1 x2
  | .sexp h x1 => .sexp { h with det := [] } x1
  | .tsig h x1 x2 => .tsig { h with det := [] } x1 x2
  | .twait h x1 x2 => .twait { h with det := [] } x1 x2
  | .waitbeat h x1 x2 => .waitbeat { h with det := [] } x1 x2
  | .beatmark h x1 x2 => .beatmark { h with det := [] } x1 x2
  | .coll h x1 => .coll { h with det := [] } x1
  | .lbar h => .lbar { h with det := [] }
  | i => i

/-- The checks: 04 R109 and R130 (EPI), 08 R220 (a burst), 08 R245 (a request), 08 R227 (four bursts a line), 12 R357 (a chunk), 11 R313 (a flit),
11 R317 (MGMT), 11 R312 (six ports), 16 R465 and R472 (sets, stacks), 13 R372 (reserved types), 17 R502 (nonces), 03 R70 (granules). -/
def Instr.wellFormed : Instr → Bool
  | .nop h => h.wellFormed
  | .add h _ _ _ => h.wellFormed
  | .sub h _ _ _ => h.wellFormed
  | .mul h _ _ _ => h.wellFormed
  | .and h _ _ _ => h.wellFormed
  | .or h _ _ _ => h.wellFormed
  | .xor h _ _ _ => h.wellFormed
  | .shl h _ _ _ => h.wellFormed
  | .shr h _ _ _ => h.wellFormed
  | .sra h _ _ _ => h.wellFormed
  | .min h _ _ _ => h.wellFormed
  | .minu h _ _ _ => h.wellFormed
  | .max h _ _ _ => h.wellFormed
  | .maxu h _ _ _ => h.wellFormed
  | .slt h _ _ _ => h.wellFormed
  | .sltu h _ _ _ => h.wellFormed
  | .addi h _ _ _ => h.wellFormed
  | .muli h _ _ _ => h.wellFormed
  | .andi h _ _ _ => h.wellFormed
  | .ori h _ _ _ => h.wellFormed
  | .adda h _ _ _ _ => h.wellFormed
  | .addah h _ _ _ _ => h.wellFormed
  | .movsa h _ _ _ => h.wellFormed
  | .ldo h _ _ _ => h.wellFormed
  | .sto h _ _ _ => h.wellFormed
  | .dld h _ _ _ => h.wellFormed
  | .dst h _ _ _ => h.wellFormed
  | .dbind h _ _ _ => h.wellFormed
  | .br h _ _ => h.wellFormed
  | .rdflg h _ _ => h.wellFormed
  | .endProgram h => h.wellFormed
  | .mma h _ _ _ _ _ _ => h.wellFormed
  | .attn h _ _ _ _ _ _ => h.wellFormed
  | .epi h _ _ b t => h.wellFormed && decide (b.toNat + t.toNat ≤ 7)
  | .accinit h _ _ => h.wellFormed
  | .vprog h _ _ _ _ _ => h.wellFormed
  | .vred h _ _ _ _ => h.wellFormed
  | .vld h _ _ _ _ _ => h.wellFormed
  | .vst h _ _ _ _ _ => h.wellFormed
  | .vcvt h _ _ _ _ => h.wellFormed
  | .vaccr h _ _ _ _ => h.wellFormed
  | .vaccw h _ _ _ _ => h.wellFormed
  | .vmov h _ _ => h.wellFormed
  | .vfill h _ _ => h.wellFormed
  | .sarm h _ _ => h.wellFormed
  | .sexp h _ => h.wellFormed
  | .tsig h _ _ => h.wellFormed
  | .twait h _ _ => h.wellFormed
  | .waitbeat h _ _ => h.wellFormed
  | .beatmark h _ _ => h.wellFormed
  | .coll h _ => h.wellFormed
  | .lbar h => h.wellFormed
  | .unitInstructionBegin _ _ det => det.all (·.wellFormed)
  | .remoteStreamArrival _ _ _ _ _ bytes _ _ => decide (bytes.length ≤ 256)
  | .hbmWrite pa bytes _ _ => decide (1 ≤ bytes.length ∧ pa.toNat % 32 + bytes.length ≤ 32)
  | .cacheAccess _ _ _ _ parity _ => match parity with | some b => b.length == 4 | none => true
  | .takeoverCopyComplete _ bad => bad.all (·.wellFormed)
  | .collChunkArrival _ _ _ _ _ _ data _ => decide (data.length ≤ 256)
  | .flitReceive _ bytes => bytes.length == 272
  | .mgmt _ _ _ index total bytes => decide (index ≤ total) && decide (total < 8) && bytes.length == 8
  | .fabricTrainingComplete results => results.length == 6
  | .powerTick t => t.raw.length == 8 && t.raised.length == 8 && t.activity.length == 8 && t.slot.length == 8
  | .thermalCeilingStep _ tj hbm => tj.length == 8 && hbm.length == 4
  | .challenge _ _ nonce => nonce.length == 32
  | .getMeasurements _ _ signed nonce => nonce.length == if signed then 32 else 0
  | .cqtReservedType _ t => !([1, 2, 3, 4, 5, 15].contains t.toNat)
  | .instructionComplete .. | .waitLimitExpiry .. | .beatRangeExpiry | .exportPageSend .. | .streamStart ..
  | .remoteStreamStart .. | .streamDone .. | .tableWalkComplete .. | .hbmRead .. | .granuleRetireComplete ..
  | .cacheWayHandover .. | .shadowCompare .. | .launch .. | .launchAccept .. | .launchResident | .launchSaveComplete
  | .launchRestoreComplete | .launchBarrierComplete .. | .launchBarrierTimeout | .launchStart | .countPhaseEntry ..
  | .collComplete .. | .collDeadlineExpiry .. | .collAbortReceive .. | .linkAck .. | .linkNak .. | .beat .. | .stretch ..
  | .hold .. | .limit .. | .elect .. | .link .. | .lane .. | .laneFail .. | .controlSymbolTimeout .. | .delayRemeasure ..
  | .checkPoint | .beatAnnounce .. | .beatBoundary .. | .stretchSend .. | .holdLimitExpiry .. | .electionTimeout | .electionEnd
  | .leaderHandover .. | .capFloor | .measurementWindow .. | .voltageSettled .. | .droopDetect .. | .droopRelease ..
  | .thermalTrip .. | .thermalTripRelease .. | .groupReport | .groupAllocate | .allocationReceive .. | .allocationFallback
  | .inputCharge | .inputChargeComplete | .inputOvercurrent | .inputReverseCurrent | .inputOvervoltage | .inputUndervoltage
  | .inputAbsentRelease | .submit .. | .loadProgram .. | .loadScheduleImage .. | .loadTestPack .. | .fence ..
  | .prefixLookup .. | .exportOpen .. | .exportClose .. | .exportCloseComplete .. | .testRequestTest ..
  | .testRequestRejoin .. | .testRequestPort .. | .digest .. | .queueCtlSet .. | .queueCtlResume .. | .queueCtlEnd ..
  | .queueCtlClear .. | .writeMem .. | .readMem .. | .regRead .. | .regWrite .. | .ack .. | .cqtAckTimer ..
  | .cqtRetryTimeout .. | .arpRequest .. | .neighborSolicitation .. | .unsupportedPacket .. | .roceAck ..
  | .roceNakSequence .. | .roceNakRnr .. | .roceNakRemoteError .. | .cnp .. | .roceRetryTimeout .. | .rnrTimerExpiry ..
  | .rateIncrease .. | .xltCtxKvbaseWrite .. | .xltCtxKvlshWrite .. | .xltInv .. | .xltInvComplete | .xltKvpEnable ..
  | .xltKvpDisable .. | .poolInitComplete .. | .xltPfxCfgWrite .. | .drop .. | .release .. | .xltKvopComplete
  | .stmCreditWrite .. | .colCtlWrite .. | .errCtlWrite .. | .errRingRetire .. | .errDrainReq .. | .fabCtlRetrain ..
  | .beatCntLoRead .. | .pwrEnergyLoRead .. | .pwrCapWrite .. | .pwrGroupWrite .. | .pwrSlewWrite .. | .qceEpData7Commit ..
  | .tstCtlWrite .. | .cfgDone .. | .clearDrain .. | .secSpdmCtlGo .. | .spdmMailboxComplete | .svcRegisterRead ..
  | .svcRegisterWrite .. | .getVersion .. | .getCapabilities .. | .negotiateAlgorithms .. | .getDigests ..
  | .getCertificate .. | .setEndpointId .. | .getSensorReading .. | .getStateSensorReadings .. | .getPdr ..
  | .queryDeviceIdentifiers | .getFirmwareParameters | .requestUpdate | .passComponentTable .. | .updateComponent ..
  | .firmwareDataReceive .. | .activateFirmware | .getStatus | .cancelUpdate | .bootRom .. | .bootStage2 .. | .bootReady ..
  | .hostPortRetry .. | .rotationDue .. | .testCaseRun .. | .testCaseLimit .. | .testEnd .. | .xltCtxRootWrite ..
  | .svc3v3Loss | .svc3v3Return | .controlSymbolSend .. | .operatingSecond .. | .dynamicAddressAssignment .. => true

end Sys2Proof
end

