-- ==== Sys2Proof/Safety.lean ====
section
/-!
DEFINITION. What counts as a safe run, and the conditions that the statements put on states: a quiet machine, a core that may
issue, the invariant of the tables, and what a core instruction's own effect is.
-/

namespace Sys2Proof.Machine

/-! ### Runs -/

/-- A step that answers a next state: nothing stopped the model. -/
def safeStep (s : State) : Prop := ∃ t, step s = .next t

/-- Every command in the queue can be carried out, one after the other. -/
def safeRun : Nat → State → Prop
  | 0, _ => True
  | n + 1, s => ∃ t, step s = .next t ∧ safeRun n t

/-! ### A machine with nothing of its own left to do (04 R110, R135, 11 R327, 13 R392, 15 R443) -/

/-- No queue has a message that may begin, no boundary is late or held, no launch is over or must leave the cores, and no test
waits for its moment. -/
def State.quiet (s : State) : Bool :=
  s.nextQueue.isNone && s.fab.announced.all (fun a => !a.due) && s.lowestHolder.isNone && s.asserted.isEmpty &&
    (match s.running with
     | some l => ((List.range 64).any fun c => !(s.core c).ended) || s.err.shadows.any fun x => x.qid == l.qid
     | none => true) &&
    (match s.resident with
     | some l => !l.isHalted
     | none => true) &&
    s.tst.requests.isEmpty && s.tst.ports.isEmpty && (!s.launches.isEmpty || s.tst.due == 0)

/-! ### A core that may issue (04 R100, R112, R115) -/

/-- A SEQ instruction with this header executes now: its launch runs, its token is there, no detection meets it, and its
signal has room (04 R112). -/
def State.seqReady (s : State) (h : Ih) (l : Launch) : Prop :=
  s.canIssue h.core.val = some l ∧ (s.core h.core.val).tokOk h.wt = true ∧ h.det = [] ∧
    ∀ t, h.sg = some t → (((s.core h.core.val).takeTok h.wt).tok t).toNat < 65535

/-- Add the signal of an instruction that completes (04 R112). -/
def Core.giveTok (k : Core) (t : Option (Fin 16)) : Core :=
  match t with
  | some t => k.setTok t (.ofNat 16 ((k.tok t).toNat + 1))
  | none => k

/-- The core as a SEQ instruction sees it: its token taken, its pc advanced (04 R100, R112). -/
def Core.seqStart (k : Core) (h : Ih) : Core := { k.takeTok h.wt with seqWait := none, pc := k.pc + 8 }

/-- Only this core changes, and so. -/
def State.onlyCore (s t : State) (c : Nat) (k : Core) : Prop :=
  t = { s with cores := t.cores } ∧ t.core c = k ∧ ∀ i, i ≠ c → t.core i = s.core i

/-! ### A unit instruction that issues (04 R100, R101, R112) -/

/-- The instruction as it enters its unit's queue: its operands are read at issue. -/
def State.issued (s : State) (h : Ih) (bits : Dword) (op : Core → UOp) : Issued :=
  let k := s.core h.core.val
  { serial := k.serialNo, pc := k.pc, bits := bits, op := op k, wt := h.wt, sg := h.sg, det := h.det }

/-- The state after issue: the instruction stands at the tail of its unit's queue, and the pc has advanced. -/
def State.queuedState (s : State) (h : Ih) (bits : Dword) (u : CUnit) (op : Core → UOp) : State :=
  let k := s.core h.core.val
  s.setCore h.core.val { k.setUnitQ u (k.unitQ u ++ [s.issued h bits op]) with pc := k.pc + 8, serialNo := k.serialNo + 1 }

/-- The state in which the instruction begins: it has left the queue with its token. -/
def State.begunState (s : State) (h : Ih) (bits : Dword) (u : CUnit) (op : Core → UOp) : State :=
  (s.queuedState h bits u op).modCore h.core.val fun k => (k.takeTok h.wt).setUnitQ u []

/-- The unit instruction waits behind others in its unit's queue. -/
def State.unitWaits (s : State) (h : Ih) (u : CUnit) (l : Launch) : Prop :=
  s.canIssue h.core.val = some l ∧ (s.core h.core.val).unitQ u ≠ [] ∧ ((s.core h.core.val).unitQ u).length < 16

/-- The unit instruction begins as it issues: it is alone in its queue, its wait has ended, no interlock holds it, and no
detection meets it. -/
def State.unitBegins (s : State) (h : Ih) (bits : Dword) (u : CUnit) (op : Core → UOp) (l : Launch) : Prop :=
  s.canIssue h.core.val = some l ∧ (s.core h.core.val).unitQ u = [] ∧ h.det = [] ∧
    (s.queuedState h bits u op).headReady ((s.queuedState h bits u op).core h.core.val) (s.issued h bits op) = true ∧
    ((s.queuedState h bits u op).core h.core.val).interlockOk (s.issued h bits op) = true

/-- The core as a unit instruction that begins leaves it, before its effect: its token taken, its pc and its issue count
advanced. -/
def Core.unitStart (k : Core) (h : Ih) : Core := { k.takeTok h.wt with pc := k.pc + 8, serialNo := k.serialNo + 1 }

/-- The instruction flies: what its unit answers stands in the state, and it completes later (04 R113). -/
def Began.flies (b : Began) (c : Nat) (u : CUnit) (i : Issued) : State :=
  b.s.modCore c fun k =>
    { k with flight := k.flight ++ [{ ins := i, unit := u, flags := b.flags, marks := b.marks, haltedAt := b.haltedAt,
                                      redo := b.redo, trap := b.trap }] }

/-- A signal of this core has room (04 R112). -/
def Core.sigRoom (k : Core) (t : Option (Fin 16)) : Prop := ∀ x, t = some x → (k.tok x).toNat < 65535

/-- The core with an instruction that flies and says no more than that. -/
def Core.flying (k : Core) (i : Issued) (u : CUnit) : Core := { k with flight := k.flight ++ [{ ins := i, unit := u }] }

/-- Only this core changes, and the busy count of its physical core: a VEC instruction of four groups (07 R216). -/
def State.onlyVec (s t : State) (c : Nat) (k : Core) : Prop :=
  t = { s with cores := t.cores, pcores := (s.vecGroups c 4).pcores } ∧ t.core c = k ∧ ∀ i, i ≠ c → t.core i = s.core i

/-! ### How a command ends -/

/-- The state in which a command ends whose effect on `s` is `u`: what the effect let go on has gone on (13 R392, 04 R110,
R135, 11 R327, 15 R443), a device that lost a structure of its own drains (14 R409), and stream bytes that left are in flits (11
R313). -/
def State.after (s u : State) : State := (s.ownedDrain u.settle).sendFlits s.out.length

/-- Nothing goes on after this effect: it leaves a quiet machine that lost no structure of its own, and what left holds no stream
bytes. -/
def State.still (s u : State) : Prop :=
  u.quiet = true ∧ u.hbm.ownedLost = s.hbm.ownedLost ∧ ∃ o, u.out = s.out ++ o ∧ ∀ x ∈ o, (match x with | Out.remote .. => false | _ => true) = true

/-! ### A message that comes alone (13 R371-R376, R392) -/

/-- A packet of this header with a message of `n` bytes is the next one of its queue: it is addressed to the device, which takes it, its
reserved bits are 0 and its length is its message's, nothing on the queue is outstanding or in progress, its queue has no error, no COMPLETION waits for
EVENTs, and no other queue has a message that may begin. -/
def State.awaits (s : State) (h : Hdr) (n : Nat) : Prop :=
  let q := s.queue h.qid
  s.addressed h = true ∧ s.takes h = true ∧ h.res0 = 0 ∧ h.res5 = 0 ∧ h.res7 = 0 ∧ h.length.toNat = n ∧ h.psn = q.rxPsn ∧
    (h.psn - q.devCred).toInt ≤ 0 ∧ q.sent = [] ∧ q.txWait = [] ∧ q.rxAhead = [] ∧ q.waiting = [] ∧ q.cur = none ∧ q.err = false ∧
    q.blocked = false ∧ s.heldQueues = [] ∧ s.nextQueue = none

/-- The state in which its message is carried out: its acknowledgement and credit are taken, and it has left the queue's order. -/
def State.taken (s : State) (h : Hdr) : State :=
  (s.useEntry h.qid).modQueue h.qid fun q => { q with hostCred := h.credLimit, needAck := true, rxPsn := q.rxPsn + 1 }

/-- The command carries the message out at once: the state `e` that its effect leaves, then its COMPLETION, and nothing goes on. (A message that
reaches a granule under retirement waits instead: 08 R222.) -/
def State.answersWith (s : State) (h : Hdr) (run : Host.Outcome State Fault Refusal) (cmd type : Nat) (e : State) (r : CmdFail) (data : List Byte) :
    Prop :=
  let v := e.complete h.qid h.cookie { cmd := cmd, type := type, code := r.1, result := r.2, data := data }
  r.1 ≠ heldCode → s.still v → run = .next v

/-- The same for a message that stays in progress: what it let begin has begun. -/
def State.beginsWith (s : State) (h : Hdr) (run : Host.Outcome State Fault Refusal) (m : HostMsg) (e : State) (p : InProgress) : Prop :=
  let v := e.modQueue h.qid fun q => { q with cur := some ({ psn := h.psn, cookie := h.cookie, overrun := false, formed := true, msg := m }, p) }
  v.nextQueue = none → v.goesOnOnce.nextQueue = none → run = .next ((s.ownedDrain v.goesOnOnce).sendFlits s.out.length)

/-! ### Training begins (00 R8, 11 R312) -/

/-- Training has begun in `t` under FAB_COORD of `s`: a coordinate within its shape gives the device its id, and each axis longer than 2
trains both its ports, one of length 2 the + port of coordinate 0 and the - port of coordinate 1; a coordinate outside its shape gives
no id and trains no port. A port that the shape does not use reports unused. -/
def State.trainingBegun (s t : State) : Prop :=
  let w := s.fab.coord
  let side (p : Fin 6) : Nat := coordSide w (portAxis p)
  let place (p : Fin 6) : Nat := coordOf w (portAxis p)
  t.fab.trained = some w ∧ t.fab.retraining = true ∧ t.fab.announced = [] ∧
    ((∀ a, coordOf w a < coordSide w a) → t.devidValid = true ∧ t.devid = .ofNat 12 (coordOf w .x + 16 * coordOf w .y + 256 * coordOf w .z) ∧
      ∀ p, (t.port p).state = if 2 < side p ∨ (side p = 2 ∧ place p = p.val % 2) then .training else .unused) ∧
    ((∃ a, coordSide w a ≤ coordOf w a) → t.devidValid = false ∧ ∀ p, (t.port p).state = if side p = 1 then .unused else .down)

/-! ### The canonical form of the tables -/

/-- Memory and every core's own tables are in canonical form (INVENTORY.md, State). -/
def Core.wf (k : Core) : Bool :=
  swf 0 k.s && swf 0 k.a && swf 0 k.tile && swf 0 k.k && swf 0 k.d && swf 0 k.ost && swf 0 k.dsc && swf 0 k.acc && swf 0 k.sr

def State.wf (s : State) : Bool := Memory.wf s.hbm && swf {} s.cores && s.cores.all fun e => e.2.wf

end Sys2Proof.Machine
end

