-- ==== Sys2Proof/Certificates/Slice0/Obligations.lean ====
section
/-!
DEFINITION. The statements for the provers. `k.seqStart h`, `k.unitStart h` and the like are the shared words of Safety.lean; a statement that ends in
`s.after u` says that the command's own effect is `u` and that what `u` let go on then goes on.
-/

open Sys2Proof Sys2Proof.Machine

/-! ### The queue of commands, and the encoding of core instructions -/

/-- A step takes the command at the front of the queue and is its effect on the rest; with nothing to do the block idles (entry 5 of
the log: the idle step is the model's choice). -/
def Obligations.StepRunsFront : Prop :=
  (∀ (c : Instr) (rest : List Instr) (s : State),
    step { s with pending := c :: rest } = exec c { s with pending := rest }) ∧
  (∀ s : State, s.pending = [] → step s = .next s)

/-- 04 R104-R109: decoding the word of a well-formed core instruction gives it back, with every operand; its detections are no part
of a word. -/
def Obligations.DecodeEncode : Prop :=
  ∀ (i : Instr) (w : BitVec 64), i.wellFormed = true → encodeCore i = some w →
    ∃ h, i.header = some h ∧ decodeCore h.core w = some i.clean

/-- The words that the manual writes out for the three forms of the MMA, and a reserved operation (04, example of R127; R106). -/
def Obligations.MmaWords : Prop :=
  let h (wt sg : Option (Fin 16)) : Ih := ⟨0, wt, sg, []⟩
  decodeCore 0 0x2090066000000000 = some (.mma (h (some 2) none) 3 6 0 0 0 0) ∧
  decodeCore 0 0x2000066000000000 = some (.mma (h none none) 3 6 0 0 0 0) ∧
  decodeCore 0 0x2005C66000000000 = some (.mma (h none (some 7)) 3 6 0 0 0 0) ∧
  decodeCore 0 0x1F00000000000000 = none

/-! ### Reset -/

/-- Values that registers read as right after reset, where the rules give them (11 R340, 13 R403, 08 R250, 16 R485, 15 R460, 14 R432), and
every table in canonical form. -/
def Obligations.ResetValues : Prop :=
  (∀ p : Path, State.reset.regValue p .glbId = 0x64004A00 ∧ State.reset.regValue p .qceNetCtl = 0x0000BA5E ∧
    State.reset.regValue p .qceEvq = 0x80000000 ∧ State.reset.regValue p .stmCredit = State.reset.regValue .service .stmCredit ∧
    State.reset.stm.read = 55 ∧ State.reset.stm.write = 30 ∧ State.reset.stm.remote = 15 ∧ State.reset.pwr.cap = 1600 ∧
    State.reset.pwr.ramp = 50 ∧ State.reset.fab.cnt = 0 ∧ State.reset.tst.interval = 0x384 ∧ State.reset.err.ring = []) ∧
  (State.reset.wf = true)

/-- 13 R378: "At boot, queue 0 is valid and privileged, and bound to endpoint 0", and every other queue is invalid. -/
def Obligations.ResetQueues : Prop :=
  (State.reset.queue 0).valid = true ∧ (State.reset.queue 0).priv = true ∧ (State.reset.queue 0).endpoint = 0 ∧
    ∀ q, q ≠ 0 → (State.reset.queue q).valid = false

/-! ### SEQ instructions -/

/-- 04 R106: the scalar and address instructions. Each writes its result to its destination, advances the pc past itself and signals its token;
a write to s0 is ignored (04 R102). Nothing else of the machine changes. -/
def Obligations.ScalarResults : Prop :=
  (∀ (s : State) (h : Ih) (l : Launch) (rd a b : BitVec 5) (imm : Word), s.seqReady h l →
    let k := s.core h.core.val
    let gives (i : Instr) (v : Word) : Prop :=
      ∃ t, exec i s = .next t ∧ s.onlyCore t h.core.val (((k.seqStart h).setS rd v).giveTok h.sg)
    gives (.add h rd a b) (k.rs a + k.rs b) ∧ gives (.sub h rd a b) (k.rs a - k.rs b) ∧ gives (.mul h rd a b) (k.rs a * k.rs b) ∧
    gives (.and h rd a b) (k.rs a &&& k.rs b) ∧ gives (.or h rd a b) (k.rs a ||| k.rs b) ∧ gives (.xor h rd a b) (k.rs a ^^^ k.rs b) ∧
    gives (.shl h rd a b) (k.rs a <<< ((k.rs b).toNat % 32)) ∧ gives (.shr h rd a b) (k.rs a >>> ((k.rs b).toNat % 32)) ∧
    gives (.sra h rd a b) ((k.rs a).sshiftRight ((k.rs b).toNat % 32)) ∧
    gives (.min h rd a b) (if (k.rs a).toInt ≤ (k.rs b).toInt then k.rs a else k.rs b) ∧
    gives (.minu h rd a b) (if (k.rs a).toNat ≤ (k.rs b).toNat then k.rs a else k.rs b) ∧
    gives (.max h rd a b) (if (k.rs a).toInt ≤ (k.rs b).toInt then k.rs b else k.rs a) ∧
    gives (.maxu h rd a b) (if (k.rs a).toNat ≤ (k.rs b).toNat then k.rs b else k.rs a) ∧
    gives (.slt h rd a b) (if (k.rs a).toInt < (k.rs b).toInt then 1 else 0) ∧
    gives (.sltu h rd a b) (if (k.rs a).toNat < (k.rs b).toNat then 1 else 0) ∧
    gives (.addi h rd a imm) (k.rs a + imm) ∧ gives (.muli h rd a imm) (k.rs a * imm) ∧
    gives (.andi h rd a imm) (k.rs a &&& imm) ∧ gives (.ori h rd a imm) (k.rs a ||| imm)) ∧
  (∀ (s : State) (h : Ih) (l : Launch) (ad asrc : BitVec 4) (rd rs : BitVec 5) (imm : Word) (hi : Bool), s.seqReady h l →
    let k := s.core h.core.val
    let gives (i : Instr) (k' : Core) : Prop := ∃ t, exec i s = .next t ∧ s.onlyCore t h.core.val (k'.giveTok h.sg)
    gives (.nop h) (k.seqStart h) ∧
    gives (.adda h ad asrc rs imm) ((k.seqStart h).setA ad (k.ra asrc + imm.signExtend 64 + (k.rs rs).setWidth 64)) ∧
    gives (.addah h ad asrc rs imm)
      ((k.seqStart h).setA ad (k.ra asrc + (((k.rs rs).setWidth 64 + imm.setWidth 64) <<< 32))) ∧
    gives (.movsa h rd asrc hi)
      ((k.seqStart h).setS rd (if hi then (k.ra asrc).extractLsb' 32 32 else (k.ra asrc).extractLsb' 0 32)))

/-- The frame of the scalar and address instructions: beside rd (or ad), the pc and the two token counters that the instruction waits on
and signals, nothing of the core changes, and nothing outside it: no store, no accumulator, no flag, no descriptor, no byte of memory. -/
def Obligations.ScalarFrame : Prop :=
  ∀ (s t : State) (h : Ih) (l : Launch) (rd a b : BitVec 5) (imm : Word), s.seqReady h l →
    (exec (.add h rd a b) s = .next t ∨ exec (.sub h rd a b) s = .next t ∨ exec (.mul h rd a b) s = .next t ∨
      exec (.and h rd a b) s = .next t ∨ exec (.or h rd a b) s = .next t ∨ exec (.xor h rd a b) s = .next t ∨
      exec (.shl h rd a b) s = .next t ∨ exec (.shr h rd a b) s = .next t ∨ exec (.sra h rd a b) s = .next t ∨
      exec (.min h rd a b) s = .next t ∨ exec (.minu h rd a b) s = .next t ∨ exec (.max h rd a b) s = .next t ∨
      exec (.maxu h rd a b) s = .next t ∨ exec (.slt h rd a b) s = .next t ∨ exec (.sltu h rd a b) s = .next t ∨
      exec (.addi h rd a imm) s = .next t ∨ exec (.muli h rd a imm) s = .next t ∨ exec (.andi h rd a imm) s = .next t ∨
      exec (.ori h rd a imm) s = .next t) →
    let k := s.core h.core.val
    let k' := t.core h.core.val
    t = { s with cores := t.cores } ∧ (∀ c, c ≠ h.core.val → t.core c = s.core c) ∧
    (∀ r, r ≠ rd → k'.rs r = k.rs r) ∧ k'.rs 0 = 0 ∧ (∀ r, k'.ra r = k.ra r) ∧ (∀ x, h.wt ≠ some x → h.sg ≠ some x → k'.tok x = k.tok x) ∧
    k'.pc = k.pc + 8 ∧ k'.flags = k.flags ∧ k'.obligation = k.obligation ∧ k'.tile = k.tile ∧ k'.acc = k.acc ∧ k'.accI32 = k.accI32 ∧
    k'.ost = k.ost ∧ k'.dsc = k.dsc ∧ k'.d = k.d ∧ k'.sr = k.sr ∧ k'.flight = k.flight ∧ k'.eng = k.eng ∧
    ∀ a n, t.hbm.read a n = s.hbm.read a n

/-- 04 R108: LDO, STO and DLD move a 32-bit word of the operand or descriptor store. STO changes the four bytes of its word and no other. An
offset that is no multiple of 4 or lies outside its store, and a DST to lines 0 and 1, stop the queue with E_LOCAL_BOUND before any write: the
state that the stop meets is the one the instruction met. -/
def Obligations.LocalWords : Prop :=
  (∀ (s : State) (h : Ih) (l : Launch) (rd rs1 : BitVec 5) (imm : Word), s.seqReady h l →
    let k := s.core h.core.val
    let a := (k.rs rs1 + imm).toNat
    (a % 4 = 0 → a < 0x300000 → ∃ t, exec (.ldo h rd rs1 imm) s = .next t ∧
      s.onlyCore t h.core.val (((k.seqStart h).setS rd (.ofNat 32 (leNat (k.ostRead a 4)))).giveTok h.sg)) ∧
    (a % 4 = 0 → a < 0x300000 → ∃ t, exec (.sto h rd rs1 imm) s = .next t ∧
      s.onlyCore t h.core.val (((k.seqStart h).ostWrite a (leBytes 4 (k.rs rd).toNat)).giveTok h.sg) ∧
      (t.core h.core.val).ostRead a 4 = leBytes 4 (k.rs rd).toNat ∧
      ∀ b n, b + n ≤ a ∨ a + 4 ≤ b → (t.core h.core.val).ostRead b n = k.ostRead b n) ∧
    (a % 4 = 0 → a < 0x10000 → ∃ t, exec (.dld h rd rs1 imm) s = .next t ∧
      s.onlyCore t h.core.val (((k.seqStart h).setS rd (k.dw (a / 64) (a / 4 % 16))).giveTok h.sg))) ∧
  (∀ (s : State) (h : Ih) (l : Launch) (rd rs1 : BitVec 5) (imm : Word), s.seqReady h l →
    let k := s.core h.core.val
    let a := (k.rs rs1 + imm).toNat
    let stops (i : Instr) : Prop :=
      exec i s = .next (s.after (s.stop l { code := 0x020A, core := some h.core.val, pc := k.pc, bits := bitsOf i }))
    (¬(a % 4 = 0 ∧ a < 0x300000) → stops (.ldo h rd rs1 imm) ∧ stops (.sto h rd rs1 imm)) ∧
    (¬(a % 4 = 0 ∧ a < 0x10000) → stops (.dld h rd rs1 imm)) ∧
    (¬(a % 4 = 0 ∧ 128 ≤ a ∧ a < 0x10000) → stops (.dst h rd rs1 imm)))

/-- 04 R124, 08 R241, 12 R343: DST. It waits, for no token, while an instruction in a queue has still to latch its line. Else it
writes the word, except the words that an engine writes: W2 and W15 of a stream line and W11 to W14 of a collective line stay, and W1 of
a stream line at rest takes every field but its state, which becomes IDLE. A word 0 of another kind ends the line's being a stream or
collective line only while its transfer is not under way.
04 R122: DBIND binds a slot, line 0 unbinds it, and a line of 1 or above 1,023 is rejected with E_LOCAL_BOUND. -/
def Obligations.DescriptorWrites : Prop :=
  (∀ (s : State) (h : Ih) (l : Launch) (rd rs1 : BitVec 5) (imm : Word), s.seqReady h l →
    let k := s.core h.core.val
    let a := (k.rs rs1 + imm).toNat
    let line := BitVec.ofNat 10 (a / 64)
    let w := a / 4 % 16
    a % 4 = 0 → 128 ≤ a → a < 0x10000 →
    let isStream := k.streamLines.contains line = true
    let isColl := k.collLines.contains line = true
    let does (k' : Core) : Prop := ∃ t, exec (.dst h rd rs1 imm) s = .next t ∧ s.onlyCore t h.core.val (k'.giveTok h.sg)
    (isStream → w = 2 ∨ w = 15 → k.streamBusy line = false → does (k.seqStart h)) ∧
    (isColl → ¬isStream → 11 ≤ w → w ≤ 14 → k.streamBusy line = false → does (k.seqStart h)) ∧
    (isStream → w = 1 → k.streamBusy line = false →
      does ((k.seqStart h).setDw line.toNat 1 (.ofNat 32 ((k.rs rd).toNat % 2 ^ 28)))) ∧
    (¬isStream → ¬isColl → w ≠ 0 → k.lineHeld line.toNat = false → does ((k.seqStart h).setDw line.toNat w (k.rs rd))) ∧
    (¬isStream → ¬isColl → k.lineHeld line.toNat = true → exec (.dst h rd rs1 imm) s = .next (s.setCore h.core.val { k with seqWait := none })) ∧
    (isStream → w = 0 → k.streamBusy line = false → k.lineHeld line.toNat = false → (k.rs rd).toNat / 2 ^ 28 ≠ 5 →
      ∃ t, exec (.dst h rd rs1 imm) s = .next t ∧ (t.core h.core.val).dw line.toNat 0 = k.rs rd ∧
        (t.core h.core.val).streamLines.contains line = false)) ∧
  (∀ (s : State) (h : Ih) (l : Launch) (rd rs1 : BitVec 5) (imm : Word), s.seqReady h l →
    let k := s.core h.core.val
    let n := (k.rs rs1 + imm).toNat
    (n ≤ 1023 → n ≠ 1 → ∃ t, exec (.dbind h rd rs1 imm) s = .next t ∧
      s.onlyCore t h.core.val (({ k.seqStart h with d := sset 0 k.d rd.toNat (.ofNat 10 n) } : Core).giveTok h.sg) ∧
      (t.core h.core.val).slot rd = .ofNat 10 n ∧ ∀ r, r ≠ rd → (t.core h.core.val).slot r = k.slot r) ∧
    (n > 1023 ∨ n = 1 → exec (.dbind h rd rs1 imm) s = .next
      (s.after (s.stop l { code := 0x020A, core := some h.core.val, pc := k.pc, bits := bitsOf (.dbind h rd rs1 imm) }))))

/-- 04 R107: BR compares under its condition and, if it holds, the pc becomes the address of the BR plus 8 sext(off24), else the next
instruction's. ALWAYS with a register that is not s0, and the reserved condition, are no instruction: the loader rejects them with
E_OPCODE. The seven conditions are encoded as 0 to 6. -/
def Obligations.Branches : Prop :=
  (∀ (s : State) (h : Ih) (l : Launch) (c : Cond) (off : BitVec 24), s.seqReady h l →
    let k := s.core h.core.val
    let holds : Prop := match c with
      | .eq a b => k.rs a = k.rs b
      | .ne a b => k.rs a ≠ k.rs b
      | .lt a b => (k.rs a).toInt < (k.rs b).toInt
      | .ge a b => (k.rs b).toInt ≤ (k.rs a).toInt
      | .ltu a b => (k.rs a).toNat < (k.rs b).toNat
      | .geu a b => (k.rs b).toNat ≤ (k.rs a).toNat
      | .always => True
    ∃ t, exec (.br h c off) s = .next t ∧ t = { s with cores := t.cores } ∧
      (holds → s.onlyCore t h.core.val (({ k.seqStart h with pc := k.pc + (off.signExtend 64 * 8#64).setWidth 20 } : Core).giveTok h.sg)) ∧
      (¬holds → s.onlyCore t h.core.val ((k.seqStart h).giveTok h.sg))) ∧
  (∀ (c : Fin 64) (w : BitVec 64), w.extractLsb' 56 8 = 0x1C →
    (w.extractLsb' 43 3 = 7 ∨ (w.extractLsb' 43 3 = 6 ∧ (w.extractLsb' 36 5 ≠ 0 ∨ w.extractLsb' 31 5 ≠ 0))) →
    decodeCore c w = none ∧ ∀ k : CoreSrc, k.code = [w] → ∃ r, k.decode = .error r ∧ r.code = eOpcode) ∧
  (∀ (h : Ih) (off : BitVec 24) (a b : BitVec 5) (x : Cond × BitVec 3),
    x ∈ [(.eq a b, 0), (.ne a b, 1), (.lt a b, 2), (.ge a b, 3), (.ltu a b, 4), (.geu a b, 5), (.always, 6)] →
    ∃ w, encodeCore (.br h x.1 off) = some w ∧ w.extractLsb' 43 3 = x.2 ∧ w.extractLsb' 0 24 = off ∧ w.extractLsb' 56 8 = 0x1C)

/-- 07 R210: RDFLG returns the sticky flag word and clears it when asked. -/
def Obligations.StickyFlags : Prop :=
  ∀ (s : State) (h : Ih) (l : Launch) (rd : BitVec 5), s.seqReady h l →
    let k := s.core h.core.val
    (∃ t, exec (.rdflg h rd false) s = .next t ∧
      s.onlyCore t h.core.val (((k.seqStart h).setS rd (k.flags.setWidth 32)).giveTok h.sg)) ∧
    ∃ t, exec (.rdflg h rd true) s = .next t ∧
      s.onlyCore t h.core.val (({ (k.seqStart h).setS rd (k.flags.setWidth 32) with flags := 0 } : Core).giveTok h.sg)

/-- 04 R110: END retires when every instruction issued earlier on the core has completed; until then it waits, for no token. It clears the
core's obligation, discards its token counts, and the core issues nothing further. (Here other cores still run, and none waits in an LBAR.) -/
def Obligations.EndRetires : Prop :=
  ∀ (s : State) (h : Ih) (l : Launch), s.seqReady h l →
    let k := s.core h.core.val
    (k.allDoneBefore k.serialNo = false → s.quiet = true → exec (.endProgram h) s = .next (s.modCore h.core.val fun k => { k with seqWait := none })) ∧
    (k.allDoneBefore k.serialNo = true → h.sg = none → (∃ c, c < 64 ∧ c ≠ h.core.val ∧ (s.core c).ended = false) →
      (∀ c, (s.core c).barHead = none) → s.quiet = true →
      ∃ t, exec (.endProgram h) s = .next t ∧
        s.onlyCore t h.core.val { k.seqStart h with obligation := none, ended := true, k := [] } ∧ t.canIssue h.core.val = none)
/-! ### Unit instructions -/

/-- 04 R100, R101: an instruction of the four units whose queue already holds others enters at its tail with its operands as they read now, and the pc
goes past it; nothing else changes. (Here the queue has room.) An EPI past tile 7 is no instruction that the loader accepts (04 R109, R130); one
that is sent all the same stops its queue with the loader's code, E_OPCODE (the model's choice, entry 54 of the log). -/
def Obligations.UnitQueues : Prop :=
  ∀ (s : State) (h : Ih) (l : Launch) (d p m n k r : BitVec 5) (imm : BitVec 16) (td ta tb : BitVec 6) (tp : Option (BitVec 6))
    (t3 u3 : BitVec 3) (rb cb : BitVec 2) (fmt : BitVec 4) (b : Bool) (rop : RedOp) (mask : BitVec 8) (eng : Fin 4) (tk : Fin 16) (w : Word),
    let ext (c : Core) (x : BitVec 5) : Option Word := if x = 0 then none else some (c.rs x)
    let off (c : Core) : Nat := (c.rs r).toNat + 64 * imm.toNat
    let waits (u : CUnit) (i : Instr) (op : Core → UOp) : Prop := s.unitWaits h u l → exec i s = .next (s.queuedState h (bitsOf i) u op)
    waits .mxu (.mma h d p m n k imm) (fun c => .mma d (c.slot d) (c.rs p + imm.setWidth 32) (ext c m) (ext c n) (ext c k)) ∧
    waits .mxu (.attn h d p m n k imm) (fun c => .attn d (c.slot d) (c.rs p + imm.setWidth 32) (ext c m) (ext c n) (ext c k)) ∧
    (t3.toNat + u3.toNat ≤ 7 → waits .mxu (.epi h d r t3 u3) (fun c => .epi (c.slot d) (c.rs r) t3 u3)) ∧
    (t3.toNat + u3.toNat > 7 → s.seqReady h l → exec (.epi h d r t3 u3) s = .next (s.after (s.stop l
      { code := eOpcode, core := some h.core.val, pc := (s.core h.core.val).pc, bits := bitsOf (.epi h d r t3 u3) }))) ∧
    waits .mxu (.accinit h mask b) (fun _ => .accinit mask b) ∧
    waits .vec (.vprog h td ta tb tp d) (fun c => .vprog td ta tb tp (c.slot d)) ∧
    waits .vec (.vred h td ta rop b) (fun _ => .vred td ta rop b) ∧
    waits .vec (.vld h td fmt b r imm) (fun c => .vld td fmt b (off c)) ∧
    waits .vec (.vst h td fmt b r imm) (fun c => .vst td fmt b (off c)) ∧
    waits .vec (.vcvt h ta p r imm) (fun c => .vcvt ta (c.rs p) (off c)) ∧
    waits .vec (.vaccr h td t3 rb cb) (fun _ => .vaccr td t3 rb cb) ∧
    waits .vec (.vaccw h td t3 rb cb) (fun _ => .vaccw td t3 rb cb) ∧
    waits .vec (.vmov h td ta) (fun _ => .vmov td ta) ∧
    waits .vec (.vfill h td r) (fun c => .vfill td (c.rs r)) ∧
    waits .stm (.sarm h d eng) (fun c => .sarm (c.slot d) eng) ∧
    waits .stm (.sexp h d) (fun c => .sexp (c.slot d)) ∧
    waits .syn (.tsig h tk imm) (fun _ => .tsig tk imm) ∧
    waits .syn (.twait h tk imm) (fun _ => .twait tk imm) ∧
    waits .syn (.waitbeat h r w) (fun c => .waitbeat (c.rs r + w)) ∧
    waits .syn (.coll h d) (fun c => .coll (c.slot d)) ∧
    waits .syn (.lbar h) (fun _ => .lbar) ∧
    (s.unitWaits h .syn l → exec (.beatmark h r w) s =
      .next (s.after (s.queuedState h (bitsOf (.beatmark h r w)) .syn fun c => .beatmark (c.rs r + w))))

/-- 04 R112, R113, R132, R133: an MMA, ATTN, EPI, VPROG, VRED, VCVT or SEXP that may begin does what its unit does on the state it meets: it
stands in flight with its flags and marks; a failing access halts its launch, and one that is held lets it wait (08 R222); a violation or a trap
stops its queue; one that loses a structure of the device leaves it to the drain (14 R409). -/
def Obligations.UnitRuns : Prop :=
  ∀ (s : State) (h : Ih) (l : Launch) (d p m n k r : BitVec 5) (imm : BitVec 16) (td ta tb : BitVec 6) (tp : Option (BitVec 6))
    (t3 u3 : BitVec 3) (b : Bool) (rop : RedOp),
    let c := h.core.val
    let kc := s.core c
    let ext (x : BitVec 5) : Option Word := if x = 0 then none else some (kc.rs x)
    let prob := kc.rs p + imm.setWidth 32
    let does (u : CUnit) (i : Instr) (op : UOp) (run : State → Launch → Nat → Issued → Began) : Prop :=
      s.unitBegins h (bitsOf i) u (fun _ => op) l →
        let ins := s.issued h (bitsOf i) fun _ => op
        let g := run (s.begunState h (bitsOf i) u fun _ => op) l c ins
        let held : Prop := ∃ e, g.halt = some e ∧ e.isHeld = true
        (g.stop = none → g.fly = true → g.halt = none ∨ held → exec i s = .next ((s.ownedDrain (g.flies c u ins)).sendFlits s.out.length)) ∧
        (∀ e, g.stop = none → g.fly = true → g.halt = some e → e.isHeld = false →
          exec i s = .next (s.after ((g.flies c u ins).haltOn l e (some (c, ins.pc)) 0 0))) ∧
        (g.stop = none → g.fly = false → g.mute = true → exec i s = .next (s.after (g.s.orFlags c g.flags))) ∧
        ∀ info, g.stop = some info → exec i s = .next (s.after (((g.s.orFlags c g.flags).applyMarks g.marks).stop l info))
    does .mxu (.mma h d p m n k imm) (.mma d (kc.slot d) prob (ext m) (ext n) (ext k)) (runMma (kc.slot d) prob (ext m) (ext n) (ext k) {}) ∧
    does .mxu (.attn h d p m n k imm) (.attn d (kc.slot d) prob (ext m) (ext n) (ext k)) (runAttn (kc.slot d) prob (ext m) (ext n) (ext k) {}) ∧
    (t3.toNat + u3.toNat ≤ 7 →
      does .mxu (.epi h d r t3 u3) (.epi (kc.slot d) (kc.rs r) t3 u3) (runEpi (kc.slot d) (kc.rs r) t3 u3 {})) ∧
    does .vec (.vprog h td ta tb tp d) (.vprog td ta tb tp (kc.slot d)) (runVprog td ta tb tp (kc.slot d)) ∧
    does .vec (.vred h td ta rop b) (.vred td ta rop b) (runVred td ta rop b) ∧
    does .vec (.vcvt h ta p r imm) (.vcvt ta (kc.rs p) ((kc.rs r).toNat + 64 * imm.toNat)) (runVcvt ta (kc.rs p) ((kc.rs r).toNat + 64 * imm.toNat)) ∧
    does .stm (.sexp h d) (.sexp (kc.slot d)) (runSexp (kc.slot d))

/-- 04 R109, 07 R199: the moves of tiles. Each writes its tile whole with its type, no other tile, no register, no store and no flag; VACCW
writes one block of an accumulator tile, of the same type as the register. -/
def Obligations.TileMoves : Prop :=
  ∀ (s : State) (h : Ih) (l : Launch) (td ta : BitVec 6) (r : BitVec 5) (tile : BitVec 3) (rb cb : BitVec 2),
    let c := h.core.val
    let k := s.core c
    let key (n : Nat) : Nat := 16384 * tile.toNat + 128 * (32 * rb.toNat + n / 32) + (32 * cb.toNat + n % 32)
    let isI := k.accI32.getLsbD tile.toNat
    let moves (i : Instr) (op : UOp) (ws : List Word) (isI : Bool) : Prop :=
      s.unitBegins h (bitsOf i) .vec (fun _ => op) l → ∃ t, exec i s = .next t ∧
        s.onlyVec t c (((k.unitStart h).setTile td ws isI).flying (s.issued h (bitsOf i) fun _ => op) .vec) ∧
        (t.core c).tileWords td = ws ∧ (t.core c).tileIsI32 td = isI ∧
        ∀ x, x ≠ td → (t.core c).tileWords x = k.tileWords x ∧ (t.core c).tileIsI32 x = k.tileIsI32 x
    moves (.vmov h td ta) (.vmov td ta) (k.tileWords ta) (k.tileIsI32 ta) ∧
    moves (.vfill h td r) (.vfill td (k.rs r)) (List.replicate 1024 (canon32 (k.rs r))) false ∧
    moves (.vaccr h td tile rb cb) (.vaccr td tile rb cb) ((List.range 1024).map fun n => sget 0 k.acc (key n)) isI ∧
    (let i : Instr := .vaccw h td tile rb cb
     let op : UOp := .vaccw td tile rb cb
     s.unitBegins h (bitsOf i) .vec (fun _ => op) l →
      (k.tileIsI32 td = isI → ∃ t acc, exec i s = .next t ∧
        s.onlyVec t c (({ k.unitStart h with acc := acc } : Core).flying (s.issued h (bitsOf i) fun _ => op) .vec) ∧
        (∀ n, n < 1024 → sget 0 acc (key n) = (k.tileWords td).getD n 0) ∧
        ∀ a, (∀ n, n < 1024 → a ≠ key n) → sget 0 acc a = sget 0 k.acc a) ∧
      (k.tileIsI32 td ≠ isI → exec i s = .next (s.after ((s.begunState h (bitsOf i) .vec fun _ => op).stop l
        { (s.issued h (bitsOf i) fun _ => op).info c with code := eAccType }))))

/-- 04 R109, 07 R199: VLD widens 1,024 elements of a format into a tile; VST stores the 4,096 bytes of a tile of its format's type, and no other
byte. A tile that is not 64-byte aligned or leaves the store stops the queue with E_LOCAL_BOUND. -/
def Obligations.TileMemory : Prop :=
  ∀ (s : State) (h : Ih) (l : Launch) (tv : BitVec 6) (fmt : BitVec 4) (uns : Bool) (r : BitVec 5) (imm : BitVec 16),
    let c := h.core.val
    let k := s.core c
    let f := fmt.toNat
    let w := fmtBytes f
    let off := (k.rs r).toNat + 64 * imm.toNat
    let inside (n : Nat) : Prop := off % 64 = 0 ∧ off + n ≤ 0x300000
    let ld : Instr := .vld h tv fmt uns r imm
    let st : Instr := .vst h tv fmt uns r imm
    let lop : UOp := .vld tv fmt uns off
    let sop : UOp := .vst tv fmt uns off
    (s.unitBegins h (bitsOf ld) .vec (fun _ => lop) l → f < 8 → (uns = true → f = 2 ∨ f = 5) →
      (inside (1024 * w) → ∃ t, exec ld s = .next t ∧
        s.onlyVec t c (((k.unitStart h).setTile tv
          ((List.range 1024).map fun n => vldElem f uns (.ofNat 32 (leNat (k.ostRead (off + w * n) w)))) (fmtIsInt f)).flying
            (s.issued h (bitsOf ld) fun _ => lop) .vec)) ∧
      (¬inside (1024 * w) → exec ld s = .next (s.after ((s.begunState h (bitsOf ld) .vec fun _ => lop).stop l
        { (s.issued h (bitsOf ld) fun _ => lop).info c with code := eLocalBound })))) ∧
    (s.unitBegins h (bitsOf st) .vec (fun _ => sop) l → uns = false → (f = 6 ∧ k.tileIsI32 tv = false ∨ f = 7 ∧ k.tileIsI32 tv = true) →
      (inside 4096 → ∃ t, exec st s = .next t ∧
        s.onlyVec t c (((k.unitStart h).ostWrite off (wordBytes (k.tileWords tv))).flying (s.issued h (bitsOf st) fun _ => sop) .vec) ∧
        (t.core c).ostRead off 4096 = wordBytes (k.tileWords tv) ∧
        ∀ a n, a + n ≤ off ∨ off + 4096 ≤ a → (t.core c).ostRead a n = k.ostRead a n) ∧
      (¬inside 4096 → exec st s = .next (s.after ((s.begunState h (bitsOf st) .vec fun _ => sop).stop l
        { (s.issued h (bitsOf st) fun _ => sop).info c with code := eLocalBound }))))

/-- 04 R109: ACCINIT writes +0 to every element of the tiles that its mask names and sets their tags; every other tile, and everything else of
the machine, stays. -/
def Obligations.AccumulatorInit : Prop :=
  ∀ (s : State) (h : Ih) (l : Launch) (mask : BitVec 8) (i32 : Bool),
    let c := h.core.val
    let k := s.core c
    let i : Instr := .accinit h mask i32
    s.unitBegins h (bitsOf i) .mxu (fun _ => .accinit mask i32) l → ∃ t k', exec i s = .next t ∧ s.onlyCore t c k' ∧
      (∀ a, a < 131072 → sget 0 k'.acc a = if mask.getLsbD (a / 16384) then 0 else sget 0 k.acc a) ∧
      (∀ n, n < 8 → k'.accI32.getLsbD n = if mask.getLsbD n then i32 else k.accI32.getLsbD n) ∧
      k' = { (k.unitStart h).flying (s.issued h (bitsOf i) fun _ => .accinit mask i32) .mxu with acc := k'.acc, accI32 := k'.accI32 }

/-- 04 R112, R117, R118: TSIG adds to a counter, TWAIT takes from one that holds enough, WAITBEAT completes when its beat has begun and else
flies, BEATMARK meets the core's obligation and sets the next; one that names a beat gone by stops the queue with E_BEAT_ORDER, and a counter
above 65,535 stops it with E_TOKEN_OVER. -/
def Obligations.Synchronization : Prop :=
  ∀ (s : State) (h : Ih) (l : Launch) (x : Fin 16) (n : BitVec 16) (r : BitVec 5) (imm : Word),
    let c := h.core.val
    let k := s.core c
    let b := k.unitStart h
    let m := k.rs r + imm
    let now := lo32 (s.fab.cnt - l.start.getD 0)
    let begins (i : Instr) (op : UOp) : Prop := s.unitBegins h (bitsOf i) .syn (fun _ => op) l
    let ends (i : Instr) (k' : Core) : Prop := k'.sigRoom h.sg → ∃ t, exec i s = .next t ∧ s.onlyCore t c (k'.giveTok h.sg)
    let stops (i : Instr) (op : UOp) (code : Code) : Prop := exec i s = .next (s.after ((s.begunState h (bitsOf i) .syn fun _ => op).stop l
      { (s.issued h (bitsOf i) fun _ => op).info c with code := code }))
    (begins (.tsig h x n) (.tsig x n) →
      ((b.tok x).toNat + n.toNat ≤ 65535 → ends (.tsig h x n) (b.setTok x (b.tok x + n))) ∧
      ((b.tok x).toNat + n.toNat > 65535 → stops (.tsig h x n) (.tsig x n) eTokenOver)) ∧
    (begins (.twait h x n) (.twait x n) → n.toNat ≤ (b.tok x).toNat ∧ ends (.twait h x n) (b.setTok x (b.tok x - n))) ∧
    (begins (.waitbeat h r imm) (.waitbeat m) →
      (m ≤ now → ends (.waitbeat h r imm) b) ∧
      (¬m ≤ now → ∃ t, exec (.waitbeat h r imm) s = .next t ∧
        s.onlyCore t c (b.flying (s.issued h (bitsOf (.waitbeat h r imm)) fun _ => .waitbeat m) .syn))) ∧
    (begins (.beatmark h r imm) (.beatmark m) →
      (m = 0xFFFFFFFF ∨ ¬m < now → b.sigRoom h.sg →
        ∃ t, exec (.beatmark h r imm) s = .next (s.after t) ∧
          s.onlyCore t c (({ b with obligation := if m = 0xFFFFFFFF then none else some m } : Core).giveTok h.sg)) ∧
      (m ≠ 0xFFFFFFFF ∧ m < now → stops (.beatmark h r imm) (.beatmark m) eBeatOrder))

/-- 04 R120: LBAR joins the device barrier once every earlier instruction of its core has completed, and keeps the head of its queue; the barrier is
passed when every core has joined it or ended, and its LBARs complete then. -/
def Obligations.DeviceBarrier : Prop :=
  ∀ (s : State) (h : Ih) (l : Launch),
    let c := h.core.val
    let k := s.core c
    let ins := s.issued h (bitsOf (.lbar h)) fun _ => .lbar
    s.canIssue c = some l → k.qSyn = [] → k.tokOk h.wt = true → h.det = [] → k.allDoneBefore k.serialNo = true →
    ((∃ i, i < 64 ∧ i ≠ c ∧ (s.core i).ended = false ∧ (s.core i).joined ≤ s.barPassed) →
      ∃ t, exec (.lbar h) s = .next t ∧
        s.onlyCore t c { k.unitStart h with joined := k.joined + 1, qSyn := [{ ins with wt := none, joinedBar := true }] }) ∧
    ((∀ i, i < 64 → i ≠ c → (s.core i).ended = true ∧ (s.core i).barHead = none) → s.barPassed ≤ k.joined → (k.unitStart h).sigRoom h.sg →
      ∃ t, exec (.lbar h) s = .next t ∧ t.barPassed = s.barPassed + 1 ∧
        t.core c = ({ k.unitStart h with joined := k.joined + 1 } : Core).giveTok h.sg ∧ ∀ i, i ≠ c → t.core i = s.core i)

/-- 12 R343-R345: COLL latches its line and joins its collective's count phase; a violation stops the queue. -/
def Obligations.CollectiveBegins : Prop :=
  ∀ (s : State) (h : Ih) (l : Launch) (d : BitVec 5),
    let c := h.core.val
    let i : Instr := .coll h d
    let op : UOp := .coll ((s.core c).slot d)
    let ins := s.issued h (bitsOf i) fun _ => op
    let g := runColl ((s.core c).slot d) (s.begunState h (bitsOf i) .syn fun _ => op) l c ins
    s.unitBegins h (bitsOf i) .syn (fun _ => op) l →
      let r := (g.flies c .syn ins).decideAll []
      (g.stop = none → r.2 = false → exec i s = .next ((s.ownedDrain r.1).sendFlits s.out.length)) ∧
      (g.stop = none → r.2 = true → exec i s = .next (s.after r.1)) ∧
      ∀ info, g.stop = some info → exec i s = .next (s.after ((((g.s.orFlags c g.flags).applyMarks g.marks).stop l info).decideAll []).1)

/-- 08 R241: SARM makes its line a stream line, QUEUED with no progress and no halt, and puts it at the tail of its engine. A line whose
stream is QUEUED, ACTIVE or HALTED is left alone: E_REARM_ACTIVE is logged and the instruction completes without a signal. -/
def Obligations.StreamArms : Prop :=
  ∀ (s : State) (h : Ih) (l : Launch) (d : BitVec 5) (eng : Fin 4),
    let c := h.core.val
    let k := s.core c
    let line := k.slot d
    let i : Instr := .sarm h d eng
    let op : UOp := .sarm line eng
    let ins := s.issued h (bitsOf i) fun _ => op
    let ws := k.lineWords line.toNat 16
    s.unitBegins h (bitsOf i) .stm (fun _ => op) l → 2 ≤ line.toNat → wbits (wAt ws 0) 28 4 = 5 →
      (k.streamBusy line = false → ∀ x, parseStream ws = .ok x → (x.remote = true → s.slotOk l x.slot x.dev = true) → x.boundsOk = true →
        x.overlaps = false → ∃ t st, exec i s = .next t ∧ st.line = line ∧ st.serial = k.serialNo ∧ st.words = ws ∧ st.started = false ∧
          t = { s with cores := t.cores } ∧ (∀ j, j ≠ c → t.core j = s.core j) ∧
          (t.core c).streamState line = 1 ∧ (t.core c).dw line.toNat 2 = 0 ∧ (t.core c).dw line.toNat 15 = 0 ∧
          (∀ a b, b < 16 → (a ≠ line.toNat ∨ (b ≠ 1 ∧ b ≠ 2 ∧ b ≠ 15)) → (t.core c).dw a b = k.dw a b) ∧
          sget [] (t.core c).eng eng.val = sget [] k.eng eng.val ++ [st] ∧
          (t.core c).flight = k.flight ++ [{ ins := ins, unit := .stm }] ∧ (t.core c).pc = k.pc + 8) ∧
      (k.streamBusy line = true → ∃ u, exec i s = .next (s.after u) ∧
        (let v := (s.begunState h (bitsOf i) .stm fun _ => op).log
           { code := 0x0303, source := 2, qid := some l.qid, core := some (.ofNat 6 c, k.pc) }
         u.err = v.err ∧ ∀ j, u.core j = v.core j))
/-- 04 R100, R112, R113: UNIT_INSTRUCTION_BEGIN lets the instruction at the head of a unit's queue begin, if its wait has ended and no interlock
holds it; else nothing begins. INSTRUCTION_COMPLETE ends a flight: its flags enter the sticky word, its token is signalled. -/
def Obligations.HeadsAndFlights : Prop :=
  (∀ (s : State) (c : Fin 64) (u : CUnit) (l : Launch) (i : Issued) (rest : List Issued), s.running = some l → (s.core c.val).unitQ u = i :: rest →
    i.det = [] → i.op ≠ .lbar → (∀ line, i.op ≠ .coll line) →
    let k := s.core c.val
    let ready := k.stopped = false ∧ s.inTakeover c.val = false ∧ s.headReady k i = true ∧ k.interlockOk i = true
    let s' := s.modCore c.val fun k => (k.takeTok i.wt).setUnitQ u rest
    (ready → exec (.unitInstructionBegin c u []) s = .next (s.after (finishBegin l c.val u i (runOp {} s' l c.val i)).1)) ∧
    (¬ready → exec (.unitInstructionBegin c u []) s = .next (s.after s))) ∧
  (∀ (s : State) (c : Fin 64) (n : Nat) (l : Launch) (f : Flight), s.running = some l →
    ((s.core c.val).flight.find? fun g => g.ins.serial == n) = some f → f.ins.op.endsElsewhere = false → f.haltedAt = none →
    s.inTakeover c.val = false → f.marks = [] →
    let k := s.core c.val
    let k' : Core := { k with flight := k.flight.filter fun g => g.ins.serial != n, flags := k.flags ||| f.flags }
    k'.sigRoom f.ins.sg → ∃ t, exec (.instructionComplete c n) s = .next t ∧ s.onlyCore t c.val (k'.giveTok f.ins.sg))

/-- 04 R115, R116: a wait that has counted its limit stops its queue with E_WAIT_LIMIT, and a launch whose beat reaches 0xFFFF_FFFF stops with
E_BEAT_RANGE; before that neither command does anything. -/
def Obligations.Limits : Prop :=
  (∀ (s : State) (c : Fin 64) (u : CUnit) (l : Launch) (i : Issued) (rest : List Issued), s.resident = some l → l.suspended = none →
    (s.core c.val).unitQ u = i :: rest →
    let k := s.core c.val
    (k.headWaits i = true → s.waitLimit l c.val ≤ i.waited → exec (.waitLimitExpiry c u) s =
      .next (s.after (s.stop l { i.info c.val with code := eWaitLimit, cause := .ofNat 5 (i.counter k) }))) ∧
    (i.waited < s.waitLimit l c.val → exec (.waitLimitExpiry c u) s = .next s)) ∧
  (∀ (s : State) (l : Launch) (a : Dword), s.running = some l → l.start = some a →
    (0xFFFFFFFF ≤ (s.fab.cnt - a).toNat → exec .beatRangeExpiry s =
      .next (s.after (s.stop l { code := eBeatRange, kind := 8, detail := s.fab.cnt }))) ∧
    ((s.fab.cnt - a).toNat < 0xFFFFFFFF → exec .beatRangeExpiry s = .next s))

/-- 13 R394, R395, R398, R399: EXPORT_PAGE_SEND sends the oldest page that a subscriber has not been sent, when the turn is its own and its window has room:
the packets of one RDMA WRITE with the page's bytes, from the next PSN on, with the address in the first and the immediate in the last. A page with lost bytes
drops every subscriber of the sequence instead (14 R409). One whose turn it is not sends nothing. -/
def Obligations.PagesAreSent : Prop :=
  ∀ (s : State) (q : BitVec 24) (seq : Word) (u i : Nat) (h : Handoff), s.subOf q = some (seq, u) →
    let b := s.sub seq u
    let g := granOf h.pool.val
    let pa := (s.pool h.pool.val).framePa h.pool.val h.page
    let m := 128 * 2 ^ b.pmtu.toNat
    let n := (g + m - 1) / m
    let v := s.modSub seq u fun b => { b with queue := b.queue.set i { h with psn := some b.psn }, psn := b.psn + .ofNat 24 n }
    let s' : State := { v with exp := { v.exp with lastTurn := q } }
    let pkt (j : Nat) : RdmaPkt :=
      { op := if j = 0 then (if n = 1 then .onlyImm else .first) else if j + 1 = n then .lastImm else .middle, psn := b.psn + .ofNat 24 j,
        reth := if j = 0 then some (b.rBase + .ofNat 64 (h.layer.toNat * b.lstride.toNat + h.index * g), b.rkey, g) else none,
        imm := if j + 1 = n then some (.ofNat 32 (b.tag.toNat * 2 ^ 21 + h.layer.toNat * 2 ^ 13 + h.index % 8192)) else none,
        bytes := ((s.hbm.read pa g).drop (j * m)).take m }
    (s.turn q = false → exec (.exportPageSend q) s = .next (s.after s)) ∧
    (s.turn q = true → b.isOpen = true → (b.queue.findIdx? fun h => h.psn.isNone) = some i → b.queue[i]? = some h → b.inFlight < b.window →
      b.rnrWait = none → s.err.drained = false →
      (s.hbm.poisonIn pa g = none → u < 4 → exec (.exportPageSend q) s =
        .next (s.after (s'.emitAll ((List.range n).map fun j => .rdma (s.roceNet b) b.rqpn (pkt j))))) ∧
      (s.hbm.poisonIn pa g ≠ none → exec (.exportPageSend q) s = .next (s.after (s'.dropSubs seq 6))))

/-- 08 R240, R245, R248: a QUEUED stream at an engine's head starts when the engine takes it; a remote one whose launch beat has not begun becomes
ACTIVE and moves no byte until it has; one of size zero passes from QUEUED to DONE. STREAM_DONE makes a stream whose bytes have all committed DONE, frees its
engine and completes its SARM; the progress of a remote one is what the receiver has acknowledged. (Here no detection meets it.) -/
def Obligations.Streams : Prop :=
  ∀ (s : State) (c : Fin 64) (eng : Fin 4) (l : Launch) (st : Stream) (d : StreamDesc), s.running = some l →
    (s.core c.val).headStream eng = some (st, d) → s.inTakeover c.val = false → st.det = [] →
    let state := (s.core c.val).streamState st.line
    let ln := st.line.toNat
    let begun := d.remote = false ∨ d.startBeat.toNat ≤ (l.beat s.fab.cnt).toNat
    let s1 := s.modCore c.val fun k => k.modEngHead eng fun t => { t with det := [] }
    let k := s1.core c.val
    let done (i : Instr) : Prop :=
      ∀ f, (k.flight.find? fun f => f.ins.serial == st.serial) = some f → f.marks = [] → f.ins.sg = none → f.flags = 0 →
        ∃ t, exec i s = .next t ∧ s.onlyCore t c.val { (k.setStreamState ln 4).setDw ln 2 (.ofNat 32 d.total) with
          eng := smod [] k.eng eng.val (·.drop 1), flight := k.flight.filter fun g => g.ins.serial != f.ins.serial }
    (state = 1 → begun → d.total ≠ 0 → exec (.streamStart c eng []) s = .next (s.after (s1.runStream l c.val eng st d 0))) ∧
    (state = 1 → begun → d.total = 0 → d.remote = false ∨ d.sig = none → done (.streamStart c eng [])) ∧
    (state = 1 → ¬begun → d.total ≠ 0 → exec (.streamStart c eng []) s = .next (s.modCore c.val fun k => k.setStreamState ln 2)) ∧
    (state = 1 → ¬begun → d.total = 0 → exec (.streamStart c eng []) s = .next s) ∧
    (d.remote = true → st.started = false → begun →
      (state = 2 → d.total ≠ 0 → exec (.remoteStreamStart c eng) s = .next (s.after (s1.runStream l c.val eng st d 0))) ∧
      (state = 1 → d.total = 0 → d.sig = none → done (.remoteStreamStart c eng))) ∧
    (state = 2 → st.started = true →
      (∀ n, (d.remote = true ∧ d.total ≤ n) ∨ (d.remote = false ∧ ((s.core c.val).dw ln 2).toNat = d.total) → done (.streamDone c eng n [])) ∧
      ∀ n, d.remote = true → n < d.total → exec (.streamDone c eng n []) s = .next (s.modCore c.val fun k =>
        k.setDw ln 2 (.ofNat 32 (max (k.dw ln 2).toNat (min n st.sent / 64 * 64)))))

/-- 08 R245, R248: bytes of another device's stream are written at their address in the operand store, the last one's signal is given, and then
they are acknowledged. No other byte of the store changes. Bytes of a job whose launch does not run here wait. -/
def Obligations.RemoteBytes : Prop :=
  ∀ (s : State) (src : BitVec 12) (c : Fin 64) (mem : Bool) (tag : Word) (addr : Dword) (bytes : List Byte) (last : Bool) (sg : Option (Fin 16)),
    ((∀ l, s.running = some l → l.jobTag ≠ tag) → exec (.remoteStreamArrival src c mem tag addr bytes last sg) s = .next s) ∧
    ∀ l : Launch, s.running = some l → l.jobTag = tag → addr.toNat + bytes.length ≤ 0x300000 → bytes ≠ [] → (s.core c.val).sigRoom sg →
      ∃ t, exec (.remoteStreamArrival src c false tag addr bytes last sg) s = .next t ∧ t.out = s.out ++ [.remoteAck src bytes.length] ∧
        t.core c.val = ((s.core c.val).ostWrite addr.toNat bytes).giveTok (if last then sg else none) ∧ (∀ i, i ≠ c.val → t.core i = s.core i) ∧
        (t.core c.val).ostRead addr.toNat bytes.length = bytes ∧
        (∀ a n, a + n ≤ addr.toNat ∨ addr.toNat + bytes.length ≤ a → (t.core c.val).ostRead a n = (s.core c.val).ostRead a n) ∧ t.hbm = s.hbm

/-! ### HBM, cache, translation -/

/-- 08 R219, R220, R222, R223: HBM_WRITE stores the bytes of one burst, and no other byte of the memory changes; a merged write to a poisoned burst changes
no byte and is its consumer's lost data. Beyond the stacks there is no burst, and nothing is written. -/
def Obligations.BurstWrites : Prop :=
  ∀ (s : State) (pa : BitVec 37) (bytes : List Byte) (who : Consumer) (va : Dword), bytes ≠ [] → pa.toNat % 32 + bytes.length ≤ 32 →
    let b := pa.toNat / 32
    (96000000000 < pa.toNat + bytes.length → exec (.hbmWrite pa bytes who va) s = .next s) ∧
    (pa.toNat + bytes.length ≤ 96000000000 →
      (bytes.length = 32 ∨ s.hbm.poisoned b = false →
        ∃ t, exec (.hbmWrite pa bytes who va) s = .next t ∧ t = { s with hbm := t.hbm } ∧ t.hbm.read pa.toNat bytes.length = bytes ∧
          (∀ a n, a + n ≤ pa.toNat ∨ pa.toNat + bytes.length ≤ a → t.hbm.read a n = s.hbm.read a n) ∧ t.hbm.poisoned b = false ∧
          ∀ x, x ≠ b → t.hbm.poisoned x = s.hbm.poisoned x) ∧
      (bytes.length < 32 → s.hbm.poisoned b = true →
        exec (.hbmWrite pa bytes who va) s = .next (s.after (({ s with hbm := { s.hbm with
          retiring := s.hbm.retiring.map (holdWrite false va.toNat pa.toNat bytes) } } : State).dataLost who va (b * 32) 2))))

/-- 08 R221-R224, 14 R409: a burst whose code is right is delivered and nothing changes; poison is its consumer's lost data; a wrong code
that a good re-read follows counts, and the granule's third event retires it; a second wrong code retires it at once, and the requester learns of it: a
READ_MEM when it reads the burst, a merged write as its lost data, any other by repeating its access. -/
def Obligations.BurstReads : Prop :=
  ∀ (s : State) (b : BitVec 32) (who : Consumer) (va : Dword) (f g : ReadFault),
    let pa := b.toNat * 32
    let gr : BitVec 25 := .ofNat 25 (pa / 4096)
    let run := exec (.hbmRead b who va f g) s
    let u := ((s.noteEvent 3 gr.toNat).1).retireGranule gr
    (s.hbm.check b f = .good → run = .next (s.after s)) ∧
    (s.hbm.check b f = .poison → run = .next (s.after (s.dataLost who va pa 2))) ∧
    (s.hbm.check b f = .bad → s.hbm.check b g = .good →
      let n := (s.modHbm fun h => { h with rereadOk := satInc h.rereadOk }).noteEvent 3 gr.toNat
      run = .next (s.after (if n.2 then n.1.retireGranule gr else n.1))) ∧
    (s.hbm.check b f = .bad → s.hbm.check b g ≠ .good →
      (who = .readMem → run = .next (s.after { u with hbm := { u.hbm with failing := u.hbm.failing ++ [(b.toNat, eHbmDetect, 1)] } })) ∧
      (∀ c, who = .mergedWrite c → run = .next (s.after (u.dataLost who va pa 1))) ∧
      (who ≠ .readMem → (∀ c, who ≠ .mergedWrite c) →
        run = .next (s.after (u.replayed eHbmDetect 3 (.ofNat 12 (Config.stackOf (pa / 4096)).val) 1 pa))))

/-- 08 R222: when the copy of a granule is done its remap entry names the spare, the bursts that could not be read are poison, the writes that came
meanwhile take effect in order, and the messages and instructions that waited for the granule go on. A granule that is not being retired is left alone. -/
def Obligations.Retirement : Prop :=
  ∀ (s : State) (g : BitVec 25) (bad : List (BitVec 7)),
    ((s.hbm.retiring.find? fun r => r.granule == g) = none → exec (.granuleRetireComplete g bad) s = .next (s.after s)) ∧
    ∀ r, (s.hbm.retiring.find? fun r => r.granule == g) = some r →
      ∃ u, (let v := r.held.foldl State.heldWrite u
          let w : State := { v with qce := { v.qce with queues := v.qce.queues.map fun (e : Nat × Queue) => (e.1, { e.2 with blocked := false }) } }
          exec (.granuleRetireComplete g bad) s = .next (s.after (match w.running with | some l => (w.resumeUnits l.qid).1 | none => w))) ∧
        u = { s with hbm := u.hbm } ∧ sget 0 u.hbm.remap g.toNat = r.spare + 1 ∧ u.hbm.mem = s.hbm.mem ∧
        u.hbm.retiring = (s.hbm.retiring.filter fun x => x.granule != g) ∧ (∀ i, i ∈ bad → u.hbm.poisoned (g.toNat * 128 + i.toNat) = true) ∧
        (∀ i : BitVec 7, i ∉ bad → u.hbm.poisoned (g.toNat * 128 + i.toNat) = s.hbm.poisoned (g.toNat * 128 + i.toNat)) ∧
        (∀ x, x / 128 ≠ g.toNat → u.hbm.poisoned x = s.hbm.poisoned x) ∧ ∀ x, x ≠ g.toNat → sget 0 u.hbm.remap x = sget 0 s.hbm.remap x

/-- 08 R225-R228: an access to a cached line makes it the most recent of the list and dirty if it writes; one that misses and may not allocate
changes nothing. A permanent way goes out of service at a boundary, its lines with it, and the spare way serves from then on. -/
def Obligations.Cache : Prop :=
  (∀ (s : State) (pa : BitVec 37) (write full : Bool) (hint : Hint) (who : Consumer),
    let key := pa.toNat / 128
    (∀ l, (s.hbm.lines.find? fun l => l.line == key) = some l → exec (.cacheAccess pa write full hint none who) s =
      .next (s.after (s.modHbm fun h => { h with lines := { l with dirty := l.dirty || write } :: h.lines.filter (· != l) }))) ∧
    ((s.hbm.lines.find? fun l => l.line == key) = none →
      exec (.cacheAccess pa write full .noAllocate none who) s = .next (s.after s) ∧
      (hint ≠ .noAllocate → exec (.cacheAccess pa write full hint none who) s = .next (s.after (s.allocLine pa.toNat write hint))))) ∧
  (∀ (s : State) (sl : Fin 8) (w : Fin 16),
    ((sl, w) ∉ s.hbm.handover → exec (.cacheWayHandover sl w) s = .next s) ∧
    ((sl, w) ∈ s.hbm.handover → ∃ t, exec (.cacheWayHandover sl w) s = .next t ∧ t = { s with hbm := t.hbm } ∧
      (t.waysOf sl).out = (s.waysOf sl).out ||| (1#16 <<< w.val) ∧ (t.waysOf sl).spareUsed = true ∧
      (t.waysOf sl).degraded = ((s.waysOf sl).degraded || (s.waysOf sl).spareUsed) ∧ (∀ x, x ≠ sl → t.waysOf x = s.waysOf x) ∧
      (∀ l, l ∈ t.hbm.lines ↔ l ∈ s.hbm.lines ∧ ¬(l.slice = sl ∧ l.way = w)) ∧ (sl, w) ∉ t.hbm.handover ∧
      ∀ a n, t.hbm.read a n = s.hbm.read a n))

/-- 08 R233, R235, R236, 14 R409: a walk that succeeds puts its translation into the shared TLB and its core's, and the walker keeps its pointers; one that
fails, or that meets a poisoned table, is its requester's failing access. -/
def Obligations.Walks : Prop :=
  ∀ (s : State) (who : Requester) (ctx : BitVec 8) (va : Dword) (write : Bool),
    (∀ pa lg wr, s.walk ctx va.toNat write = .ok pa lg wr →
      let e : Tlb := { ctx := ctx, page := va.toNat / 2 ^ lg, log2 := lg, pa := pa, wr := wr }
      ∃ u, exec (.tableWalkComplete who ctx va write) s = .next (s.after u) ∧ u = { s with xlt := u.xlt } ∧
        u.xlt.sharedTlb = sharedPut s.xlt.sharedTlb e ∧ u.tlbFind none ctx va.toNat = some e ∧
        (∀ c p, requesterCore who = some c → s.physOf c.val = some p → sget [] u.xlt.coreTlb p = tlbPut 64 (sget [] s.xlt.coreTlb p) e)) ∧
    (∀ code cause, s.walk ctx va.toNat write = .fail code cause →
      exec (.tableWalkComplete who ctx va write) s = .next (s.after (s.accessFails who { code := code, cause := cause, va := va.toNat }))) ∧
    (∀ table, s.walk ctx va.toNat write = .lost table → exec (.tableWalkComplete who ctx va write) s =
      .next (s.after (s.accessFails who { code := eHbmDetect, cause := 2, va := va.toNat, pa := table })))

/-- 14 R413: the state copy of a fence ends: the spare takes the role, the fenced core is marked and the fence is counted and EV_CORE_FENCED is logged; the copy of a swap gives
the role and starts the test of the core that gave it (15 R444). -/
def Obligations.TakeoverEnds : Prop :=
  ∀ (s : State) (set : Fin 8) (x : Takeover), (s.err.takeovers.find? fun t => t.set == set) = some x →
    let role := s.role set.val x.src.val
    let u := ({ s with err := { s.err with takeovers := s.err.takeovers.filter fun t => t.set != set } } : State).setRole set.val x.dst.val role
    (x.why = .fence → exec (.takeoverCopyComplete set []) s = .next (s.after ((({ u with err := { u.err with fences := satInc u.err.fences } } : State).setRole set.val x.src.val 9).log
      { code := evCoreFenced, source := 5, cls := 2, outcome := 4, kind := 1, unit := .ofNat 12 ((9 * set.val + x.src.val) / 9 * 256 + (9 * set.val + x.src.val) % 9 * 16) }))) ∧
    (x.why = .swap → exec (.takeoverCopyComplete set []) s =
      .next (s.after (({ u with tst := { u.tst with swaps := u.tst.swaps + 1 } } : State).startTest set.val x.src .swap)))

/-- 14 R423-R426: SHADOW_COMPARE completes. A shadow's signature that agrees only ends the compare; one that differs counts, marks the suspects, stops the launch
with E_SHADOW_MISMATCH and drains the device. A signature that no compare waits for does nothing. -/
def Obligations.ShadowCompares : Prop :=
  ∀ (s : State) (c : Fin 64) (i : Nat) (sh ar : BitVec 64),
    ((s.err.shadows.find? fun x => x.core == c && x.index == i) = none → exec (.shadowCompare c i sh ar) s = .next (s.after s)) ∧
    ∀ x, (s.err.shadows.find? fun x => x.core == c && x.index == i) = some x →
      let u : State := { s with err := { s.err with shadows := s.err.shadows.erase x } }
      (sh = x.sig → exec (.shadowCompare c i sh ar) s = .next (s.after u)) ∧
      (sh ≠ x.sig → exec (.shadowCompare c i sh ar) s = .next (s.after (u.mismatch x sh ar)) ∧
        (s.err.drained = false → (u.mismatch x sh ar).err.drained = true ∧ (u.mismatch x sh ar).err.flagged = true ∧
          (u.mismatch x sh ar).err.shadowMiss = satInc s.err.shadowMiss ∧ (u.mismatch x sh ar).launchOf x.qid = none))
/-! ### Launches -/

/-- 04 R103, R135, 01 R25: LAUNCH_RESIDENT gives free cores to the next launch. A saved one starts its restore. One that takes the cores for the
first time finds every core as R103 says, and joins its launch barrier with its entry. (Here no other collective is under way and none of its job's
entries or aborts has come.) While the cores are taken, or no launch waits, or the device is drained, nothing happens. -/
def Obligations.Residency : Prop :=
  ∀ s : State,
    (s.nextLaunch = none ∨ s.coresFree = false ∨ s.err.drained = true → exec .launchResident s = .next s) ∧
    ∀ l, s.nextLaunch = some l → s.coresFree = true → s.err.drained = false →
      (l.cond = .saved → exec .launchResident s = .next { s with restoring := some l.qid }) ∧
      ∀ i x, l.cond ≠ .saved → s.imageOf l = some i → s.schedOf l = some x → s.col.colls = [] → (∀ e ∈ s.col.early, e.1 ≠ l.jobTag) →
        (∀ a ∈ s.col.aborts, a.1 ≠ l.jobTag) →
        ∃ t c, exec .launchResident s = .next t ∧
          t.launches = (s.launches.map fun m => if m.qid = l.qid then { m with cond := .resident, run := .barrier } else m) ∧
          (∀ n, n < 64 → t.core n = freshCore (i.coreOf n) x.self.toNat l.members l.args) ∧ t.barPassed = 0 ∧ t.col.colls = [c] ∧
          c.jobTag = l.jobTag ∧ c.collId = 0xFFF ∧ c.entries = [barrierEntry l x (.ofNat 12 ((s.memberOf x l.lead).getD 0))] ∧
          t.hbm = s.hbm ∧ t.qce = s.qce

/-- 01 R25, 11 R334: when the root has every entry it broadcasts the start beat S = B + 16, and each member begins at the boundary of S and not before; the links
in standby that its epoch uses enter service then. A barrier whose deadline passes first stops the launch with E_COLL_TIMEOUT. -/
def Obligations.LaunchBegins : Prop :=
  ∀ (s : State) (l : Launch), s.resident = some l →
    (∀ (x : Sched) (c : Coll) (start : Dword), s.schedOf l = some x → s.collOf l.jobTag 0xFFF = some c → l.run = .barrier →
      let g := s.geo x (c.group x) ((s.memberOf x l.lead).getD 0)
      let goes (b : Dword) : State :=
        ((s.dropColl c).sendControl x (c.group x) l.jobTag 0xFFF g.sends (.start b)).modLaunch l.qid fun m => { m with run := .starting, goAt := some b }
      (c.hasAll x = true → c.failure = none →
        (s.memberOf x l.lead = some x.self.toNat → exec (.launchBarrierComplete start) s = .next (goes (s.fab.cnt + 16))) ∧
        (s.memberOf x l.lead ≠ some x.self.toNat → exec (.launchBarrierComplete start) s = .next (goes start))) ∧
      (c.hasAll x = false → exec (.launchBarrierComplete start) s = .next s) ∧
      (c.counted < l.deadline → exec .launchBarrierTimeout s = .next s) ∧
      (l.deadline ≤ c.counted → exec .launchBarrierTimeout s = .next (s.after (((s.sendAbort l c eCollTimeout (c.missing x)).dropColl c).stop l
        { code := eCollTimeout, source := 1, pc := (s.core c.core.val).flightPc c.serial, detail := (c.missing x).setWidth 64 })))) ∧
    ∀ g, l.goAt = some g → l.run = .starting → l.start = none →
      (s.fab.cnt < g → exec .launchStart s = .next s) ∧
      (g ≤ s.fab.cnt → ∃ t, exec .launchStart s = .next t ∧
        t.launches = (s.launches.map fun m =>
          if m.qid = l.qid then { m with run := .running, start := some g, goAt := none, suspended := none } else m) ∧
        t = { s with launches := t.launches, fab := t.fab, out := t.out } ∧ t.fab.cnt = s.fab.cnt ∧
        ∀ p, (s.port p).state ≠ .standby → { t.port p with childHold := (s.port p).childHold } = s.port p)

/-- 04 R135, R136: the save moves the halted launch's state out of the cores; the restore puts back the same bits, and the launch goes on with S grown by
the boundaries that it missed (here nothing of it was halted and no collective of its job is under way). -/
def Obligations.SaveRestore : Prop :=
  ∀ (s : State) (q : BitVec 12),
    (s.saving = some q → exec .launchSaveComplete s = .next (s.after { s with
      saving := none, cores := [], barPassed := 0, launches := s.launches.map fun m => if m.qid = q then
        { m with cond := .saved, saved := s.cores, barPassed := s.barPassed, suspended := m.suspended.or (some s.fab.cnt) } else m })) ∧
    ∀ l : Launch, s.restoring = some q → s.launchOf q = some l → l.barrierDue = false → l.start ≠ none → s.resident = none →
      s.saving = none → (∀ c ∈ s.col.colls, c.jobTag ≠ l.jobTag) →
      (∀ e ∈ l.saved, e.2.eng = [] ∧ ∀ f ∈ e.2.flight, f.haltedAt = none) →
      exec .launchRestoreComplete s = .next { s with
        restoring := none, cores := l.saved, barPassed := l.barPassed,
        launches := s.launches.map fun m => if m.qid = q then { m with
          cond := .resident, saved := [], run := .running, resumeOrder := none, suspended := none,
          start := match m.suspended with | some k => m.start.map fun a => a + (s.fab.cnt - k) | none => m.start } else m
        qce := { s.qce with queues := smod {} s.qce.queues q.toNat fun x => { x with qstate := 1 } } }

/-! ### Collectives -/

/-- 12 R346, R347, R361, R366: an entry that comes before this member's own is kept; one of a collective in its count phase joins it, goes on around the rings,
and decides nothing while another is missing. An abort goes on in the same manner and fails the collective; it is kept for one that has not begun and whose
entry of the sender has come, and else only goes on. Neither comes over a port that is not in service. -/
def Obligations.CountPhase : Prop :=
  ∀ (s : State) (p : Fin 6) (tag : Word) (id : BitVec 12) (x : Sched), s.jobSched tag = some x →
    let me := x.pos x.self.toNat
    (∀ (e : CEntry) (det : List Bool),
      let g := entryGroup e
      let from' := x.pos e.member.toNat
      let here := s.portUp p = true ∧ g.has me = true ∧ g.has from' = true
      let sent := s.sendControl x g tag id (s.spreads x g e.member) (.entry e)
      let run := exec (.countPhaseEntry p tag id e det) s
      let keep : State := { sent with col := { s.col with early := s.col.early ++ [(tag, id, e)] } }
      let first := ∀ q ∈ s.col.early, q.1 = tag → q.2.1 = id → q.2.2.member ≠ e.member
      (¬here → run = .next s) ∧
      (here → s.col.colls = [] → e.again = false → (first → run = .next keep) ∧ (¬first → run = .next sent)) ∧
      ∀ c, here → s.col.colls = [c] → c.jobTag = tag → c.collId = id → c.phase = .count → c.failure = none →
        (c.epoch ≠ x.epoch → first → ∀ l, s.jobLaunch tag = some l → s.schedOf l = some x → c.hasAll x = false → run = .next keep) ∧
        (c.epoch = x.epoch → (∀ q ∈ c.entries, q.member ≠ e.member) → ({ c with entries := c.entries ++ [e] } : Coll).hasAll x = false →
          ∀ l, s.jobLaunch tag = some l → s.schedOf l = some x →
          run = .next { sent with col := { s.col with colls := [{ c with entries := c.entries ++ [e] }] } })) ∧
    ∀ a : CAbort,
      let g := groupOf a.origin a.sides
      let here := s.portUp p = true ∧ g.has me = true ∧ g.has (x.pos a.sender.toNat) = true
      let sent := s.sendControl x g tag id (s.spreads x g a.sender) (.abort a)
      let run := exec (.collAbortReceive p tag id a) s
      let due := (∃ q ∈ s.col.early, q.1 = tag ∧ q.2.1 = id ∧ q.2.2.member = a.sender) ∧ ∀ b ∈ s.col.aborts, ¬(b.1 = tag ∧ b.2.1 = id)
      (¬here → run = .next s) ∧
      (here → s.collOf tag id = none →
        (due → run = .next { sent with col := { s.col with aborts := s.col.aborts ++ [(tag, id, a.code, a.culprit)] } }) ∧ (¬due → run = .next sent)) ∧
      ∀ c l, here → s.collOf tag id = some c → c.failure = none → s.jobLaunch tag = some l → l.run = .running → c.isBarrier = false → c.desc.onFail = false →
        run = .next (s.after (((sent.dropColl c).recordFailure c a.code a.culprit).stop l
          { code := a.code, core := some c.core.val, pc := (s.core c.core.val).flightPc c.serial, source := 1, detail := a.culprit.setWidth 64 }))

/-- 12 R353, R355, R357, R360, R367: a chunk waits until its member is in its data phase, its engines have room and carry it; a broadcast's chunk that goes no
further is written to its place in the destination, and no other byte of that store changes. When every element is written and every chunk sent the collective is
DONE: its record says so and its COLL completes. A deadline that has not passed, or whose launch a link loss suspends, does nothing; one that has passed fails the
collective and names the missing member, or the end of the chain of waits. (Here no other collective is in its data phase.) -/
def Obligations.CollectiveData : Prop :=
  ∀ (s : State) (l : Launch) (c : Coll) (x : Sched) (tag : Word) (id : BitVec 12), s.running = some l → l.jobTag = tag → s.collOf tag id = some c →
    s.schedOf l = some x → c.isBarrier = false → (∀ d ∈ s.col.colls, d.phase = .data → d.jobTag = tag ∧ d.collId = id) →
    let d := c.desc
    let k := s.core c.core.val
    let g := s.geo x d.group d.root.toNat
    (∀ p a r n data det, s.portUp p = false ∨ c.phase ≠ .data ∨ s.carries c = false ∨ s.engineRoom id = false →
      exec (.collChunkArrival p tag id a r n data det) s = .next s) ∧
    (∀ p a r (n : BitVec 24) data, s.portUp p = true → c.phase = .data → s.carries c = true → s.engineRoom id = true → data.length = 256 →
      n.toNat < c.chunks → d.reduce = false → d.dstMem = false → g.sends = [] →
      let w := fmtBytes d.fmt
      let at' := d.dst + n.toNat * d.perChunk * w
      let bs := data.take (c.inChunk n.toNat * w)
      ∃ t, exec (.collChunkArrival p tag id a r n data []) s = .next t ∧ s.onlyCore { t with col := s.col } c.core.val (k.ostWrite at' bs) ∧
        (t.core c.core.val).ostRead at' bs.length = bs ∧
        (∀ b m, b + m ≤ at' ∨ at' + bs.length ≤ b → (t.core c.core.val).ostRead b m = k.ostRead b m) ∧
        t.collOf tag id = some { c with got := smod 0 c.got (gotKey a r) (· + 1), written := c.written + c.inChunk n.toNat }) ∧
    (s.collAllDone x c = false → exec (.collComplete tag id) s = .next s) ∧
    (s.collAllDone x c = true → c.rerun = false → ∀ f, (k.flight.find? fun f => f.ins.serial == c.serial) = some f → f.marks = [] → f.ins.sg = none →
      ∃ t, exec (.collComplete tag id) s = .next t ∧ t.collOf tag id = none ∧ t.col.done = satInc s.col.done ∧
        (t.core c.core.val).lineWords c.line.toNat 11 = k.lineWords c.line.toNat 11 ∧
        (t.core c.core.val).dw c.line.toNat 11 = 0x48000000 ∧ (t.core c.core.val).dw c.line.toNat 12 = c.flags.setWidth 32 ∧
        (t.core c.core.val).dw c.line.toNat 13 = .ofNat 32 c.written ∧ (t.core c.core.val).dw c.line.toNat 14 = lo32 s.fab.cnt ∧
        (t.core c.core.val).flight = (k.flight.filter fun h => h.ins.serial != f.ins.serial) ∧
        (t.core c.core.val).flags = k.flags ||| f.flags ∧ ∀ j, j ≠ c.core.val → t.core j = s.core j) ∧
    (c.counted < d.deadline ∨ l.suspended ≠ none → exec (.collDeadlineExpiry tag id) s = .next s) ∧
    (∀ f, d.deadline ≤ c.counted → l.suspended = none → c.failure = none → d.onFail = true → c.rerun = false →
      (k.flight.find? fun f => f.ins.serial == c.serial) = some f → f.marks = [] → f.ins.sg = none →
      let cul := if c.phase = .count then c.missing x else s.chainEnd l x c
      ∃ t, exec (.collDeadlineExpiry tag id) s = .next t ∧ t.collOf tag id = none ∧ t.col.failed = satInc s.col.failed ∧
        t.col.lastCode = eCollTimeout ∧ t.col.lastCulprit = cul ∧
        (t.core c.core.val).dw c.line.toNat 11 = .ofNat 32 (5 * 2 ^ 28 + 0x0504) ∧
        (t.core c.core.val).dw c.line.toNat 12 = .ofNat 32 (cul.toNat * 2 ^ 20 + c.flags.toNat) ∧
        (t.core c.core.val).flight = k.flight.filter fun h => h.ins.serial != f.ins.serial)

/-! ### Links -/

/-- 11 R313, R314, R317: an intact flit of the expected number is acknowledged and, if it is for another device, goes on; one that has come before is acknowledged
again, one out of turn is discarded, and a damaged one is answered with a NAK of the number expected. ACK frees the named flit and those before it, and one that
waited for room leaves; NAK sends the named one and those after it again, in order, and the 17th try takes the link down. -/
def Obligations.Flits : Prop :=
  ∀ (s : State) (p : Fin 6), (s.port p).state = .up →
    let q := s.port p
    (∀ (f : Flit) (seq : BitVec 12), f.data.length = 256 → f.cls = 1 ∨ f.cls = 2 →
      let u := (s.modPort p fun q => { q with rxSeq := q.rxSeq + 1, discarding := false }).emit (.sym p (.ack seq))
      let run := exec (.flitReceive p (f.bytes seq)) s
      (seq = q.rxSeq → f.dst ≠ s.devid → run = .next (u.pushFlit (u.transitPort p f.dst.toNat) f)) ∧
      (seq = q.rxSeq → f.dst = s.devid → f.cls = 2 ∨ f.chunk ≠ 0xFFFFFF → run = .next u) ∧
      (seq = q.rxSeq → f.dst = s.devid → f.cls = 1 → f.chunk = 0xFFFFFF → run = .next (u.takeWaits f.tag f.data)) ∧
      (seq ≠ q.rxSeq → run = .next (if (q.rxSeq - 1 - seq).toNat < 512 then s.emit (.sym p (.ack seq)) else s))) ∧
    (∀ bs, bs.length ≠ 272 ∨ leNat (bs.take 4) / 2 ^ 30 = 3 ∨ leNat (bs.drop 268) ≠ (crc32c (bs.take 268)).toNat →
      exec (.flitReceive p bs) s = .next ((s.modPort p fun q => { q with discarding := true }).emit (.sym p (.nak (.flit q.rxSeq))))) ∧
    ∀ a seq b rest n, q.replay = a ++ (seq, b) :: rest → (∀ f ∈ a, f.1 ≠ seq) →
      (∀ det, s.col.colls = [] →
        (q.backlog = [] → exec (.linkAck p seq det) s = .next (s.modPort p fun q => { q with replay := rest, tries := 0 })) ∧
        ∀ f, q.backlog = [f] → rest.length < 512 → exec (.linkAck p seq det) s =
          .next ((s.modPort p fun q => { q with replay := rest ++ [(q.txSeq, f)], tries := 0, txSeq := q.txSeq + 1, backlog := [] }).emit
            (.flit p (f.bytes q.txSeq)))) ∧
      (q.backlog = [] → a ≠ [] ∨ q.tries < 16 → ∃ u, exec (.linkNak p (.flit seq) n) s = .next (s.after u) ∧
        u.port p = { q with replay := (seq, b) :: rest, tries := if a = [] then q.tries + 1 else 1, retries := (u.port p).retries } ∧
        u.out = s.out ++ ((seq, b) :: rest).map (fun f => .flit p (f.2.bytes f.1)) ∧ ∀ x, x ≠ p → u.port x = s.port x) ∧
      (a = [] → 16 ≤ q.tries → exec (.linkNak p (.flit seq) n) s = .next (s.after (s.linkDown p)))

/-- 11 R315, R334: a lane that fails is spared and its far end told where to switch; LANE switches this end; with the spare taken, or two lanes of a port
that lost lock, the link goes down, be it in service or in standby.
11 R316, R324, R331: a port that hears no control symbol for 2 us goes down; its link is lost and counted.
Each end sends a control symbol of its own, and a port in service takes its delay anew. -/
def Obligations.LanesAndLinks : Prop :=
  (∀ (s : State) (p : Fin 6) (lane : Fin 9) (seq : BitVec 12), (s.port p).state = .up ∨ (s.port p).state = .standby →
    let q := s.port p
    let r (n : BitVec 12) (q : Port) : Port :=
      { q with spareUsed := true, failedLane := .ofNat 4 lane.val, switch := some (lane, n), spared := satInc q.spared }
    let n := ((s.modPort p (r q.txSeq)).emit (.sym p (.lane lane q.txSeq))).noteEvent 5 (p.val * 16 + lane.val)
    let info : RecInfo := { code := evLaneSpared, source := 1, kind := 5, unit := .ofNat 12 (p.val * 256 + lane.val), detail := .ofNat 64 s.devid.toNat }
    (q.spareUsed = false → n.2 = false → exec (.laneFail p [lane] false) s = .next (s.after (n.1.log { info with cls := 1 }))) ∧
    (q.spareUsed = false → n.2 = true → exec (.laneFail p [lane] false) s =
      .next (s.after ((n.1.modPort p fun q => { q with permanent := some lane }).log { info with cls := 2 }))) ∧
    (q.spareUsed = true → exec (.laneFail p [lane] false) s = .next (s.after (s.linkDown p))) ∧
    (∀ a b l, exec (.laneFail p (a :: b :: l) true) s = .next (s.after (s.linkDown p))) ∧
    (q.spareUsed = false → exec (.lane p lane seq) s = .next (s.after (s.modPort p (r seq)))) ∧
    (q.spareUsed = true → q.failedLane.toNat ≠ lane.val → exec (.lane p lane seq) s = .next (s.after (s.linkDown p)))) ∧
  (∀ (s : State) (p : Fin 6) (d : BitVec 16),
    let q := s.port p
    let k : LinkId := ⟨s.devid, p⟩
    let live := q.state = .up ∨ q.state = .standby
    (¬live → exec (.controlSymbolTimeout p) s = .next (s.after s)) ∧
    (live → ∃ u, exec (.controlSymbolTimeout p) s = .next (s.after u) ∧ (u.port p).state = .down ∧ (u.port p).downs = satInc q.downs ∧
      (u.port p).replay = [] ∧ u.fab.dead = (if s.hasLink s.fab.dead k then s.fab.dead else s.fab.dead ++ [k]) ∧ s.hasLink u.fab.standby k = false) ∧
    (live → exec (.controlSymbolSend p) s = .next (s.emit (.sym p .idle))) ∧
    (¬live → exec (.controlSymbolSend p) s = .next s) ∧
    (q.state = .up → exec (.delayRemeasure p d) s = .next (s.modPort p fun q => { q with delta := d })) ∧
    (q.state ≠ .up → exec (.delayRemeasure p d) s = .next s))

/-- 00 R8, 11 R312, R317, R323, R334: training leaves each port up, in standby, down or unused; the live-link map grows by what a neighbour adds and goes on to
the others; a management symbol for another device goes on toward it, and one for this device is kept until all of its message has come. -/
def Obligations.TrainingAndMaps : Prop :=
  (∀ (s : State) (rs : List TrainResult),
    (s.fab.retraining = false → exec (.fabricTrainingComplete rs) s = .next (s.after s)) ∧
    (s.fab.retraining = true → s.devidValid = true →
      (∀ (p : Fin 6) shape coord delta, rs.getD p.val .noLink = .linked shape coord delta → ∀ n, s.nbrOf s.devid.toNat p.val = some n →
        shape = shapeNibbles (s.fab.trained.getD 0) ∧ coord = coordNibbles n ∧ delta.toNat ≤ 6000) →
      ∃ t, exec (.fabricTrainingComplete rs) s = .next (s.after t) ∧ t.devid = s.devid ∧ t.fab.retraining = false ∧
        (s.sec.stage = 6 → t.sec.fabricDone = true) ∧ ∀ p : Fin 6,
          (s.nbrOf s.devid.toNat p.val = none → (t.port p).state = .unused) ∧
          (∀ n, s.nbrOf s.devid.toNat p.val = some n →
            (rs.getD p.val .noLink = .noLink → (t.port p).state = .down) ∧
            (∀ shape coord delta, rs.getD p.val .noLink = .linked shape coord delta →
              (t.port p).state = (if s.wasLost p n then .standby else .up) ∧ (t.port p).nbr = .ofNat 12 n ∧ (t.port p).delta = delta)))) ∧
  (∀ (s : State) (p : Fin 6) (ids : List (BitVec 12)) (dead untrained : List LinkId) (k : LinkId) (id : BitVec 12),
    let new := ids.filter fun i => !s.fab.liveIds.contains i
    let lost := dead.filter fun d => !s.hasLink s.fab.dead d
    let out := untrained.filter fun d => !s.hasLink s.fab.untrained d && !s.hasLink s.fab.dead d
    (s.linkPorts.contains p = false → ∀ m, exec (.link p m) s = .next (s.after s)) ∧
    (s.linkPorts.contains p = true →
      exec (.link p (.loss k)) s = .next (s.after (s.learnLoss k (some p))) ∧
      exec (.link p (.standby k)) s = .next (s.after (s.learnStandby k (some p))) ∧
      exec (.link p (.service k)) s = .next (s.after (s.learnService k (some p))) ∧
      exec (.link p (.left id)) s = .next (s.after (s.learnLeft p id)) ∧
      ((∀ k ∈ dead ++ untrained, s.ownPorts k = []) → ∃ u, exec (.link p (.live ids dead untrained)) s = .next (s.after u) ∧
        u.fab.liveIds = s.fab.liveIds ++ new ∧ u.fab.dead = s.fab.dead ++ lost ∧ u.fab.untrained = s.fab.untrained ++ out ∧
        (new ≠ [] ∨ lost ≠ [] ∨ out ≠ [] → ∀ q, s.linkPorts.contains q = true → q ≠ p → Out.sym q (.link u.mapMsg) ∈ u.out)))) ∧
  (∀ (s : State) (p : Fin 6) (src dst : BitVec 12) (i n : BitVec 4) (bs : List Byte),
    (s.portUp p = false → exec (.mgmt p src dst i n bs) s = .next (s.after s)) ∧
    (s.portUp p = true →
      (dst ≠ s.devid → ∀ q, s.portToward dst.toNat = some q → exec (.mgmt p src dst i n bs) s = .next (s.after (s.emit (.sym q (.mgmt src dst i n bs))))) ∧
      (dst = s.devid → n ≠ 0 → (∀ m ∈ s.fab.mgmt, m.1 ≠ src) →
        exec (.mgmt p src dst i n bs) s = .next (s.after { s with fab := { s.fab with mgmt := s.fab.mgmt ++ [(src, i, bs)] } })) ∧
      (dst = s.devid → (∀ m ∈ s.fab.mgmt, m.1 ≠ src) → ∀ dev held power cap ser, Config.reportOf bs = some (dev, held, power, cap, ser) →
        s.coordinates = true → exec (.mgmt p src dst 0 0 bs) s =
          .next (s.after { s with pwr := { s.pwr with reports := sset ⟨0, 0, 0, 0⟩ s.pwr.reports dev ⟨held, power, cap, ser⟩ } }))))

/-! ### The beat -/

/-- 11 R324, R326, R328: the first BEAT of a boundary sets its countdown and goes on, twice, to the children; when both copies fail, NAK asks for it and it is
sent again; the leader announces the next boundary unless a HOLD reaches it, and says STRETCH while one does. -/
def Obligations.Announcements : Prop :=
  ∀ (s : State) (p : Fin 6) (b : BeatSym) (k : Dword) (n e : Nat) (holder : BitVec 12),
    let twice (u : State) (y : Sym) : State := (u.symOn u.treeChildren y).symOn u.treeChildren y
    let cost := (s.port p).delta.toNat + 384
    let a : Announced := { k := b.k, remaining := b.remaining - cost, loss := [], handover := b.handover, stretch := b.stretch }
    let mine : Announced := { k := s.nextK, remaining := s.fab.aLead.toNat * 240, loss := s.toMark, handover := s.fab.handoverNext,
                              stretch := if e = 0 then none else some ((s.fab.lastStretch.map (·.1)).getD s.devid, e) }
    let add (x : Announced) (u : State) : State :=
      { u with fab := { u.fab with announced := u.fab.announced ++ [x], lastK := x.k, lastStretch := none } }
    (s.portUp p = false → exec (.beat p (some b)) s = .next (s.after s) ∧ exec (.beat p none) s = .next (s.after s) ∧
      exec (.stretch p k holder e) s = .next s ∧ exec (.linkNak p .beat n) s = .next (s.after s)) ∧
    (s.portUp p = true →
      (b.k ≤ s.fab.cnt ∨ (∃ a ∈ s.fab.announced, b.k ≤ a.k) → exec (.beat p (some b)) s = .next (s.after s)) ∧
      (s.fab.cnt < b.k → (∀ a ∈ s.fab.announced, a.k < b.k) → cost ≤ b.remaining → b.loss = [] → exec (.beat p (some b)) s =
        .next (s.after (twice (add a s) (.beat { b with remaining := b.remaining - cost })))) ∧
      exec (.beat p none) s = .next (s.after (s.emit (.sym p (.nak .beat)))) ∧
      (∀ x, s.fab.announced.getLast? = some x → exec (.linkNak p .beat n) s =
        .next (s.after ((s.emit (.sym p (.beat { x.sym with remaining := n }))).emit (.sym p (.beat { x.sym with remaining := n }))))) ∧
      (s.fab.cnt < k → s.fab.lastStretch ≠ some (holder, e) → exec (.stretch p k holder e) s =
        .next (twice { s with fab := { s.fab with lastStretch := some (holder, e) } } (.stretch k holder e))) ∧
      (k ≤ s.fab.cnt ∨ s.fab.lastStretch = some (holder, e) → exec (.stretch p k holder e) s = .next s)) ∧
    ((s.fab.isLeader && s.fab.live) = false ∨ s.lowestHolder ≠ none → exec (.beatAnnounce e) s = .next (s.after s)) ∧
    (s.fab.isLeader = true → s.fab.live = true → s.lowestHolder = none → exec (.beatAnnounce e) s =
      .next (s.after (twice (add mine { s with fab := { s.fab with handoverNext := none } }) (.beat mine.sym)))) ∧
    (s.fab.isLeader = true → s.fab.live = true → s.lowestHolder = some holder → exec (.stretchSend e) s =
      .next (twice { s with fab := { s.fab with lastStretch := s.fab.lastStretch.map fun b => (b.1, e) } } (.stretch s.nextK holder e))) ∧
    ((s.fab.isLeader && s.fab.live) = false ∨ s.lowestHolder = none → exec (.stretchSend e) s = .next s)

/-- 04 R118, 11 R326, R327, R329: from its check point on a device whose cores owe an obligation holds the boundary, and the lowest holder goes up the tree; a
boundary that nothing holds passes at its time and one that is held does not; after the hold limit the leader's LIMIT stops the launch of a core that holds. -/
def Obligations.Holding : Prop :=
  (∀ s : State, s.lowestHolder = none →
    let v : State := { s with fab := { s.fab with checkedTo := (if s.fab.checkedTo < s.fab.cnt then s.fab.cnt else s.fab.checkedTo) + 1 } }
    (v.asserted = [] → exec .checkPoint s = .next v) ∧
    (v.asserted ≠ [] →
      let sets : Sparse (BitVec 8) :=
        v.asserted.foldl (fun (t : Sparse (BitVec 8)) (o : Nat × Dword) => smod 0 t o.2.toNat fun m => m ||| (1#8 <<< (o.1 / 8))) s.fab.heldSets
      let u : State := { v with fab := { v.fab with holding := true, heldSets := sets } }
      ∀ q h, u.treeParent = some q → u.lowestHolder = some h → exec .checkPoint s = .next (u.emit (.sym q (.hold true h)))) ∧
    ∀ p h, (s.portUp p = false → exec (.hold p true h) s = .next s) ∧
      let u := s.modPort p fun q => { q with childHold := some h }
      (s.portUp p = true → u.lowestHolder = some h → ∀ q, u.treeParent = some q → exec (.hold p true h) s = .next (u.emit (.sym q (.hold true h))))) ∧
  (∀ (s : State) (a : Announced) (rest : List Announced) (skew held : Nat), s.fab.announced = a :: rest → (∀ x ∈ s.fab.announced, x.due = false) →
    a.handover = none → a.loss = [] →
    (s.resident = none → s.heldObls = [] → ∃ u, exec (.beatBoundary skew held) s = .next (s.after u) ∧
      u.fab.cnt = a.k ∧ u.fab.announced = rest ∧ u.fab.checkedTo = (if s.fab.checkedTo < a.k then a.k else s.fab.checkedTo) ∧ u.fab.late = s.fab.late ∧
      u.fab.holdTime = s.fab.holdTime + .ofNat 32 held ∧ (∀ c, (s.core c).eng = [] → u.core c = s.core c) ∧ u.hbm = s.hbm) ∧
    (s.holders ≠ [] → s.fab.cnt < a.k → ∃ u, exec (.beatBoundary skew held) s = .next (s.after u) ∧
      u.fab.cnt = s.fab.cnt ∧ u.fab.announced = { a with due := true } :: rest ∧ u.fab.holding = true ∧ u.cores = s.cores)) ∧
  (∀ (s : State) (p : Fin 6) (k : Dword) (n : Nat),
    let told := s.symOn s.treeChildren (.limit k)
    (s.portUp p = false → exec (.limit p k) s = .next s) ∧
    (s.portUp p = true → s.fab.holding = false ∨ s.resident = none ∨ (∀ o ∈ s.residentHolds, o.2 ≠ k) → exec (.limit p k) s = .next told) ∧
    (s.lowestHolder = none ∨ n < 100 * (if s.fab.holdLimit = 0 then 65536 else s.fab.holdLimit.toNat) → exec (.holdLimitExpiry n) s = .next s) ∧
    ∀ l o, s.resident = some l → (s.residentHolds.find? fun o => o.2 == k) = some o → s.fab.holding = true →
      let stops := told.stop l { code := eBeatHoldLimit, core := some o.1, pc := (s.core o.1).pc, source := 1, kind := 8, detail := s.fab.cnt }
      (s.portUp p = true → exec (.limit p k) s = .next (s.after stops)) ∧
      (s.fab.isLeader = true → s.fab.live = true → k = s.nextK → 100 * (if s.fab.holdLimit = 0 then 65536 else s.fab.holdLimit.toNat) ≤ n →
        exec (.holdLimitExpiry n) s = .next (s.after stops)))

/-- 11 R323: a device that hears no beat calls an election with its id; the lowest id goes on until it is stable, and its device leads. A leader hands over
to a live device of a lower id with the next boundary it announces. -/
def Obligations.Leaders : Prop :=
  ∀ (s : State) (p : Fin 6) (id : BitVec 12) (b : Dword),
    let saying (e : BitVec 12 × Dword) : State :=
      ({ s with fab := { s.fab with election := some e, isLeader := false } } : State).symOn s.upPorts (.elect e.1 e.2)
    (s.fab.live = true → s.fab.election = none → exec .electionTimeout s = .next (saying (s.devid, s.fab.cnt))) ∧
    (s.fab.live = false ∨ s.fab.election ≠ none → exec .electionTimeout s = .next s) ∧
    (s.portUp p = false → exec (.elect p id b) s = .next s) ∧
    (∀ e, s.fab.election = some e →
      (e.1 ≤ id → b ≤ e.2 → exec (.elect p id b) s = .next s) ∧
      (s.portUp p = true → id < e.1 → exec (.elect p id b) s = .next (saying (id, if e.2 < b then b else e.2))) ∧
      (s.portUp p = true → e.1 ≤ id → e.2 < b → exec (.elect p id b) s = .next (saying (e.1, b))) ∧
      ∃ t, exec .electionEnd s = .next t ∧ t = { s with fab := t.fab, out := t.out } ∧ t.fab.election = none ∧ t.fab.leader = e.1 ∧
        (t.fab.isLeader = true ↔ e.1 = s.devid ∧ s.fab.live = true) ∧ t.fab.lastK = if s.fab.lastK < e.2 then e.2 else s.fab.lastK) ∧
    (s.fab.election = none → exec .electionEnd s = .next s) ∧
    (s.fab.isLeader = true → s.fab.live = true → id < s.devid → s.fab.liveIds.contains id = true →
      exec (.leaderHandover id) s = .next { s with fab := { s.fab with handoverNext := some id } }) ∧
    (s.fab.isLeader = false ∨ s.devid ≤ id → exec (.leaderHandover id) s = .next s)

/-! ### Power -/

/-- 16 R463-R470: each 10 us a tick takes the calibrated estimate and, over the limit with a set above point 0, lowers a set; 1 ms of pacing appends
E_CAP_FLOOR; a window whose measured power is 2 % over the limit lowers every set; droops are counted.
16 R472: a set's ceiling falls at 100 C, or when a stack is at 90 C, and rises at a tenth step when it is at 96 C or less and every stack at 86 C or
less; a trip at 105 C, or of a stack at 95 C, is logged once and released by a reading of 95 C, or of all stacks at 88 C. -/
def Obligations.PowerControl : Prop :=
  (∀ (s : State) (i : Fin 8),
    (∀ smp : PowerSample, let raw := smp.raw.foldl (· + ·) 0 + smp.fixed
      let ten := ((s.pwr.calibrate raw) :: s.pwr.lastTen).take 10
      ∃ u, exec (.powerTick smp) s = .next (s.after u) ∧ u.pwr.estRaw = raw ∧ u.pwr.estCal = s.pwr.calibrate raw ∧ u.pwr.lastTen = ten ∧
        u.pwr.limit = s.pwr.limit ∧ (∀ j, j < 8 → (u.pset j).est = smp.raw.getD j 0) ∧
        (ten.foldl (· + ·) 0 > s.pwr.limit * ten.length → (∃ j, j < 8 ∧ (s.pset j).point ≠ 0) →
          u.pwr.pace = s.pwr.pace ∧ ∃ j, j < 8 ∧ (s.pset j).point ≠ 0 ∧ (u.pset j).lowerDue = true ∧ (u.pset j).raising = false ∧
            ∀ n, n < 8 → n ≠ j → (u.pset n).lowerDue = (s.pset n).lowerDue ∧ (u.pset n).raising = (s.pset n).raising) ∧
        (ten.foldl (· + ·) 0 > s.pwr.limit * ten.length → (∀ j, j < 8 → (s.pset j).point = 0) →
          u.pwr.pace = if s.pwr.pace ≤ 1 then 1 else s.pwr.pace - 1)) ∧
    (s.pwr.paceTicks < 100 → exec .capFloor s = .next (s.after s)) ∧
    (100 ≤ s.pwr.paceTicks → s.pwr.lastFloor = none → exec .capFloor s = .next (s.after
      (({ s with pwr := { s.pwr with lastFloor := some s.pwr.ticks } } : State).log { code := eCapFloor, source := 4, kind := 8 }))) ∧
    (∀ vin pin, ∃ t, exec (.measurementWindow (some (vin, pin))) s = .next t ∧ t = { s with pwr := t.pwr } ∧ t.pwr.vin = vin ∧ t.pwr.pin = pin ∧
      t.pwr.windowRaw = 0 ∧ 27853 ≤ t.pwr.gain ∧ t.pwr.gain ≤ 37683 ∧ -600 ≤ t.pwr.offset ∧ t.pwr.offset ≤ 600 ∧
      (pin * 100 > s.pwr.limit * 102 → ∀ j, j < 8 → (t.pset j).lowerDue = true)) ∧
    exec (.measurementWindow none) s = .next { s with pwr := { s.pwr with windowRaw := 0 } } ∧
    ∃ t u v, exec (.voltageSettled i) s = .next t ∧ exec (.droopDetect i) s = .next u ∧ exec (.droopRelease i) s = .next v ∧
      t.pset i.val = (if (s.pset i.val).raising then { s.pset i.val with settled := true } else s.pset i.val) ∧
      u.pset i.val = { s.pset i.val with droop := satInc (s.pset i.val).droop, drooping := true } ∧
      v.pset i.val = { s.pset i.val with drooping := false } ∧
      ∀ w, w = t ∨ w = u ∨ w = v → w = { s with pwr := { s.pwr with sets := w.pwr.sets } } ∧ ∀ j, j ≠ i.val → w.pset j = s.pset j) ∧
  (∀ (s : State) (i : Fin 8) (j : Fin 4) (n : Nat),
    (∀ (tenth : Bool) (tj hbm : List Nat), ∃ t, exec (.thermalCeilingStep tenth tj hbm) s = .next t ∧ t = { s with pwr := t.pwr } ∧ ∀ c, c < 8 →
      let p := s.pset c
      let at' := tj.getD c 0
      ((100 ≤ at' ∨ ∃ x ∈ hbm, 90 ≤ x) → (t.pset c).ceiling = if p.ceiling = 0 then 0 else p.ceiling - 1) ∧
      (at' ≤ 96 → (∀ x ∈ hbm, x ≤ 86) → (t.pset c).ceiling = if tenth = true ∧ p.ceiling ≠ 7 then p.ceiling + 1 else p.ceiling) ∧
      (at' < 100 → 96 < at' → (∀ x ∈ hbm, x < 90) → (t.pset c).ceiling = p.ceiling)) ∧
    (let u := s.modSet i.val fun p => { p with tj := temp8 n }
     let info : RecInfo := { code := eThermalTrip, source := 4, kind := 8 }
     let hot := s.modPwr fun p => { p with temps := sset 0 p.temps j.val (temp8 n) }
     (n < 105 ∨ (s.pset i.val).tripped = true → exec (.thermalTrip (.set i) n) s = .next (s.after u)) ∧
     (105 ≤ n → (s.pset i.val).tripped = false →
       exec (.thermalTrip (.set i) n) s = .next (s.after ((u.modSet i.val fun p => { p with tripped := true }).log info))) ∧
     (n ≤ 95 → (s.pset i.val).tripped = true → exec (.thermalTripRelease (.set i) n) s = .next (u.modSet i.val fun p =>
       { p with tripped := false, point := 0, lowerDue := false, raising := false, settled := false })) ∧
     (95 < n ∨ (s.pset i.val).tripped = false → exec (.thermalTripRelease (.set i) n) s = .next u) ∧
     (95 ≤ n → s.pwr.hbmTrip = false → exec (.thermalTrip (.hbm j) n) s = .next (s.after
       (((hot.modPwr fun p => { p with hbmTrip := true }).modSets fun p => { p with raising := false, settled := false }).log info))) ∧
     ((∀ k, k < 4 → (sget 0 hot.pwr.temps k).toNat ≤ 88) →
       exec (.thermalTripRelease (.hbm j) n) s = .next { hot with pwr := { hot.pwr with hbmTrip := false } })))

/-- 16 R473-R476: a coordinator's allocations never add up to more than the budget. GROUP_REPORT, GROUP_ALLOCATE, ALLOCATION_RECEIVE and ALLOCATION_FALLBACK
complete: a member reports the boundaries it held since its last report to its coordinator, over the fabric or to itself; the coordinator allocates to those that
reported, and the others keep their shares; a member takes an allocation at the next boundary, and falls back to its share when none comes. (A negative
allocation is sent as 0: the model's choice, entry 46 of the log.) -/
def Obligations.GroupBudgets : Prop :=
  (∀ (b : Int) (ms : List Member), ms ≠ [] ∨ 0 ≤ b → (∀ m ∈ ms, 600 ≤ m.cap) →
    ((allocate b ms).1.map (·.2)).sum + (allocate b ms).2 ≤ b ∧ (allocate b ms).1.map (·.1) = ms.map (·.dev)) ∧
  ∀ s : State,
    let held := (s.fab.held - s.pwr.heldMark).toNat
    let u : State := { s with pwr := { s.pwr with heldMark := s.fab.held, repSerial := s.pwr.repSerial + 1 } }
    let bytes := Config.reportBytes s.devid.toNat held s.pwr.pin s.pwr.cap.toNat s.pwr.repSerial
    (s.pwr.grpEn = false → exec .groupReport s = .next (s.after s) ∧ exec .groupAllocate s = .next (s.after s) ∧
      exec .allocationFallback s = .next (s.after s) ∧ ∀ a, exec (.allocationReceive a) s = .next s) ∧
    (s.pwr.grpEn = true →
      (s.pwr.coord = s.devid → exec .groupReport s = .next (s.after (u.deliverMgmt bytes))) ∧
      (∀ p, s.pwr.coord ≠ s.devid → s.portToward s.pwr.coord.toNat = some p → exec .groupReport s = .next (s.after (u.emitAll
        ((List.range ((bytes.length + 7) / 8)).map fun i => .sym p (.mgmt s.devid s.pwr.coord (.ofNat 4 i) (.ofNat 4 ((bytes.length + 7) / 8 - 1))
          ((bytes.drop (8 * i)).take 8)))))) ∧
      (∀ a : BitVec 16, exec (.allocationReceive a) s = .next { s with pwr := { s.pwr with nextAlloc := some a.toNat } }) ∧
      (s.pwr.lastBudget = none → exec .allocationFallback s = .next (s.after
        (({ s with pwr := { s.pwr with fallback := true, lastBudget := some s.pwr.ticks } } : State).log
          { code := evBudgetLimit, source := 4, kind := 8 }))) ∧
      (s.pwr.dueAgain s.pwr.lastBudget = false → exec .allocationFallback s = .next (s.after { s with pwr := { s.pwr with fallback := true } }))) ∧
    (s.coordinates = false → exec .groupAllocate s = .next (s.after s)) ∧
    (s.coordinates = true → (∀ e ∈ s.pwr.reports, e.1 < 4096) →
      let ms := s.pwr.reports.map fun e => (⟨e.1, e.2.held, e.2.power, e.2.cap⟩ : Member)
      let silent := s.pwr.allocs.filter fun e => !(ms.any fun m => m.dev == e.1)
      let r := allocate ((s.pwr.budget.toNat : Int) - ((silent.map (·.2)).sum : Nat)) ms
      ∃ t, exec .groupAllocate s = .next (s.after t) ∧ t.pwr.reports = [] ∧
        (∀ d, (∀ m ∈ ms, m.dev ≠ d) → sget 0 t.pwr.allocs d = sget 0 s.pwr.allocs d) ∧
        ∀ e ∈ r.1, (∀ f ∈ r.1, f.1 = e.1 → f = e) → sget 0 t.pwr.allocs e.1 = e.2.toNat ∧ (e.1 = s.devid.toNat → t.pwr.nextAlloc = some e.2.toNat))

/-- 16 R478, R480: the switch charges and closes; an overcurrent or a reverse current latches it off until the input has been absent for 1 s, the other
openings do not, and each leaves its cause; the module without power keeps what is in flash and fuses and the commands that wait. -/
def Obligations.InputStage : Prop :=
  ∀ s : State,
    let opens (c : Instr) (why : Opening) (latched present : Bool) : Prop :=
      (s.pwr.switch = .opened → exec c s = .next s) ∧
      (s.pwr.switch ≠ .opened → ∃ t, exec c s = .next t ∧ t.pwr.switch = .opened ∧ t.pwr.opening = why ∧ t.pwr.latched = latched ∧
        t.pwr.present = present ∧ t.sec.powered = false ∧ t.launches = [] ∧ t.cores = [] ∧ t.sec.flashA = s.sec.flashA ∧ t.sec.flashB = s.sec.flashB ∧
        t.sec.svn = s.sec.svn ∧ t.err.history = s.err.history ∧ t.hbm.remap = s.hbm.remap ∧ t.pending = s.pending)
    opens .inputOvercurrent .overcurrent true true ∧ opens .inputReverseCurrent .reverse true true ∧
    opens .inputOvervoltage .overvoltage false true ∧ opens .inputUndervoltage .undervoltage false false ∧
    (s.pwr.switch = .opened → s.pwr.latched = false → exec .inputCharge s = .next { s with pwr := { s.pwr with switch := .charging, present := true } }) ∧
    (s.pwr.switch ≠ .opened ∨ s.pwr.latched = true → exec .inputCharge s = .next s) ∧
    (s.pwr.switch = .charging → exec .inputChargeComplete s =
      .next { s with pwr := { s.pwr with switch := .closed }, sec := { s.sec with powered := true } }) ∧
    (s.pwr.switch ≠ .charging → exec .inputChargeComplete s = .next s) ∧
    (s.pwr.switch = .opened → exec .inputAbsentRelease s = .next { s with pwr := { s.pwr with latched := false, present := false } }) ∧
    (s.pwr.switch ≠ .opened → exec .inputAbsentRelease s = .next s)

/-! ### The host port -/

/-- 13 R370-R376, R379: packets for another address or from elsewhere are discarded and counted, one above the window is discarded whole; an ACK takes
acknowledgements and credit; a message ahead of a gap is held and acknowledged, a duplicate is acknowledged again and not carried out twice; packets are sent again
until the 16th try, whose expiry loses the endpoint; addresses are resolved for the device's own. (Here no COMPLETION waits for EVENTs.) -/
def Obligations.HostTransport : Prop :=
  (∀ (s : State) (h : Hdr) (c : Instr), (c = .ack h ∨ ∃ b, c = .regRead h b ∨ c = .regWrite h b ∨ c = .fence h b ∨ c = .launch h b) →
    (s.hostReady = false → exec c s = .next (s.after s)) ∧
    (s.hostReady = true → s.addressed h = false → exec c s = .next (s.after { s with qce := { s.qce with dropOther := satInc s.qce.dropOther } })) ∧
    (s.hostReady = true → s.addressed h = true → s.takes h = false →
      exec c s = .next (s.after { s with qce := { s.qce with dropSource := satInc s.qce.dropSource } }))) ∧
  (∀ (s : State) (h : Hdr) (b : List Word), s.addressed h = true → s.takes h = true →
    let q := s.queue h.qid
    let d := (h.psn - q.rxPsn).toNat
    (256 ≤ d → d < 2 ^ 31 → exec (.regRead h b) s = .next (s.after (s.useEntry h.qid))) ∧
    (q.sent = [] → q.txWait = [] → s.heldQueues = [] →
      let u := (s.useEntry h.qid).modQueue h.qid fun q => { q with hostCred := h.credLimit }
      exec (.ack h) s = .next (s.after u) ∧
      (2 ^ 31 ≤ d → exec (.regRead h b) s = .next (s.after (u.modQueue h.qid fun q => { q with needAck := true }))) ∧
      (0 < d → d < 256 → (∀ m ∈ q.rxAhead, m.psn ≠ h.psn ∧ m.psn ≠ q.rxPsn) → (h.psn - q.devCred).toInt ≤ 0 → ∃ v, exec (.regRead h b) s = .next (s.after v) ∧
        (v.queue h.qid).rxAhead = q.rxAhead ++
          [{ psn := h.psn, cookie := h.cookie, overrun := false, formed := wellFormedHdr h (.regRead b), msg := .regRead b }] ∧
        (v.queue h.qid).rxPsn = q.rxPsn ∧ (v.queue h.qid).waiting = q.waiting ∧ (v.queue h.qid).needAck = false ∧
        ∃ w x, v.out = s.out ++ [.ack (s.cqtNet h.qid) h.qid (q.rxPsn - 1) w x])) ∧
    (∀ p, q.sent = [p] → q.txWait = [] → s.heldQueues = [] → p.psn = h.ackPsn → p.msg.record = none → ∃ v, exec (.ack h) s = .next (s.after v) ∧
      (v.queue h.qid).sent = [] ∧ (v.queue h.qid).freed = q.freed + (if p.msg.answers then 1 else 0) ∧ (v.queue h.qid).hostCred = h.credLimit)) ∧
  ∀ (s : State) (qid : BitVec 12) (psn : Word),
    let q := s.queue qid
    (s.hostReady = true → q.needAck = true → exec (.cqtAckTimer qid) s = .next ((s.modQueue qid fun q => { q with needAck := false, devCred := q.limit }).emit
      (.ack (s.cqtNet qid) qid (q.rxPsn - 1) q.sack q.limit))) ∧
    (q.needAck = false → exec (.cqtAckTimer qid) s = .next s) ∧
    ((∀ p ∈ q.sent, p.psn ≠ psn) → exec (.cqtRetryTimeout qid psn) s = .next (s.after s)) ∧
    (∀ p, s.hostReady = true → (q.sent.find? fun p => p.psn == psn) = some p →
      (p.tries < 16 → ∃ u, exec (.cqtRetryTimeout qid psn) s = .next (s.after u) ∧
        u.out = s.out ++ [.cqt (s.cqtNet qid) qid p.psn (q.rxPsn - 1) q.sack q.limit p.msg] ∧
        (u.queue qid).sent = q.sent.map fun x => if x.psn = psn then { x with tries := x.tries + 1, since := q.txPsn } else x) ∧
      (16 ≤ p.tries → exec (.cqtRetryTimeout qid psn) s = .next (s.after (s.endpointLost qid)))) ∧
    ∀ (a b : BitVec 32) (c d : BitVec 128) (m : BitVec 48),
      let up := s.sec.powered = true ∧ s.sec.hostUp = true
      (up → s.qce.ipv4En = true → a = s.qce.ipv4 → exec (.arpRequest a b m) s = .next (s.emit (.arp a m))) ∧
      (a ≠ s.qce.ipv4 ∨ s.qce.ipv4En = false → exec (.arpRequest a b m) s = .next s) ∧
      (up → s.qce.ipv6En = true → c = s.ipv6Addr → exec (.neighborSolicitation c d m) s = .next (s.emit (.neighbor c m))) ∧
      (c ≠ s.ipv6Addr ∨ s.qce.ipv6En = false → exec (.neighborSolicitation c d m) s = .next s) ∧
      (up → (∀ k, k = .badFcs ∨ k = .badChecksum → exec (.unsupportedPacket k) s = .next { s with qce := { s.qce with dropFcs := satInc s.qce.dropFcs } }) ∧
        exec (.unsupportedPacket .other) s = .next { s with qce := { s.qce with dropOther := satInc s.qce.dropOther } } ∧
        exec (.unsupportedPacket .tagged) s = .next s ∧ exec (.unsupportedPacket .pause) s = .next s)

/-- 13 R380-R388, 15 R447, R455: SUBMIT and the commands that it carries. One with a field out of its layout is refused; each other has its effect and answers
with its COMPLETION, or stays in progress until a later event completes it. (Here it comes alone on its queue.) -/
def Obligations.HostCommands : Prop :=
  ∀ (s : State) (h : Hdr) (body : List Word) (sig : SigVerdict) (slip : Option (BitVec 128)), s.awaits h (4 + 4 * body.length) →
    let k := s.taken h
    let q := s.queue h.qid
    let plain (cmd : Nat) (b : List Word) : HostMsg := .submit (.ofNat 32 (cmd * 2 ^ 24)) b ⟨false, false⟩
    let submit (cmd : Nat) : Host.Outcome State Fault Refusal := exec (.submit h (.ofNat 32 (cmd * 2 ^ 24)) body sig) s
    (∀ w0, wbits w0 0 24 ≠ 0 ∨ submitWords (wbits w0 24 8) ≠ some body.length →
      s.answersWith h (exec (.submit h w0 body sig) s) (wbits w0 24 8) 1 k (eCqtMsg, []) []) ∧
    -- a SUBMIT completes as the command that it carries
    (body.length = 4 → s.answersWith h (submit 1) 1 1 (k.loadProgram q.ctx q.priv body sig).1 (k.loadProgram q.ctx q.priv body sig).2 [] ∧
      s.answersWith h (submit 9) 9 1 (k.queueCtl (k.queue h.qid) body).1 (k.queueCtl (k.queue h.qid) body).2 []) ∧
    (body.length = 14 → k.launchRefusal (parseLaunch body) = none →
      s.beginsWith h (submit 2) (.submit (.ofNat 32 (2 * 2 ^ 24)) body sig) k (.launchWait body)) ∧
    (body = [] → s.answersWith h (submit 3) 3 1 k (0, []) []) ∧
    (body.length = 17 → s.answersWith h (submit 5) 5 1 (k.exportOpen h.qid body).1 (k.exportOpen h.qid body).2 []) ∧
    (body.length = 15 → s.answersWith h (submit 8) 8 1 (k.digest (k.queue h.qid) body none).1 (k.digest (k.queue h.qid) body none).2 []) ∧
    exec (.prefixLookup h body) s = exec (.submit h (.ofNat 32 (4 * 2 ^ 24)) body ⟨false, false⟩) s ∧
    exec (.exportClose h body) s = exec (.submit h (.ofNat 32 (6 * 2 ^ 24)) body ⟨false, false⟩) s ∧
    -- the commands by name
    (body.length = 4 →
      let r (kind : Nat) := k.loadProgram q.ctx q.priv (withField body 30 2 kind) sig
      s.answersWith h (exec (.loadProgram h body sig) s) 1 1 (r 0).1 (r 0).2 [] ∧
      s.answersWith h (exec (.loadScheduleImage h body sig) s) 1 1 (r 1).1 (r 1).2 [] ∧
      s.answersWith h (exec (.loadTestPack h body sig) s) 1 1 (r 2).1 (r 2).2 []) ∧
    (body.length = 14 →
      (∀ c, k.launchRefusal (parseLaunch body) = some c → s.answersWith h (exec (.launch h body) s) 2 1 k (c, []) []) ∧
      (k.launchRefusal (parseLaunch body) = none → s.beginsWith h (exec (.launch h body) s) (plain 2 body) k (.launchWait body))) ∧
    (body = [] → s.answersWith h (exec (.fence h []) s) 3 1 k (0, []) []) ∧
    (body.length = 2 →
      (∀ e, k.prefixLookup h.qid q.ctx (dAt body 0).toNat = .error e → s.answersWith h (exec (.prefixLookup h body) s) 4 1 k e []) ∧
      ∀ u m n, k.prefixLookup h.qid q.ctx (dAt body 0).toNat = .ok (u, m, n) →
        s.answersWith h (exec (.prefixLookup h body) s) 4 1 u (0, [.ofNat 32 m, .ofNat 32 n]) []) ∧
    (body.length = 17 → s.answersWith h (exec (.exportOpen h body) s) 5 1 (k.exportOpen h.qid body).1 (k.exportOpen h.qid body).2 []) ∧
    (∀ seq, body = [seq] → let e := s.expSeq seq
      (e.closing ≠ none ∨ (∀ b ∈ e.subs, b.2.opened = false) → s.answersWith h (exec (.exportClose h [seq]) s) 6 1 k (eExportOpen, []) []) ∧
      (e.closing = none → (∃ b ∈ e.subs, b.2.opened = true) → s.beginsWith h (exec (.exportClose h [seq]) s) (plain 6 [seq])
        (k.modSeq seq fun e => { e with closing := some h.qid }) (.closing seq))) ∧
    (body.length = 15 →
      (q.priv = false → s.answersWith h (exec (.testRequestTest h body) s) 7 1 k (ePriv, []) [] ∧
        s.answersWith h (exec (.testRequestRejoin h body) s) 7 1 k (ePriv, []) [] ∧ s.answersWith h (exec (.testRequestPort h body) s) 7 1 k (ePriv, []) []) ∧
      (q.priv = true →
        let now (c : Instr) (op : Nat) (r : State × Option CmdFail) : Prop :=
          (∀ f, r.2 = some f → s.answersWith h (exec c s) 7 1 r.1 f []) ∧
          (r.2 = none → s.beginsWith h (exec c s) (plain 7 (withField body 28 4 op)) r.1 .testing)
        now (.testRequestTest h body) 0 (k.requestTest h.qid false (withField body 28 4 0)) ∧
        now (.testRequestRejoin h body) 1 (k.requestTest h.qid true (withField body 28 4 1)) ∧
        now (.testRequestPort h body) 2 (k.requestPorts h.qid (withField body 28 4 2))) ∧
      s.answersWith h (exec (.digest h body slip) s) 8 1 (k.digest (k.queue h.qid) body slip).1 (k.digest (k.queue h.qid) body slip).2 []) ∧
    (∀ t : BitVec 12, let b : List Word := [t.setWidth 32, 0, 0, 0]
      body.length = 4 →
      (q.priv = false → s.answersWith h (exec (.queueCtlSet h b) s) 9 1 k (ePriv, []) [] ∧ s.answersWith h (exec (.queueCtlEnd h b) s) 9 1 k (ePriv, []) []) ∧
      (q.priv = true →
        (∀ lo hi, s.answersWith h (exec (.queueCtlSet h [t.setWidth 32, lo, hi, 0]) s) 9 1 (k.ctlSet (k.queue h.qid) t false (hi ++ lo).toNat).1
          (k.ctlSet (k.queue h.qid) t false (hi ++ lo).toNat).2 []) ∧
        (k.resumeRefusal t none = none → s.answersWith h (exec (.queueCtlResume h b) s) 9 1 (k.resumeLaunch t none).1 (0, []) []) ∧
        (∀ c, k.resumeRefusal t none = some c → s.answersWith h (exec (.queueCtlResume h b) s) 9 1 k (c, []) []) ∧
        (k.launchOf t = none → s.answersWith h (exec (.queueCtlEnd h b) s) 9 1 k (eQueueState, []) []) ∧
        (∀ l, k.launchOf t = some l →
          s.answersWith h (exec (.queueCtlEnd h b) s) 9 1 (k.stop l { code := eLaunchEnded, source := 3 }) (0, []) []) ∧
        (s.err.drained = false → (k.queue t).err = true →
          s.answersWith h (exec (.queueCtlClear h b) s) 9 1 (k.modQueue t fun q => { q with err := false, errCode := 0 }) (0, []) []) ∧
        (s.err.drained = false → (k.queue t).err = false → s.answersWith h (exec (.queueCtlClear h b) s) 9 1 k (eQueueState, []) [])))

/-- 13 R386, 08 R219, R222, 19 R527, R530: memory and register messages. The bytes of a physical write read back, and no other byte of memory changes; an address
beyond the stacks is no byte, and fails; lost data is E_HBM_DETECT; a message that reaches a granule under retirement waits; a queue that is not privileged gets
E_PRIV. A message of a reserved type gets E_CQT_MSG. -/
def Obligations.HostMessages : Prop :=
  ∀ (s : State) (h : Hdr),
    let k := s.taken h
    let q := s.queue h.qid
    (∀ (a n : Nat) (bytes : List Byte), a < 2 ^ 64 → 1 ≤ n → n ≤ 8192 → bytes.length = n →
      let body : List Word := [.ofNat 32 a, .ofNat 32 (a / 2 ^ 32), .ofNat 32 n, 1]
      let inside := q.priv = true ∧ a + n ≤ 96000000000
      let waits (m : HostMsg) : State := k.modQueue h.qid fun q =>
        { q with waiting := [{ psn := h.psn, cookie := h.cookie, overrun := false, formed := true, msg := m }], blocked := true }
      (s.awaits h 16 →
        (q.priv = false → s.answersWith h (exec (.readMem h body) s) 0 3 k (ePriv, []) []) ∧
        (q.priv = true → 96000000000 < a + n → s.answersWith h (exec (.readMem h body) s) 0 3 k (eXltFault, [5]) []) ∧
        (inside → s.held a n = true → s.still (waits (.readMem body)) → exec (.readMem h body) s = .next (waits (.readMem body))) ∧
        (inside → s.held a n = false →
          (s.hbm.failing = [] →
            (∀ p, s.hbm.poisonIn a n = some p → s.answersWith h (exec (.readMem h body) s) 0 3 k (eHbmDetect, [2]) []) ∧
            (s.hbm.poisonIn a n = none → s.answersWith h (exec (.readMem h body) s) 0 3 k (0, []) (s.hbm.read a n))) ∧
          ∀ f, s.hbm.failing = [f] → rangesMeet a n (32 * f.1) 32 = true →
            s.answersWith h (exec (.readMem h body) s) 0 3 { k with hbm := { k.hbm with failing := [] } } (f.2.1, [.ofNat 32 f.2.2]) [])) ∧
      (s.awaits h (16 + n) →
        (q.priv = false → s.answersWith h (exec (.writeMem h body bytes) s) 0 2 k (ePriv, []) []) ∧
        (q.priv = true → 96000000000 < a + n → s.answersWith h (exec (.writeMem h body bytes) s) 0 2 k (eXltFault, [5]) []) ∧
        (inside → s.held a n = true → s.still (waits (.writeMem body bytes)) →
          exec (.writeMem h body bytes) s = .next (waits (.writeMem body bytes))) ∧
        (inside → s.held a n = false → (∀ i, i < n → s.inHeaders (a + i) = false) → a % 32 + n ≤ 32 →
          (n = 32 ∨ s.hbm.poisoned (a / 32) = false →
            ∃ u, s.answersWith h (exec (.writeMem h body bytes) s) 0 2 u (0, []) [] ∧ u = { k with hbm := u.hbm } ∧ u.hbm.read a n = bytes ∧
              ∀ b m, b + m ≤ a ∨ a + n ≤ b → u.hbm.read b m = s.hbm.read b m) ∧
          (n < 32 → s.hbm.poisoned (a / 32) = true →
            ∃ u, s.answersWith h (exec (.writeMem h body bytes) s) 0 2 u (eHbmDetect, [2]) [] ∧ u = { k with hbm := u.hbm } ∧
              ∀ b m, u.hbm.read b m = s.hbm.read b m)))) ∧
    (∀ off v, s.awaits h 8 → off % 4 = 0 → off < 0x04000000 →
      (q.priv = false → s.answersWith h (exec (.regRead h [.ofNat 32 off, 1]) s) 0 4 k (ePriv, []) [] ∧
        s.answersWith h (exec (.regWrite h [.ofNat 32 off, v]) s) 0 5 k (ePriv, []) []) ∧
      (q.priv = true →
        s.answersWith h (exec (.regRead h [.ofNat 32 off, 1]) s) 0 4 (k.readAt .queue off).1 (0, []) (leBytes 4 ((k.readAt .queue off).2.getD 0).toNat) ∧
        s.answersWith h (exec (.regWrite h [.ofNat 32 off, v]) s) 0 5 (k.writeAt .queue off v).1
          (if (k.writeAt .queue off v).2 = .done then 0 else ePriv, []) [])) ∧
    ∀ (t : BitVec 4) (n : Nat), s.awaits h n → s.answersWith h (exec (.cqtReservedType h t) s) 0 t.toNat k (eCqtMsg, []) []

/-- 13 R383, R384: a LAUNCH in progress is accepted once fewer than four launches and 256 queues are, with the values latched then; before that it waits, and one
that its checks or its memory refuse completes with their code. -/
def Obligations.LaunchAccepted : Prop :=
  ∀ (s : State) (qid : BitVec 12) (m : RxMsg) (b : List Word), (s.queue qid).cur = some (m, .launchWait b) →
    let r := parseLaunch b
    let q := s.queue qid
    let full := 4 ≤ s.launches.length ∨ 256 ≤ (s.qce.queues.filter fun e => e.2.qstate != 0).length
    let fails (u : State) (f : CmdFail) : State :=
      (u.complete qid m.cookie { cmd := 2, type := 1, code := f.1, result := f.2 }).modQueue qid fun q => { q with cur := none }
    (q.err = true → exec (.launchAccept qid) s = .next (s.after (fails s (eQueueError, [])))) ∧
    (∀ c, q.err = false → s.launchRefusal r = some c → exec (.launchAccept qid) s = .next (s.after (fails s (c, [])))) ∧
    (q.err = false → s.launchRefusal r = none → full → exec (.launchAccept qid) s = .next (s.after s)) ∧
    (q.err = false → s.launchRefusal r = none → ¬full →
      (∀ u f, s.acceptMemory q.ctx r = (u, .error f) → f.1 ≠ heldCode → exec (.launchAccept qid) s = .next (s.after (fails u f))) ∧
      (∀ u f, s.acceptMemory q.ctx r = (u, .error f) → f.1 = heldCode → exec (.launchAccept qid) s = .next (s.after s)) ∧
      ∀ u args, s.acceptMemory q.ctx r = (u, .ok args) → ∃ v l, exec (.launchAccept qid) s = .next (s.after v) ∧
        v.launches = u.launches ++ [l] ∧ l.qid = qid ∧ l.cookie = m.cookie ∧ l.handle = r.handle ∧ l.epoch = r.epoch ∧ l.jobTag = r.jobTag ∧
        l.members = r.members ∧ l.args = args ∧ l.cond = .pending ∧ l.run = .fresh ∧ l.start = none ∧ l.strict = u.err.strict ∧
        l.ctx = (u.queue qid).ctx ∧ l.seed = (u.queue qid).seed ∧ l.nanMode = (u.queue qid).nanMode ∧
        (v.queue qid).qstate = 1 ∧ (v.queue qid).cur = some (m, .launched) ∧ v.cores = u.cores)

/-- 13 R394-R400: the queue pairs of the export engine. An ACK frees the pages whose last PSN it covers; a NAK or a timeout sends again from the first PSN that is
not acknowledged, and after 7 tries the subscriber is dropped; a CNP halves the rate, which recovers by 1/64; a close completes when no page is outstanding. -/
def Obligations.QueuePairs : Prop :=
  (∀ (s : State) (n psn : BitVec 24) (timer : Nat), s.subOf n = none →
    exec (.roceAck n psn) s = .next (s.after s) ∧ exec (.roceNakSequence n psn) s = .next (s.after s) ∧ exec (.roceNakRnr n psn timer) s = .next (s.after s) ∧
    exec (.roceNakRemoteError n) s = .next (s.after s) ∧ exec (.cnp n) s = .next s ∧ exec (.roceRetryTimeout n) s = .next (s.after s) ∧
    exec (.rnrTimerExpiry n) s = .next (s.after s) ∧ exec (.rateIncrease n) s = .next s) ∧
  (∀ (s : State) (n psn : BitVec 24) (timer : Nat) (seq : Word) (u : Nat), s.subOf n = some (seq, u) → u < 4 →
    let b := s.sub seq u
    let done := b.queue.takeWhile fun h => match h.last b.pmtu with | some e => psnLe e psn | none => false
    let again := (s.modSub seq u fun b => { b with tries := b.tries + 1 }).goBack seq u
    (b.una ≠ b.psn → psnLe b.una psn = true → psnLe psn (b.psn - 1) = true → ∃ t, exec (.roceAck n psn) s = .next (s.after t) ∧
      t.sub seq u = { b with una := psn + 1, acked := b.acked + done.length, queue := b.queue.drop done.length, tries := 0, rnrTries := 0 } ∧
      t.out = s.out ∧ t.qce = s.qce) ∧
    (b.una = b.psn ∨ psnLe b.una psn = false → exec (.roceAck n psn) s = .next (s.after s)) ∧
    (b.una ≠ b.psn → (b.tries < 7 → exec (.roceNakSequence n b.una) s = .next (s.after again)) ∧
      (7 ≤ b.tries → exec (.roceNakSequence n b.una) s = .next (s.after (s.dropSub seq u 2))) ∧
      (b.rnrWait = none → b.tries < 7 → exec (.roceRetryTimeout n) s = .next (s.after again)) ∧
      (b.rnrWait = none → 7 ≤ b.tries → exec (.roceRetryTimeout n) s = .next (s.after (s.dropSub seq u 2)))) ∧
    (b.rnrWait ≠ none → exec (.roceRetryTimeout n) s = .next (s.after s)) ∧
    (b.rnrTries < 7 → exec (.roceNakRnr n b.una timer) s =
      .next (s.after (s.modSub seq u fun b => { b with rnrTries := b.rnrTries + 1, rnrWait := some timer }))) ∧
    (7 ≤ b.rnrTries → exec (.roceNakRnr n b.una timer) s = .next (s.after (s.dropSub seq u 2))) ∧
    (b.rnrWait ≠ none → exec (.rnrTimerExpiry n) s = .next (s.after ((s.modSub seq u fun b => { b with rnrWait := none }).goBack seq u))) ∧
    (b.rnrWait = none → exec (.rnrTimerExpiry n) s = .next (s.after s)) ∧
    exec (.roceNakRemoteError n) s = .next (s.after (s.dropSub seq u 3)) ∧
    exec (.cnp n) s = .next (s.modSub seq u fun b => { b with rate := b.rate / 2 }) ∧
    exec (.rateIncrease n) s = .next (s.modSub seq u fun b => { b with rate := min 65536 (b.rate + 1024) })) ∧
  ∀ (s : State) (seq : Word), let e := s.expSeq seq
    (e.closing = none ∨ (∃ u ∈ e.openSubs, (s.sub seq u).queue ≠ []) → exec (.exportCloseComplete seq) s = .next (s.after s)) ∧
    ∀ q m p, e.closing = some q → (∀ u ∈ e.openSubs, (s.sub seq u).queue = []) → (s.queue q).cur = some (m, p) →
      exec (.exportCloseComplete seq) s = .next (s.after (((s.modSeq seq fun e => { e with subs := [], closing := none }).complete q m.cookie
        { cmd := 6, type := 1, result := e.report }).modQueue q fun q => { q with cur := none }))

/-! ### Registers -/

/-- 08 R230, R237, R250, 10 R287, R288, R310: the commands that write the registers of translation and of the pools. Each has its effect on a path that may write it,
and none on another path; a setting of a context that runs, or of an enabled pool, is ignored and marked. An invalidation empties its scope when it completes; an
initialised pool has every page free and on its stack. -/
def Obligations.TranslationRegisters : Prop :=
  (∀ (s : State) (v : Word), s.hostReady = true →
    let r := s.pathQ
    let c := s.ctxOf r.ctx
    let i := r.region.toNat
    let busy := s.ctxBusy r.ctx = true
    let marked : State := { s with pathQ := { r with ctxErr := true } }
    let put (x : Ctx) : State := { s with pathQ := { r with ctxErr := false }, xlt := { s.xlt with ctxs := sset {} s.xlt.ctxs r.ctx.toNat x } }
    let clear (g : Region) : Prop := ∀ j, j < 8 → j ≠ i → g.meets (c.region j) = false
    let base : Region := { c.region i with valid := v.getLsbD 31, gran := v.extractLsb' 27 4, base := v.extractLsb' 0 27 }
    let lsh : Region := { c.region i with lshift := v.extractLsb' 0 6 }
    (busy → exec (.xltCtxRootWrite .queue v) s = .next marked ∧ exec (.xltCtxKvbaseWrite .queue v) s = .next marked ∧
      exec (.xltCtxKvlshWrite .queue v) s = .next marked) ∧
    (¬busy → exec (.xltCtxRootWrite .queue v) s = .next (put { c with rootValid := v.getLsbD 31, rootPfn := v.extractLsb' 0 25 })) ∧
    (¬busy → (v.extractLsb' 27 4).toNat ≤ 4 → clear base → exec (.xltCtxKvbaseWrite .queue v) s = .next (put { c with regions := sset {} c.regions i base })) ∧
    ((v.extractLsb' 27 4).toNat > 4 → exec (.xltCtxKvbaseWrite .queue v) s = .next marked) ∧
    (¬busy → (let n := (v.extractLsb' 0 6).toNat; n = 0 ∨ (21 ≤ n ∧ n ≤ 40)) → clear lsh →
      exec (.xltCtxKvlshWrite .queue v) s = .next (put { c with regions := sset {} c.regions i lsh })) ∧
    (s.xlt.invBusy = true ∨ v.getLsbD 30 = true → exec (.xltInv .queue v) s = .next s) ∧
    (s.xlt.invBusy = false → v.getLsbD 30 = false → exec (.xltInv .queue v) s = .next { s with xlt := { s.xlt with
      invBusy := true, invScope := v.extractLsb' 29 2, invCtx := v.extractLsb' 0 8 } })) ∧
  (∀ s : State, (s.xlt.invBusy = false → exec .xltInvComplete s = .next s) ∧
    (s.xlt.invBusy = true → ∃ t, exec .xltInvComplete s = .next t ∧ t = { s with xlt := t.xlt } ∧ t.xlt.invBusy = false ∧
      (∀ e ∈ t.xlt.sharedTlb, e ∈ s.xlt.sharedTlb ∧ s.xlt.invScope ≠ 0 ∧ e.ctx ≠ s.xlt.invCtx) ∧ t.xlt.ctxs = s.xlt.ctxs ∧ t.xlt.pools = s.xlt.pools)) ∧
  (∀ (s : State) (v : Word), s.hostReady = true →
    let r := s.pathQ
    let q := r.pool.toNat
    let o := s.pool q
    let n : Pool := { o with heads := v.extractLsb' 8 4, dim := v.extractLsb' 0 7 }
    let marked : State := { s with pathQ := { r with poolErr := true } }
    let put (x : Pool) : State := { s.modPool q fun _ => x with pathQ := { r with poolErr := false } }
    (o.en = true → exec (.xltKvpEnable .queue v) s = .next marked) ∧
    (o.en = false → s.poolOk q n = true → exec (.xltKvpEnable .queue v) s =
      .next (put { n with en := true, busy := true, free := 0, reclHead := 0, reclLen := 0 })) ∧
    (o.en = false → s.poolOk q n = false → exec (.xltKvpEnable .queue v) s = .next marked) ∧
    (o.en = false → exec (.xltKvpDisable .queue v) s = .next (put n)) ∧
    (o.en = true → o.busy = false → n = o → o.free = o.count → s.noCandidate q = true → exec (.xltKvpDisable .queue v) s =
      .next (put { o with en := false, free := 0, reclHead := 0, reclLen := 0 })) ∧
    (o.en = true → o.busy = true ∨ n ≠ o ∨ o.free ≠ o.count → exec (.xltKvpDisable .queue v) s = .next marked)) ∧
  (∀ (s : State) (q : Fin 5), let p := s.pool q.val
    (p.en = false ∨ p.busy = false → exec (.poolInitComplete q) s = .next (s.after s)) ∧
    (p.en = true → p.busy = true → ∃ t, exec (.poolInitComplete q) s = .next (s.after t) ∧ t.pool q.val = { p with busy := false, free := p.count } ∧
      (∀ j, j < p.count.toNat → t.hbm.read (p.stack.toNat * 64 + 4 * j) 4 = leBytes 4 (p.count.toNat - 1 - j)) ∧
      ∀ x, x ≠ q.val → t.pool x = s.pool x)) ∧
  ∀ (s : State) (v : Word), s.hostReady = true →
    let n := (v.extractLsb' 0 5).toNat
    let fits := 16 ≤ n ∧ n ≤ 24 ∧ s.xlt.pfxBase.toNat * 64 + 32 * 2 ^ n ≤ allocBytes
    let free := ∀ q, q < 5 → (s.pool q).en = true →
      ∀ a ∈ (s.pool q).ranges q, rangesMeet a.1 a.2 (s.xlt.pfxBase.toNat * 64) (32 * 2 ^ n) = false
    let live : BitVec 25 := if v.getLsbD 31 = true ∧ s.xlt.pfxEn = false then .ofNat 25 (s.liveEntries (s.xlt.pfxBase.toNat * 64) (32 * 2 ^ n)) else s.xlt.pfxLive
    (fits → free → exec (.xltPfxCfgWrite .queue v) s =
      .next { s with xlt := { s.xlt with pfxEn := v.getLsbD 31, pfxLog2 := v.extractLsb' 0 5, pfxLive := live } }) ∧
    (¬fits → exec (.xltPfxCfgWrite .queue v) s = .next s)

/-- 10 R294-R296: DROP and RELEASE visit the entries of a range, after the checks in their order; a refusal leaves its result and changes no entry. The operation
ends when every entry has been visited and the context's translations are gone. -/
def Obligations.KvOperations : Prop :=
  ∀ (s : State) (v : Word) (isDrop : Bool), s.hostReady = true →
    let c : Instr := if isDrop then .drop .queue v else .release .queue v
    let ctx : BitVec 8 := v.extractLsb' 0 8
    let va := s.xlt.opVa.toNat
    let layers := s.xlt.opCnt.toNat / 2 ^ 24 + 1
    let pages := s.xlt.opCnt.toNat % 2 ^ 24
    let u : State := { s with xlt := { s.xlt with opKind := if isDrop then 1 else 2, opCtx := ctx } }
    let no := u.kvRefusal ctx va layers pages
    (s.xlt.opBusy = true → exec c s = .next s) ∧
    (s.xlt.opBusy = false → no ≠ 0 → exec c s = .next { u with xlt := { u.xlt with opResult := no } }) ∧
    (s.xlt.opBusy = false → no = 0 → ∀ k, u.kvUse ctx va = some k → exec c s =
      .next (let w := ((kvVisits k.r va layers pages).foldl (fun x e => x.kvVisit ctx k.r isDrop e) u).invalidate false ctx
        { w with xlt := { w.xlt with opBusy := true } })) ∧
    (∀ l ∈ s.launches, l.ctx = ctx → (∀ e, l.run ≠ .halted e) → no = 1) ∧
    (s.xlt.opBusy = false → exec .xltKvopComplete s = .next s) ∧
    (s.xlt.opBusy = true → ∃ t, exec .xltKvopComplete s = .next t ∧ t = { s with xlt := t.xlt } ∧ t.xlt.opBusy = false ∧ t.xlt.opResult = 0 ∧
      ∀ e ∈ t.xlt.sharedTlb, e.ctx ≠ s.xlt.opCtx)

/-- 08 R244, 11 R312, 12 R369, 13 R377, R403, 14 R419, R432, 15 R460, 16 R485, R486, 19 R532, R533: the other commands that write or read one register. A value outside its
rule is ignored, and marked where the register has an error bit. The power registers may be written on both paths. -/
def Obligations.ControlRegisters : Prop :=
  ∀ (s : State) (v : Word), s.hostReady = true →
    let f (off n : Nat) : Nat := v.toNat / 2 ^ off % 2 ^ n
    (f 14 7 + f 7 7 + f 0 7 = 100 → 5 ≤ f 14 7 → 5 ≤ f 7 7 → 5 ≤ f 0 7 → exec (.stmCreditWrite .queue v) s = .next { s with stm := { s.stm with
      err := false, next := some (v.extractLsb' 14 7, v.extractLsb' 7 7, v.extractLsb' 0 7) } }) ∧
    (f 14 7 + f 7 7 + f 0 7 ≠ 100 ∨ f 14 7 < 5 ∨ f 7 7 < 5 ∨ f 0 7 < 5 →
      exec (.stmCreditWrite .queue v) s = .next { s with stm := { s.stm with err := true } }) ∧
    exec (.colCtlWrite .queue v) s = .next { s with col := { s.col with galliardOnly := v.getLsbD 31 } } ∧
    (f 27 3 > 4 → exec (.errCtlWrite .queue v) s = .next { s with err := { s.err with err := true } }) ∧
    (f 27 3 ≤ 4 → v.getLsbD 31 = true → exec (.errCtlWrite .queue v) s =
      .next { s with err := { s.err with err := false, hold := true, strict := v.extractLsb' 27 3 } }) ∧
    (f 27 3 ≤ 4 → v.getLsbD 31 = false → exec (.errCtlWrite .queue v) s =
      .next { s with err := { s.err with err := false, hold := false, strict := v.extractLsb' 27 3, ring := retireAcked s.err.ring } }) ∧
    (s.err.hold = false ∨ f 0 7 = 0 ∨ 64 < f 0 7 → exec (.errRingRetire .queue v) s = .next s) ∧
    (s.err.hold = true → 1 ≤ f 0 7 → f 0 7 ≤ 64 → (∀ r ∈ s.err.ring, r.handled = true) → exec (.errRingRetire .queue v) s =
      .next { s with err := { s.err with retireN := v.extractLsb' 0 7, ring := s.err.ring.drop (min (f 0 7) s.err.ring.length) } }) ∧
    exec (.errDrainReq .queue v) s = .next (s.after ((s.drain (v.extractLsb' 0 16) none).modErr fun e => { e with cause := v.extractLsb' 0 16 })) ∧
    (s.launches ≠ [] → exec (.fabCtlRetrain .queue v) s = .next { s with fab := { s.fab with err := true } }) ∧
    (s.launches = [] → ∃ t, exec (.fabCtlRetrain .queue v) s = .next t ∧
      t = { s with fab := t.fab, devid := t.devid, devidValid := t.devidValid } ∧ s.trainingBegun t) ∧
    exec (.beatCntLoRead .queue) s = .next { s with pathQ := { s.pathQ with beatHi := s.fab.cnt.extractLsb' 32 32 } } ∧
    exec (.pwrEnergyLoRead .queue false) s = .next { s with pathQ := { s.pathQ with idleHi := s.pwr.idle.extractLsb' 32 32 } } ∧
    exec (.pwrEnergyLoRead .queue true) s = .next { s with pathQ := { s.pathQ with totalHi := s.pwr.total.extractLsb' 32 32 } } ∧
    (∀ p, s.pathOpen p = true →
      (600 ≤ f 0 11 → f 0 11 ≤ 1600 → exec (.pwrCapWrite p v) s = .next { s with pwr := { s.pwr with cap := v.extractLsb' 0 11, capErr := false } }) ∧
      (f 0 11 < 600 ∨ 1600 < f 0 11 → exec (.pwrCapWrite p v) s = .next { s with pwr := { s.pwr with capErr := true } }) ∧
      (let n := s.pwr.members.toNat + 1
       (600 * n ≤ f 0 23 → f 0 23 ≤ 1600 * n → exec (.pwrGroupWrite p true v) s =
         .next { s with pwr := { s.pwr with budget := v.extractLsb' 0 23, grpErr := false } }) ∧
       (f 0 23 < 600 * n ∨ 1600 * n < f 0 23 → exec (.pwrGroupWrite p true v) s = .next { s with pwr := { s.pwr with grpErr := true } })) ∧
      (v.getLsbD 31 = false → exec (.pwrGroupWrite p false v) s = .next { s with pwr := { s.pwr with
        grpEn := false, grpErr := false, coord := v.extractLsb' 12 12, members := v.extractLsb' 0 12, alloc := 0, nextAlloc := none, fallback := false } }) ∧
      (50 ≤ f 0 8 → f 0 8 ≤ 200 → exec (.pwrSlewWrite p v) s = .next { s with pwr := { s.pwr with ramp := v.extractLsb' 0 8 } }) ∧
      (f 0 8 < 50 ∨ 200 < f 0 8 → exec (.pwrSlewWrite p v) s = .next s)) ∧
    (v ≠ 0 → exec (.qceEpData7Commit .queue v) s = .next s) ∧
    (let d (i : Nat) : Word := sget 0 s.pathQ.epData i
     (d 0).getLsbD 30 = true → ∃ t, exec (.qceEpData7Commit .queue 0) s = .next t ∧
       sget ({} : Endpoint) t.qce.endpoints s.pathQ.ep.toNat =
         { valid := (d 0).getLsbD 31, ipv6 := true, port := (d 0).extractLsb' 0 16, addr := d 1 ++ d 2 ++ d 3 ++ d 4, mac := (d 6).extractLsb' 0 16 ++ d 5 } ∧
       ∀ e, e ≠ s.pathQ.ep.toNat → sget ({} : Endpoint) t.qce.endpoints e = sget {} s.qce.endpoints e) ∧
    (f 0 20 < 60 → exec (.tstCtlWrite .queue false v) s = .next (s.after { s with tst := { s.tst with err := true } })) ∧
    (60 ≤ f 0 20 → exec (.tstCtlWrite .queue false v) s = .next (s.after { s with tst := { s.tst with
      err := false, rotEn := v.getLsbD 31, interval := v.extractLsb' 0 20 } })) ∧
    (f 16 16 = 0 ∨ f 0 16 < f 16 16 → exec (.tstCtlWrite .queue true v) s = .next (s.after { s with tst := { s.tst with
      err := false, period := v.extractLsb' 16 16, phase := v.extractLsb' 0 16 } }))

/-! ### Service, firmware, boot and test -/

/-- 17 R500-R507, 19 R530, R531: the service target answers only when it is supplied and has its address. A register request reads or writes one register and says how
it ended; the responder negotiates SPDM in its order; a mailbox request is answered into the window; sensors 1 and 2 answer on the rack side alone. -/
def Obligations.ServiceInterface : Prop :=
  (∀ (s : State) (off : Nat) (v : Word), off % 4 = 0 → off < 0x04000000 → s.svcAlive = true →
    let req (k : Byte) (w : List Byte) : List Byte := [k, 1, 0, 0] ++ leBytes 4 off ++ w
    let ends (u : State) (st : Byte) (w : List Byte) : State := u.emit (.svc (.registers ([st, 1, 0, 0] ++ w)))
    let rd := exec (.svcRegisterRead (req 1 [])) s
    let wr := exec (.svcRegisterWrite (req 2 (leBytes 4 v.toNat))) s
    (s.responder = false → rd = .next (s.after (ends s 2 [])) ∧ wr = .next (s.after (ends s 2 []))) ∧
    (s.responder = true → s.fullMap = false → off ≠ 0x80000 → rd = .next (s.after (ends s 2 [])) ∧ wr = .next (s.after (ends s 2 []))) ∧
    (s.fullMap = true →
      (∀ u x, s.readAt .service off = (u, some x) → u.svcAlive = true → rd = .next (s.after (ends u 0 (leBytes 4 x.toNat)))) ∧
      (∀ u, s.readAt .service off = (u, none) → u.svcAlive = true → rd = .next (s.after (ends u 1 []))) ∧
      (∀ u e, s.writeAt .service off v = (u, e) → u.svcAlive = true →
        wr = .next (s.after (ends u (match e with | .done => 0 | .absent => 1 | .denied => 3) []))))) ∧
  (∀ (s : State) (a : BitVec 7) (e : BitVec 8) (n : BitVec 16) (hd : Word),
    (exec .svc3v3Loss s = .next { s with sec := { s.sec with svc3v3 := false, eid := 0, dynAddr := 0 }, pwr := { s.pwr with opening := .none } }) ∧
    (exec .svc3v3Return s = .next { s with sec := { s.sec with svc3v3 := true } }) ∧
    (s.sec.svc3v3 = true → exec (.dynamicAddressAssignment a) s = .next { s with sec := { s.sec with dynAddr := a } }) ∧
    (s.sec.svc3v3 = false → exec (.dynamicAddressAssignment a) s = .next s) ∧
    (s.svcAlive = false → exec (.setEndpointId e) s = .next s ∧ exec (.getSensorReading n) s = .next s ∧ exec (.getStateSensorReadings n) s = .next s ∧
      exec (.getPdr hd) s = .next s) ∧
    (s.svcAlive = true →
      (e ≠ 0 → e ≠ 0xFF → exec (.setEndpointId e) s = .next (({ s with sec := { s.sec with eid := e } } : State).emit (.svc (.control true)))) ∧
      (e = 0 ∨ e = 0xFF → exec (.setEndpointId e) s = .next (s.emit (.svc (.control false)))) ∧
      (exec (.getSensorReading 1) s = .next (s.emit (.svc (.sensor (if s.pwr.present then 1 else 2))))) ∧
      (s.responder = true → (∀ x, s.numericSensor n.toNat = some x → n ≠ 1 → n ≠ 2 → exec (.getSensorReading n) s = .next (s.emit (.svc (.sensor x)))) ∧
        (n.toNat = 0 ∨ 20 < n.toNat → exec (.getSensorReading n) s = .next (s.emit (.svc (.pldmError 0x80))) ∧
          exec (.getStateSensorReadings n) s = .next (s.emit (.svc (.pldmError 0x80)))) ∧
        exec (.getStateSensorReadings 3) s = .next (s.emit (.svc (.sensor s.sec.stage.toNat))) ∧
        exec (.getPdr hd) s = .next (s.emit (.svc (.pdr (Config.sensorPdr hd.toNat))))) ∧
      (s.responder = false → exec (.getStateSensorReadings n) s = .next (s.emit (.svc (.pldmError 4))) ∧
        exec (.getPdr hd) s = .next (s.emit (.svc (.pldmError 4)))))) ∧
  (∀ (s : State) (slot : BitVec 4) (slot8 i : BitVec 8) (off len : BitVec 16) (nonce : List Byte) (sg : Bool), s.svcAlive = true →
    let cs := [Instr.getVersion .service, .getCapabilities .service, .negotiateAlgorithms .service true true, .getDigests .service,
      .getCertificate .service slot off len, .challenge .service slot8 nonce, .getMeasurements .service i sg nonce]
    let next (st : SpdmState) (r : SpdmRsp) : State :=
      ({ s with fresh := s.fresh + 1, sec := { s.sec with svcConn := st } } : State).emit (.svc (.spdm r))
    (s.responder = false → ∀ c ∈ cs, exec c s = .next (s.emit (.svc (.spdm (.error .busy))))) ∧
    (s.responder = true →
      (exec (.getVersion .service) s = .next (next .version .version)) ∧
      (s.sec.svcConn = .version → exec (.getCapabilities .service) s = .next (next .capabilities .capabilities)) ∧
      (s.sec.svcConn = .capabilities → exec (.negotiateAlgorithms .service true true) s = .next (next .ready .algorithms) ∧
        exec (.negotiateAlgorithms .service false true) s = .next (next .capabilities (.error .invalidRequest))) ∧
      (s.sec.svcConn ≠ .ready → exec (.getDigests .service) s = .next (next s.sec.svcConn (.error .unexpectedRequest))) ∧
      (s.sec.svcConn = .ready →
        exec (.getDigests .service) s = .next (next .ready (.digests (sha384 Config.certChain))) ∧
        (slot = 0 → off.toNat < Config.certChain.length → exec (.getCertificate .service slot off len) s = .next (next .ready (.certificate
          ((Config.certChain.drop off.toNat).take len.toNat) (Config.certChain.length - min Config.certChain.length (off.toNat + len.toNat))))) ∧
        (slot8 = 0 → exec (.challenge .service slot8 nonce) s =
          .next (next .ready (.challengeAuth (sha384 Config.certChain) nonce (Config.spdmSignature s.fresh)))) ∧
        (1 ≤ i.toNat → i.toNat ≤ 6 → exec (.getMeasurements .service i sg nonce) s = .next (next .ready (.measurements 1
          [(i.toNat, s.measurement i.toNat)] (if sg then some (Config.spdmSignature s.fresh) else none))))))) ∧
  ∀ (s : State) (v : Word), s.hostReady = true →
    let n := v.toNat % 8192
    (s.sec.spdmBusy = false → 1 ≤ n → n ≤ 4096 → exec (.secSpdmCtlGo .queue v) s =
      .next { s with sec := { s.sec with spdmErr := false, spdmLen := .ofNat 13 n, spdmBusy := true, spdmOut := none } }) ∧
    (s.sec.spdmBusy = true ∨ n = 0 ∨ 4096 < n → exec (.secSpdmCtlGo .queue v) s = .next { s with sec := { s.sec with spdmErr := true } }) ∧
    (s.sec.spdmBusy = true → s.sec.spdmOut = none → exec (.getVersion .mailbox) s = .next { s with fresh := s.fresh + 1, sec := { s.sec with
      boxConn := .version, spdmOut := some (Config.spdmBytes .version) } }) ∧
    (s.sec.spdmBusy = false → exec .spdmMailboxComplete s = .next s) ∧
    (∀ bs, s.sec.spdmBusy = true → s.sec.spdmOut = some bs → bs.length ≤ 4096 → ∃ t, exec .spdmMailboxComplete s = .next t ∧ t = { s with sec := t.sec } ∧
      t.sec.spdmBusy = false ∧ t.sec.spdmLen = .ofNat 13 bs.length ∧
      ∀ j, 4 * j < bs.length → sget 0 t.sec.spdmRsp j = .ofNat 32 (leNat ((bs.drop (4 * j)).take 4)))

/-- 17 R508-R511: a firmware update goes through its states in order; a component is written into bank B and, once it verifies there, into bank A; the update is
pending when it is activated, and acts at the next boot. -/
def Obligations.FirmwareUpdate : Prop :=
  ∀ (s : State) (t : List (BitVec 16)) (k : BitVec 16) (size : Word) (bs : List Byte) (b a : SigVerdict),
    let saying (u : State) (name : Nat) (code : BitVec 8) (data : List Nat) : State := u.emit (.svc (.pldm (.ofNat 8 name) code data))
    let put (x : Update) : State := { s with sec := { s.sec with update := x } }
    (s.svcAlive = true → s.fullMap = false → ∀ c ∈ [Instr.queryDeviceIdentifiers, .getFirmwareParameters, .requestUpdate, .passComponentTable t,
      .updateComponent k size, .activateFirmware, .getStatus, .cancelUpdate], exec c s = .next (s.emit (.svc (.pldmError 4)))) ∧
    (s.svcAlive = true → s.fullMap = true →
      (exec .queryDeviceIdentifiers s = .next (saying s 0x01 0 [Config.vendorId.toNat])) ∧
      (exec .getFirmwareParameters s = .next (saying s 0x02 0 [1, s.sec.ver1.toNat, 2, s.sec.ver2.toNat, b2n s.sec.pendingFw])) ∧
      (exec .getStatus s = .next (saying s 0x1B 0 [s.sec.update.code])) ∧
      (s.sec.update = .idle → exec .requestUpdate s = .next (saying (put .started) 0x10 0 []) ∧
        exec (.passComponentTable t) s = .next (saying s 0x13 0x80 []) ∧ exec (.updateComponent k size) s = .next (saying s 0x14 0x80 []) ∧
        exec .activateFirmware s = .next (saying s 0x1A 0x80 []) ∧ exec .cancelUpdate s = .next (saying s 0x1D 0x80 []) ∧
        exec (.firmwareDataReceive bs b a) s = .next (s.after s)) ∧
      (s.sec.update ≠ .idle → exec .requestUpdate s = .next (saying s 0x10 0x81 []) ∧ exec .cancelUpdate s = .next (saying (put .idle) 0x1D 0 [])) ∧
      (s.sec.update = .started → exec (.passComponentTable t) s = .next (saying (put (.ready t)) 0x13 0 [])) ∧
      (s.sec.update = .ready t →
        (k ∈ t → k = 1 ∨ k = 2 → 0 < size.toNat → size.toNat ≤ (stageArea (k == 2)).2 → exec (.updateComponent k size) s =
          .next (saying (saying (put (.loading t k size.toNat [])) 0x14 0 [0]) 0x15 0 [0, size.toNat])) ∧
        (exec .activateFirmware s = .next (saying { put .idle with sec := { s.sec with update := .idle, pendingFw := true } } 0x1A 0 []))) ∧
      (∀ n got, s.sec.update = .loading t k n got → got.length + bs.length < n → exec (.firmwareDataReceive bs b a) s =
        .next (s.after (saying (put (.loading t k n (got ++ bs))) 0x15 0 [got.length + bs.length, n - (got.length + bs.length)]))) ∧
      (∀ n got, s.sec.update = .loading t k n got → got.length + bs.length = n → ∃ u, exec (.firmwareDataReceive bs b a) s = .next (s.after u) ∧
        u.sec.update = .ready t ∧ u.sec.pendingFw = s.sec.pendingFw ∧
        u.sec.flash true (stageArea (k == 2)).1 n = got ++ bs ∧
        (∀ e, u.sec.verifyBank (k == 2) true b = .error e → u.sec.flashA = s.sec.flashA) ∧
        (∀ i, u.sec.verifyBank (k == 2) true b = .ok i → u.sec.flash false (stageArea (k == 2)).1 n = got ++ bs)))

/-- 17 R491-R498, R508: the ROM runs at stage 0 only, tries bank A and then bank B, and measures what it starts; stage 1 tries the stage 2 of its own bank first; a
failure stops at 0xF with its cause. Configuration starts training at stage 5, the device is ready when both ports have ended, and clear_drain and the count of
seconds act as the history needs. -/
def Obligations.Boot : Prop :=
  (∀ (s : State) (v : BootVerdicts),
    (s.sec.powered = false ∨ s.sec.stage ≠ 0 ∨ s.sec.secretLocked = true → exec (.bootRom v) s = .next s) ∧
    (s.sec.powered = true → s.sec.stage = 0 → s.sec.secretLocked = false → ∃ t, exec (.bootRom v) s = .next t ∧ t.sec.secretLocked = true ∧
      (∀ i, s.sec.verifyBank false false v.s1a = .ok i →
        t.sec.stage = 1 ∧ t.sec.bankS1 = false ∧ t.sec.fallback = false ∧ sget [] t.sec.meas 3 = sha384 i.signed) ∧
      (∀ e i, s.sec.verifyBank false false v.s1a = .error e → s.sec.verifyBank false true v.s1b = .ok i →
        t.sec.stage = 1 ∧ t.sec.bankS1 = true ∧ t.sec.fallback = true ∧ t.sec.tries = [e] ∧ sget [] t.sec.meas 3 = sha384 i.signed) ∧
      (∀ e f, s.sec.verifyBank false false v.s1a = .error e → s.sec.verifyBank false true v.s1b = .error f →
        t.sec.stage = 0xF ∧ t.sec.cause = 1 ∧ (v.flashWritable = true → ∃ h, t.err.history = trimHistory s.err.history s.err.opsec ++ [h] ∧ h.what = .bootFail 1)))) ∧
  (∀ (s : State) (v : BootVerdicts) (w : BootWork),
    (s.sec.powered = false ∨ s.sec.stage ≠ 1 → exec (.bootStage2 v w) s = .next s) ∧
    (s.sec.powered = true → s.sec.stage = 1 → ∃ t, exec (.bootStage2 v w) s = .next t ∧
      (∀ r, s.sec.tryBanks true s.sec.bankS1 v = (none, r) → t.sec.stage = 0xF ∧ t.sec.cause = 2) ∧
      (∀ k i r, s.sec.tryBanks true s.sec.bankS1 v = (some (k, i), r) →
        t.sec.bankS2 = k ∧ sget [] t.sec.meas 4 = sha384 i.signed ∧
        (w.selfTest = false → t.sec.stage = 0xF ∧ t.sec.cause = 4) ∧
        (w.selfTest = true → w.areasReadable = false → t.sec.stage = 0xF ∧ t.sec.cause = 5) ∧
        (w.selfTest = true → w.areasReadable = true → w.hbmTrained = false → t.sec.stage = 0xF ∧ t.sec.cause = 3) ∧
        (w.selfTest = true → w.areasReadable = true → w.hbmTrained = true → t.sec.stage = 5 ∧ s.sec.svn ≤ t.sec.svn ∧ (s.err.flagged = true → t.err.drained = true))))) ∧
  (∀ (s : State) (v : Word) (n : BitVec 16) (ok : Bool), s.svcAlive = true → s.fullMap = true →
    (s.sec.stage ≠ 5 → exec (.cfgDone .service v) s = .next s) ∧
    (s.sec.stage = 5 → ∃ t, exec (.cfgDone .service v) s = .next t ∧ t.sec = { s.sec with cfgDone := true, stage := 6 } ∧ s.trainingBegun t) ∧
    (s.sec.stage = 6 → s.sec.hostUp = false → exec (.hostPortRetry ok) s = .next { s with sec := { s.sec with hostUp := ok } }) ∧
    (s.sec.stage ≠ 6 ∨ s.sec.hostUp = true → exec (.hostPortRetry ok) s = .next s) ∧
    (s.sec.stage = 6 → s.sec.hostUp = true → s.sec.fabricDone = true → ∃ t, exec (.bootReady n) s = .next t ∧
      t.sec = { s.sec with stage := 7, tReady := n } ∧ (s.err.drained = false → t.out = s.out ++ [.pwrGood true]) ∧ (s.err.drained = true → t.out = s.out)) ∧
    (s.sec.stage ≠ 6 ∨ s.sec.hostUp = false ∨ s.sec.fabricDone = false → exec (.bootReady n) s = .next s) ∧
    (s.sec.stage ≠ 7 → exec (.clearDrain .service v) s = .next s) ∧
    (s.sec.stage = 7 → s.err.bootDrain = false → exec (.clearDrain .service v) s = .next { s with err := { s.err with flagged := false } }) ∧
    (s.sec.stage = 7 → s.err.bootDrain = true → ∃ t, exec (.clearDrain .service v) s = .next t ∧ t.err.drained = false ∧ t.err.flagged = false ∧
      (∃ tail, t.out = s.out ++ .pwrGood true :: tail ∧ ∀ o ∈ tail, ∃ p y, o = .sym p y) ∧
      (s.devidValid = true → s.fab.parted = false → (∃ p, s.portUp p = true) → t.fab.live = true ∧ s.devid ∈ t.fab.liveIds))) ∧
  ∀ s : State, s.sec.powered = true →
    (exec (.operatingSecond true) s = .next (s.after { s with err := { s.err with
      opsec := s.err.opsec + 1, history := s.err.history ++ s.err.heldHistory, heldHistory := [] } })) ∧
    ((∀ h ∈ s.err.history, h.second ≠ s.err.opsec) → exec (.operatingSecond false) s =
      .next (s.after { s with err := { s.err with opsec := s.err.opsec + 1 } }))

/-- 15 R440-R445, R451, R452: a set becomes due when its interval has passed. A case whose output has the digest of the pack goes on to the next and, after the last, the
test passes; another digest is a mismatch, and a detection ends the case, as does its limit once so many boundaries have passed since it began. A core that passes becomes the spare, and TST_LAST and the counters say how it ended. -/
def Obligations.Testing : Prop :=
  (∀ (s : State) (set : Fin 8),
    let ready := s.tst.rotEn = true ∧ s.coreWith set.val 8 ≠ none ∧ sget 0 s.tst.lastSwap set.val + s.tst.interval.toNat ≤ s.err.opsec
    (ready → exec (.rotationDue set) s = .next (s.after { s with tst := { s.tst with due := s.tst.due ||| (1#8 <<< set.val) } })) ∧
    (¬ready → exec (.rotationDue set) s = .next (s.after s))) ∧
  (∀ (s : State) (set : Fin 8) (t : Test), s.slotTest set.val = some t →
    let put (u : State) (x : Test) : State := u.setSlot set.val (some x)
    (t.verdict ≠ .running → exec (.testCaseLimit (.slot set)) s = .next s) ∧
    (∀ c o, t.pack.cases[t.case]? = some c → t.verdict = .running → c.limit ≤ (s.fab.cnt - t.began).toNat →
      exec (.testCaseLimit (.slot set)) s = .next (put s { t with verdict := .limit }) ∧
      exec (.testCaseRun (.slot set) o) s = .next (s.after (put s { t with verdict := .limit }))) ∧
    (∀ c, t.pack.cases[t.case]? = some c → t.verdict = .running → (s.fab.cnt - t.began).toNat < c.limit →
      exec (.testCaseLimit (.slot set)) s = .next s ∧
      (exec (.testCaseRun (.slot set) .detection) s = .next (s.after (put s { t with verdict := .detection }))) ∧
      (∀ g, t.retried = false → exec (.testCaseRun (.slot set) (.hbmDetect g)) s = .next (s.after (put (s.retireGranule g) { t with retried := true, began := (s.retireGranule g).fab.cnt }))) ∧
      (∀ bs : List Byte, bs.length = c.outLen →
        let u := s.loadCase set.val c bs
        (c.expect ≠ digest128 bs → exec (.testCaseRun (.slot set) (.ended bs)) s = .next (s.after (put u { t with verdict := .mismatch }))) ∧
        (c.expect = digest128 bs → ∀ j, t.pack.nextCase false (t.case + 1) = some j →
          exec (.testCaseRun (.slot set) (.ended bs)) s = .next (s.after (put u { t with case := j, retried := false, began := s.fab.cnt }))) ∧
        (c.expect = digest128 bs → t.pack.nextCase false (t.case + 1) = none → t.why = .swap →
          exec (.testCaseRun (.slot set) (.ended bs)) s = .next (s.after (put u { t with case := t.pack.cases.length, verdict := .pass })))))) ∧
  ∀ (s : State) (set : Fin 8) (t : Test), s.slotTest set.val = some t → s.tst.requests = [] →
    (t.verdict = .running → exec (.testEnd (.slot set)) s = .next (s.after s)) ∧
    (t.verdict = .pass → t.why = .swap → s.role set.val t.pcore.val = 0xA → (∀ x ∈ s.err.takeovers, x.set ≠ set) →
      ∃ u, exec (.testEnd (.slot set)) s = .next (s.after u) ∧ u.slotTest set.val = none ∧ u.role set.val t.pcore.val = 8 ∧
        u.tst.passes = satInc s.tst.passes ∧ u.tst.fails = s.tst.fails ∧
        u.tst.last = .ofNat 32 (set.val * 2 ^ 28 + t.pcore.val * 2 ^ 24 + 1 * 2 ^ 21 + t.case % 65536) ∧
        ∃ h, u.err.history = trimHistory s.err.history s.err.opsec ++ [h] ∧ h.what = .pass t.pack.seq ∧ h.unit = 9 * set.val + t.pcore.val)

/-! ### Canonical forms -/

/-- The tables of memory and of the cores keep their canonical form: by every write of a burst that is not lost data, and by every SEQ instruction that stops
nothing. -/
def Obligations.FormsAreKept : Prop :=
  (∀ (s t : State) (pa : BitVec 37) (bytes : List Byte) (who : Consumer) (va : Dword), s.wf = true → pa.toNat % 32 + bytes.length ≤ 32 →
    bytes.length = 32 ∨ s.hbm.poisoned (pa.toNat / 32) = false → exec (.hbmWrite pa bytes who va) s = .next t → t.wf = true) ∧
  (∀ (s t : State) (h : Ih) (l : Launch) (rd a b : BitVec 5) (ad as' : BitVec 4) (imm : Word) (hi : Bool) (c : Cond) (off : BitVec 24),
    s.wf = true → s.seqReady h l →
    let x := ((s.core h.core.val).rs a + imm).toNat
    (exec (.nop h) s = .next t ∨ exec (.add h rd a b) s = .next t ∨ exec (.mul h rd a b) s = .next t ∨ exec (.sra h rd a b) s = .next t ∨
      exec (.minu h rd a b) s = .next t ∨ exec (.slt h rd a b) s = .next t ∨ exec (.addi h rd a imm) s = .next t ∨
      exec (.adda h ad as' b imm) s = .next t ∨ exec (.addah h ad as' b imm) s = .next t ∨ exec (.movsa h rd as' hi) s = .next t ∨
      exec (.br h c off) s = .next t ∨ exec (.rdflg h rd hi) s = .next t ∨
      (x % 4 = 0 ∧ x < 0x300000 ∧ (exec (.ldo h rd a imm) s = .next t ∨ exec (.sto h rd a imm) s = .next t))) →
    t.wf = true)
end

