-- ==== Sys2Proof/Laws/Sparse.lean ====
section
/-!
SUPPORT. Sparse tables: a read after a write, and the canonical form that every write keeps.
-/

namespace Sys2Proof.Machine

variable {α : Type} [DecidableEq α] (d : α)

omit [DecidableEq α] in
@[simp] theorem sget_nil (k : Nat) : sget d [] k = d := rfl

omit [DecidableEq α] in
theorem sget_sput (t : Sparse α) (k i : Nat) (v : α) : sget d (sput t k v) i = if k = i then v else sget d t i := by
  induction t with
  | nil => simp [sput, sget]
  | cons e t ih =>
    obtain ⟨j, w⟩ := e
    simp only [sput]
    split
    · simp [sget]
    · split
      · next h => subst h; by_cases hi : k = i <;> simp [sget, hi]
      · simp only [sget, ih]
        split
        · next h1 h2 h3 => subst h3; simp [h2]
        · rfl

omit [DecidableEq α] in
theorem sget_del (t : Sparse α) (k i : Nat) : sget d (t.filter fun e => e.1 != k) i = if k = i then d else sget d t i := by
  induction t with
  | nil => simp [sget]
  | cons e t ih =>
    obtain ⟨j, w⟩ := e
    by_cases hj : j = k
    · subst hj
      rw [List.filter_cons_of_neg (by simp), ih]
      by_cases hi : j = i <;> simp [sget, hi]
    · simp only [bne_iff_ne, ne_eq, hj, not_false_eq_true, List.filter_cons_of_pos, sget, ih]
      by_cases hi : j = i
      · subst hi; simp [Ne.symm hj]
      · simp [hi]

/-- A read after a write. -/
theorem sget_sset (t : Sparse α) (k i : Nat) (v : α) : sget d (sset d t k v) i = if k = i then v else sget d t i := by
  simp only [sset]
  split
  · next h => rw [sget_del, h]
  · exact sget_sput d t k i v

/-- The value written is the value read. -/
@[simp] theorem sget_sset_same (t : Sparse α) (k : Nat) (v : α) : sget d (sset d t k v) k = v := by simp [sget_sset]

/-- Every other key reads as before. -/
@[simp] theorem sget_sset_other (t : Sparse α) (k i : Nat) (v : α) (hki : i ≠ k) : sget d (sset d t k v) i = sget d t i := by
  simp [sget_sset, Ne.symm hki]

theorem swfFrom_mono (t : Sparse α) (a b : Nat) (hab : b ≤ a) (h : swfFrom d a t = true) : swfFrom d b t = true := by
  cases t with
  | nil => rfl
  | cons e t =>
    simp only [swfFrom, Bool.and_eq_true, decide_eq_true_eq] at h ⊢
    exact ⟨⟨by omega, h.1.2⟩, h.2⟩

theorem swfFrom_sput (t : Sparse α) (lo k : Nat) (v : α) (hk : lo ≤ k) (hv : v ≠ d) (h : swfFrom d lo t = true) :
    swfFrom d lo (sput t k v) = true := by
  induction t generalizing lo with
  | nil => simp [sput, swfFrom, hv, hk]
  | cons e t ih =>
    obtain ⟨j, w⟩ := e
    have h' := h
    simp only [swfFrom, Bool.and_eq_true, decide_eq_true_eq] at h'
    obtain ⟨⟨hlo, hne⟩, ht⟩ := h'
    simp only [sput]
    split
    · next hkj => simp [swfFrom, hk, hv, hne, ht, Nat.succ_le_of_lt hkj]
    · split
      · next hkj => subst hkj; simp [swfFrom, hk, hv, ht]
      · simp only [swfFrom, Bool.and_eq_true, decide_eq_true_eq]
        exact ⟨⟨hlo, hne⟩, ih (j + 1) (by omega) ht⟩

theorem swfFrom_del (t : Sparse α) (lo k : Nat) (h : swfFrom d lo t = true) : swfFrom d lo (t.filter fun e => e.1 != k) = true := by
  induction t generalizing lo with
  | nil => rfl
  | cons e t ih =>
    obtain ⟨j, w⟩ := e
    simp only [swfFrom, Bool.and_eq_true, decide_eq_true_eq] at h
    by_cases hj : j = k
    · subst hj
      simpa using swfFrom_mono d _ (j + 1) lo (by omega) (ih (j + 1) h.2)
    · simp only [bne_iff_ne, ne_eq, hj, not_false_eq_true, List.filter_cons_of_pos, swfFrom, Bool.and_eq_true, decide_eq_true_eq]
      exact ⟨h.1, ih (j + 1) h.2⟩

/-- A write keeps the canonical form. -/
theorem swf_sset (t : Sparse α) (k : Nat) (v : α) (h : swf d t = true) : swf d (sset d t k v) = true := by
  simp only [sset]
  split
  · exact swfFrom_del d t 0 k h
  · next hv => exact swfFrom_sput d t 0 k v (Nat.zero_le k) hv h

theorem swf_smod (t : Sparse α) (k : Nat) (f : α → α) (h : swf d t = true) : swf d (smod d t k f) = true :=
  swf_sset d t k _ h

@[simp] theorem sget_smod_same (t : Sparse α) (k : Nat) (f : α → α) : sget d (smod d t k f) k = f (sget d t k) :=
  sget_sset_same d t k _

@[simp] theorem sget_smod_other (t : Sparse α) (k i : Nat) (f : α → α) (hki : i ≠ k) : sget d (smod d t k f) i = sget d t i :=
  sget_sset_other d t k i _ hki

theorem swf_swrite (t : Sparse α) (k : Nat) (vs : List α) (h : swf d t = true) : swf d (swrite d t k vs) = true := by
  induction vs generalizing t k with
  | nil => exact h
  | cons v vs ih => exact ih _ _ (swf_sset d t k v h)

/-- Keys outside the written range read as before. -/
theorem sget_swrite_other (t : Sparse α) (k i : Nat) (vs : List α) (h : i < k ∨ k + vs.length ≤ i) :
    sget d (swrite d t k vs) i = sget d t i := by
  induction vs generalizing t k with
  | nil => rfl
  | cons v vs ih =>
    simp only [List.length_cons] at h
    simp only [swrite]
    rw [ih _ _ (by omega), sget_sset_other d t k i v (by omega)]

/-- The written range reads as written. -/
theorem sget_swrite (t : Sparse α) (k i : Nat) (vs : List α) (hi : i < vs.length) :
    sget d (swrite d t k vs) (k + i) = vs[i] := by
  induction vs generalizing t k i with
  | nil => simp at hi
  | cons v vs ih =>
    simp only [swrite]
    cases i with
    | zero => rw [sget_swrite_other d _ _ _ _ (by omega)]; simp
    | succ i =>
      have := ih (sset d t k v) (k + 1) i (by simpa using hi)
      rw [show k + (i + 1) = k + 1 + i by omega]
      simpa using this

theorem sread_swrite_other (t : Sparse α) (k a n : Nat) (vs : List α) (h : a + n ≤ k ∨ k + vs.length ≤ a) :
    sread d (swrite d t k vs) a n = sread d t a n := by
  simp only [sread]
  apply List.map_congr_left
  intro i hi
  simp only [List.mem_range] at hi
  exact sget_swrite_other d t k (a + i) vs (by omega)

theorem sread_swrite (t : Sparse α) (k : Nat) (vs : List α) : sread d (swrite d t k vs) k vs.length = vs := by
  apply List.ext_getElem
  · simp [sread]
  · intro i h1 h2
    simp only [sread, List.getElem_map, List.getElem_range]
    exact sget_swrite d t k i vs h2

end Sys2Proof.Machine
end

