-- ==== Sys2Proof/Laws/Memory.lean ====
section
/-!
SUPPORT. Memory: every operation keeps the canonical form, and writes only the bytes it names.
-/

namespace Sys2Proof.Machine

theorem Memory.wf_iff (h : Hbm) : Memory.wf h = true ↔ swf hbmDefault h.mem = true ∧ swf 0 h.code = true := by
  simp [Memory.wf]

theorem Memory.wf_reset : Memory.wf State.reset.hbm = true := by decide

theorem Memory.wf_writeBurst (h : Hbm) (pa : Nat) (bs : List Byte) (w : Memory.wf h = true) : Memory.wf (h.writeBurst pa bs).1 = true := by
  rw [Memory.wf_iff] at w
  simp only [Hbm.writeBurst]
  split
  · exact (Memory.wf_iff h).2 w
  · exact (Memory.wf_iff _).2 ⟨swf_swrite _ _ _ _ w.1, swf_sset 0 h.code (pa / 32) 0 w.2⟩

theorem Memory.wf_writeGo (n : Nat) (h : Hbm) (pa : Nat) (bs : List Byte) (bad : Option Nat) (w : Memory.wf h = true) :
    Memory.wf (Hbm.writeGo n h pa bs bad).1 = true := by
  induction n generalizing h pa bs bad with
  | zero => exact w
  | succ n ih =>
    cases bs with
    | nil => exact w
    | cons b bs => exact ih _ _ _ _ (Memory.wf_writeBurst h pa _ w)

theorem Memory.wf_write (h : Hbm) (pa : Nat) (bs : List Byte) (w : Memory.wf h = true) : Memory.wf (h.write pa bs).1 = true :=
  Memory.wf_writeGo _ _ _ _ _ w

theorem Memory.wf_pwriteAs (s : State) (own : Bool) (va pa : Nat) (bs : List Byte) (w : Memory.wf s.hbm = true) :
    Memory.wf (s.pwriteAs own va pa bs).1.hbm = true :=
  Memory.wf_write s.hbm pa bs w

theorem Memory.wf_pwrite (s : State) (pa : Nat) (bs : List Byte) (w : Memory.wf s.hbm = true) : Memory.wf (s.pwrite pa bs).1.hbm = true :=
  Memory.wf_pwriteAs s false 0 pa bs w

theorem Memory.wf_pwriteAll (s : State) (va : Nat) (ps : List (Nat × Nat)) (bs : List Byte) (bad : Option XFail)
    (w : Memory.wf s.hbm = true) : Memory.wf (pwriteAll s va ps bs bad).1.hbm = true := by
  induction ps generalizing s va bs bad with
  | nil => exact w
  | cons p ps ih => exact ih _ _ _ _ (Memory.wf_pwrite s p.1 _ w)

theorem Memory.wf_vwrite (s : State) (phys : Option Nat) (ctx : BitVec 8) (va : Nat) (bs : List Byte) (w : Memory.wf s.hbm = true) :
    Memory.wf (s.vwrite phys ctx va bs).1.hbm = true := by
  simp only [State.vwrite]
  split
  · exact w
  · exact Memory.wf_pwriteAll s va _ bs none w

/-- A note that a structure of the device is lost changes no memory. -/
theorem Memory.wf_loseOwned (s : State) (b : Nat) (w : Memory.wf s.hbm = true) : Memory.wf (s.loseOwned b).hbm = true := w

theorem Memory.wf_ownWrite (s : State) (pa : Nat) (bs : List Byte) (w : Memory.wf s.hbm = true) : Memory.wf (s.ownWrite pa bs).hbm = true := by
  simp only [State.ownWrite]
  split
  · exact Memory.wf_loseOwned _ _ (Memory.wf_pwriteAs s true 0 pa bs w)
  · exact Memory.wf_pwriteAs s true 0 pa bs w

theorem Memory.wf_setKhdr (s : State) (q x : Nat) (h : KHdr) (w : Memory.wf s.hbm = true) : Memory.wf (s.setKhdr q x h).hbm = true := by
  simp only [State.setKhdr]
  split
  · exact Memory.wf_loseOwned _ _ w
  · exact Memory.wf_ownWrite _ _ _ w

theorem Memory.wf_setPte (s : State) (pa e : Nat) (w : Memory.wf s.hbm = true) : Memory.wf (s.setPte pa e).hbm = true :=
  Memory.wf_pwriteAs _ _ _ _ _ w

theorem Memory.wf_setPfx (s : State) (j : Nat) (e : PfxEntry) (w : Memory.wf s.hbm = true) : Memory.wf (s.setPfx j e).hbm = true :=
  Memory.wf_ownWrite _ _ _ w

/-- A burst's write leaves every byte outside it alone. -/
theorem Hbm.read_writeBurst_other (h : Hbm) (pa a n : Nat) (bs : List Byte) (o : a + n ≤ pa ∨ pa + bs.length ≤ a) :
    (h.writeBurst pa bs).1.read a n = h.read a n := by
  simp only [Hbm.writeBurst]
  split
  · rfl
  · exact sread_swrite_other hbmDefault h.mem pa a n bs o

/-- A burst's write reads back, unless it is a part of a poisoned burst (08 R220, R223). -/
theorem Hbm.read_writeBurst (h : Hbm) (pa : Nat) (bs : List Byte)
    (p : (h.poisoned (pa / 32) && decide (bs.length < 32)) = false) : (h.writeBurst pa bs).1.read pa bs.length = bs := by
  simp only [Hbm.writeBurst, p]
  exact sread_swrite hbmDefault h.mem pa bs

end Sys2Proof.Machine
end

