-- ==== Sys2Proof/Laws/State.lean ====
section
/-!
SUPPORT. What each named update leaves alone: one lemma per field and update, true by rfl, so that no proof unfolds a record.
-/

namespace Sys2Proof.Machine

variable (s : State)

@[simp] theorem State.setCore_pending (c : Nat) (k : Core) : (s.setCore c k).pending = s.pending := rfl
@[simp] theorem State.setCore_out (c : Nat) (k : Core) : (s.setCore c k).out = s.out := rfl
@[simp] theorem State.setCore_fresh (c : Nat) (k : Core) : (s.setCore c k).fresh = s.fresh := rfl
@[simp] theorem State.setCore_scratch (c : Nat) (k : Core) : (s.setCore c k).scratch = s.scratch := rfl
@[simp] theorem State.setCore_devidValid (c : Nat) (k : Core) : (s.setCore c k).devidValid = s.devidValid := rfl
@[simp] theorem State.setCore_devid (c : Nat) (k : Core) : (s.setCore c k).devid = s.devid := rfl
@[simp] theorem State.setCore_pcores (c : Nat) (k : Core) : (s.setCore c k).pcores = s.pcores := rfl
@[simp] theorem State.setCore_launches (c : Nat) (k : Core) : (s.setCore c k).launches = s.launches := rfl
@[simp] theorem State.setCore_images (c : Nat) (k : Core) : (s.setCore c k).images = s.images := rfl
@[simp] theorem State.setCore_scheds (c : Nat) (k : Core) : (s.setCore c k).scheds = s.scheds := rfl
@[simp] theorem State.setCore_useClock (c : Nat) (k : Core) : (s.setCore c k).useClock = s.useClock := rfl
@[simp] theorem State.setCore_barPassed (c : Nat) (k : Core) : (s.setCore c k).barPassed = s.barPassed := rfl
@[simp] theorem State.setCore_heldObls (c : Nat) (k : Core) : (s.setCore c k).heldObls = s.heldObls := rfl
@[simp] theorem State.setCore_saving (c : Nat) (k : Core) : (s.setCore c k).saving = s.saving := rfl
@[simp] theorem State.setCore_restoring (c : Nat) (k : Core) : (s.setCore c k).restoring = s.restoring := rfl
@[simp] theorem State.setCore_hbm (c : Nat) (k : Core) : (s.setCore c k).hbm = s.hbm := rfl
@[simp] theorem State.setCore_xlt (c : Nat) (k : Core) : (s.setCore c k).xlt = s.xlt := rfl
@[simp] theorem State.setCore_stm (c : Nat) (k : Core) : (s.setCore c k).stm = s.stm := rfl
@[simp] theorem State.setCore_fab (c : Nat) (k : Core) : (s.setCore c k).fab = s.fab := rfl
@[simp] theorem State.setCore_col (c : Nat) (k : Core) : (s.setCore c k).col = s.col := rfl
@[simp] theorem State.setCore_qce (c : Nat) (k : Core) : (s.setCore c k).qce = s.qce := rfl
@[simp] theorem State.setCore_pathQ (c : Nat) (k : Core) : (s.setCore c k).pathQ = s.pathQ := rfl
@[simp] theorem State.setCore_pathS (c : Nat) (k : Core) : (s.setCore c k).pathS = s.pathS := rfl
@[simp] theorem State.setCore_exp (c : Nat) (k : Core) : (s.setCore c k).exp = s.exp := rfl
@[simp] theorem State.setCore_err (c : Nat) (k : Core) : (s.setCore c k).err = s.err := rfl
@[simp] theorem State.setCore_pwr (c : Nat) (k : Core) : (s.setCore c k).pwr = s.pwr := rfl
@[simp] theorem State.setCore_sec (c : Nat) (k : Core) : (s.setCore c k).sec = s.sec := rfl
@[simp] theorem State.setCore_tst (c : Nat) (k : Core) : (s.setCore c k).tst = s.tst := rfl

@[simp] theorem State.modCore_pending (c : Nat) (f : Core → Core) : (s.modCore c f).pending = s.pending := rfl
@[simp] theorem State.modCore_out (c : Nat) (f : Core → Core) : (s.modCore c f).out = s.out := rfl
@[simp] theorem State.modCore_fresh (c : Nat) (f : Core → Core) : (s.modCore c f).fresh = s.fresh := rfl
@[simp] theorem State.modCore_scratch (c : Nat) (f : Core → Core) : (s.modCore c f).scratch = s.scratch := rfl
@[simp] theorem State.modCore_devidValid (c : Nat) (f : Core → Core) : (s.modCore c f).devidValid = s.devidValid := rfl
@[simp] theorem State.modCore_devid (c : Nat) (f : Core → Core) : (s.modCore c f).devid = s.devid := rfl
@[simp] theorem State.modCore_pcores (c : Nat) (f : Core → Core) : (s.modCore c f).pcores = s.pcores := rfl
@[simp] theorem State.modCore_launches (c : Nat) (f : Core → Core) : (s.modCore c f).launches = s.launches := rfl
@[simp] theorem State.modCore_images (c : Nat) (f : Core → Core) : (s.modCore c f).images = s.images := rfl
@[simp] theorem State.modCore_scheds (c : Nat) (f : Core → Core) : (s.modCore c f).scheds = s.scheds := rfl
@[simp] theorem State.modCore_useClock (c : Nat) (f : Core → Core) : (s.modCore c f).useClock = s.useClock := rfl
@[simp] theorem State.modCore_barPassed (c : Nat) (f : Core → Core) : (s.modCore c f).barPassed = s.barPassed := rfl
@[simp] theorem State.modCore_heldObls (c : Nat) (f : Core → Core) : (s.modCore c f).heldObls = s.heldObls := rfl
@[simp] theorem State.modCore_saving (c : Nat) (f : Core → Core) : (s.modCore c f).saving = s.saving := rfl
@[simp] theorem State.modCore_restoring (c : Nat) (f : Core → Core) : (s.modCore c f).restoring = s.restoring := rfl
@[simp] theorem State.modCore_hbm (c : Nat) (f : Core → Core) : (s.modCore c f).hbm = s.hbm := rfl
@[simp] theorem State.modCore_xlt (c : Nat) (f : Core → Core) : (s.modCore c f).xlt = s.xlt := rfl
@[simp] theorem State.modCore_stm (c : Nat) (f : Core → Core) : (s.modCore c f).stm = s.stm := rfl
@[simp] theorem State.modCore_fab (c : Nat) (f : Core → Core) : (s.modCore c f).fab = s.fab := rfl
@[simp] theorem State.modCore_col (c : Nat) (f : Core → Core) : (s.modCore c f).col = s.col := rfl
@[simp] theorem State.modCore_qce (c : Nat) (f : Core → Core) : (s.modCore c f).qce = s.qce := rfl
@[simp] theorem State.modCore_pathQ (c : Nat) (f : Core → Core) : (s.modCore c f).pathQ = s.pathQ := rfl
@[simp] theorem State.modCore_pathS (c : Nat) (f : Core → Core) : (s.modCore c f).pathS = s.pathS := rfl
@[simp] theorem State.modCore_exp (c : Nat) (f : Core → Core) : (s.modCore c f).exp = s.exp := rfl
@[simp] theorem State.modCore_err (c : Nat) (f : Core → Core) : (s.modCore c f).err = s.err := rfl
@[simp] theorem State.modCore_pwr (c : Nat) (f : Core → Core) : (s.modCore c f).pwr = s.pwr := rfl
@[simp] theorem State.modCore_sec (c : Nat) (f : Core → Core) : (s.modCore c f).sec = s.sec := rfl
@[simp] theorem State.modCore_tst (c : Nat) (f : Core → Core) : (s.modCore c f).tst = s.tst := rfl

@[simp] theorem State.modQueue_pending (q : BitVec 12) (f : Queue → Queue) : (s.modQueue q f).pending = s.pending := rfl
@[simp] theorem State.modQueue_out (q : BitVec 12) (f : Queue → Queue) : (s.modQueue q f).out = s.out := rfl
@[simp] theorem State.modQueue_fresh (q : BitVec 12) (f : Queue → Queue) : (s.modQueue q f).fresh = s.fresh := rfl
@[simp] theorem State.modQueue_scratch (q : BitVec 12) (f : Queue → Queue) : (s.modQueue q f).scratch = s.scratch := rfl
@[simp] theorem State.modQueue_devidValid (q : BitVec 12) (f : Queue → Queue) : (s.modQueue q f).devidValid = s.devidValid := rfl
@[simp] theorem State.modQueue_devid (q : BitVec 12) (f : Queue → Queue) : (s.modQueue q f).devid = s.devid := rfl
@[simp] theorem State.modQueue_cores (q : BitVec 12) (f : Queue → Queue) : (s.modQueue q f).cores = s.cores := rfl
@[simp] theorem State.modQueue_pcores (q : BitVec 12) (f : Queue → Queue) : (s.modQueue q f).pcores = s.pcores := rfl
@[simp] theorem State.modQueue_launches (q : BitVec 12) (f : Queue → Queue) : (s.modQueue q f).launches = s.launches := rfl
@[simp] theorem State.modQueue_images (q : BitVec 12) (f : Queue → Queue) : (s.modQueue q f).images = s.images := rfl
@[simp] theorem State.modQueue_scheds (q : BitVec 12) (f : Queue → Queue) : (s.modQueue q f).scheds = s.scheds := rfl
@[simp] theorem State.modQueue_useClock (q : BitVec 12) (f : Queue → Queue) : (s.modQueue q f).useClock = s.useClock := rfl
@[simp] theorem State.modQueue_barPassed (q : BitVec 12) (f : Queue → Queue) : (s.modQueue q f).barPassed = s.barPassed := rfl
@[simp] theorem State.modQueue_heldObls (q : BitVec 12) (f : Queue → Queue) : (s.modQueue q f).heldObls = s.heldObls := rfl
@[simp] theorem State.modQueue_saving (q : BitVec 12) (f : Queue → Queue) : (s.modQueue q f).saving = s.saving := rfl
@[simp] theorem State.modQueue_restoring (q : BitVec 12) (f : Queue → Queue) : (s.modQueue q f).restoring = s.restoring := rfl
@[simp] theorem State.modQueue_hbm (q : BitVec 12) (f : Queue → Queue) : (s.modQueue q f).hbm = s.hbm := rfl
@[simp] theorem State.modQueue_xlt (q : BitVec 12) (f : Queue → Queue) : (s.modQueue q f).xlt = s.xlt := rfl
@[simp] theorem State.modQueue_stm (q : BitVec 12) (f : Queue → Queue) : (s.modQueue q f).stm = s.stm := rfl
@[simp] theorem State.modQueue_fab (q : BitVec 12) (f : Queue → Queue) : (s.modQueue q f).fab = s.fab := rfl
@[simp] theorem State.modQueue_col (q : BitVec 12) (f : Queue → Queue) : (s.modQueue q f).col = s.col := rfl
@[simp] theorem State.modQueue_pathQ (q : BitVec 12) (f : Queue → Queue) : (s.modQueue q f).pathQ = s.pathQ := rfl
@[simp] theorem State.modQueue_pathS (q : BitVec 12) (f : Queue → Queue) : (s.modQueue q f).pathS = s.pathS := rfl
@[simp] theorem State.modQueue_exp (q : BitVec 12) (f : Queue → Queue) : (s.modQueue q f).exp = s.exp := rfl
@[simp] theorem State.modQueue_err (q : BitVec 12) (f : Queue → Queue) : (s.modQueue q f).err = s.err := rfl
@[simp] theorem State.modQueue_pwr (q : BitVec 12) (f : Queue → Queue) : (s.modQueue q f).pwr = s.pwr := rfl
@[simp] theorem State.modQueue_sec (q : BitVec 12) (f : Queue → Queue) : (s.modQueue q f).sec = s.sec := rfl
@[simp] theorem State.modQueue_tst (q : BitVec 12) (f : Queue → Queue) : (s.modQueue q f).tst = s.tst := rfl

@[simp] theorem State.modQce_pending (f : Qce → Qce) : (s.modQce f).pending = s.pending := rfl
@[simp] theorem State.modQce_out (f : Qce → Qce) : (s.modQce f).out = s.out := rfl
@[simp] theorem State.modQce_fresh (f : Qce → Qce) : (s.modQce f).fresh = s.fresh := rfl
@[simp] theorem State.modQce_scratch (f : Qce → Qce) : (s.modQce f).scratch = s.scratch := rfl
@[simp] theorem State.modQce_devidValid (f : Qce → Qce) : (s.modQce f).devidValid = s.devidValid := rfl
@[simp] theorem State.modQce_devid (f : Qce → Qce) : (s.modQce f).devid = s.devid := rfl
@[simp] theorem State.modQce_cores (f : Qce → Qce) : (s.modQce f).cores = s.cores := rfl
@[simp] theorem State.modQce_pcores (f : Qce → Qce) : (s.modQce f).pcores = s.pcores := rfl
@[simp] theorem State.modQce_launches (f : Qce → Qce) : (s.modQce f).launches = s.launches := rfl
@[simp] theorem State.modQce_images (f : Qce → Qce) : (s.modQce f).images = s.images := rfl
@[simp] theorem State.modQce_scheds (f : Qce → Qce) : (s.modQce f).scheds = s.scheds := rfl
@[simp] theorem State.modQce_useClock (f : Qce → Qce) : (s.modQce f).useClock = s.useClock := rfl
@[simp] theorem State.modQce_barPassed (f : Qce → Qce) : (s.modQce f).barPassed = s.barPassed := rfl
@[simp] theorem State.modQce_heldObls (f : Qce → Qce) : (s.modQce f).heldObls = s.heldObls := rfl
@[simp] theorem State.modQce_saving (f : Qce → Qce) : (s.modQce f).saving = s.saving := rfl
@[simp] theorem State.modQce_restoring (f : Qce → Qce) : (s.modQce f).restoring = s.restoring := rfl
@[simp] theorem State.modQce_hbm (f : Qce → Qce) : (s.modQce f).hbm = s.hbm := rfl
@[simp] theorem State.modQce_xlt (f : Qce → Qce) : (s.modQce f).xlt = s.xlt := rfl
@[simp] theorem State.modQce_stm (f : Qce → Qce) : (s.modQce f).stm = s.stm := rfl
@[simp] theorem State.modQce_fab (f : Qce → Qce) : (s.modQce f).fab = s.fab := rfl
@[simp] theorem State.modQce_col (f : Qce → Qce) : (s.modQce f).col = s.col := rfl
@[simp] theorem State.modQce_pathQ (f : Qce → Qce) : (s.modQce f).pathQ = s.pathQ := rfl
@[simp] theorem State.modQce_pathS (f : Qce → Qce) : (s.modQce f).pathS = s.pathS := rfl
@[simp] theorem State.modQce_exp (f : Qce → Qce) : (s.modQce f).exp = s.exp := rfl
@[simp] theorem State.modQce_err (f : Qce → Qce) : (s.modQce f).err = s.err := rfl
@[simp] theorem State.modQce_pwr (f : Qce → Qce) : (s.modQce f).pwr = s.pwr := rfl
@[simp] theorem State.modQce_sec (f : Qce → Qce) : (s.modQce f).sec = s.sec := rfl
@[simp] theorem State.modQce_tst (f : Qce → Qce) : (s.modQce f).tst = s.tst := rfl

@[simp] theorem State.emit_pending (o : Out) : (s.emit o).pending = s.pending := rfl
@[simp] theorem State.emit_fresh (o : Out) : (s.emit o).fresh = s.fresh := rfl
@[simp] theorem State.emit_scratch (o : Out) : (s.emit o).scratch = s.scratch := rfl
@[simp] theorem State.emit_devidValid (o : Out) : (s.emit o).devidValid = s.devidValid := rfl
@[simp] theorem State.emit_devid (o : Out) : (s.emit o).devid = s.devid := rfl
@[simp] theorem State.emit_cores (o : Out) : (s.emit o).cores = s.cores := rfl
@[simp] theorem State.emit_pcores (o : Out) : (s.emit o).pcores = s.pcores := rfl
@[simp] theorem State.emit_launches (o : Out) : (s.emit o).launches = s.launches := rfl
@[simp] theorem State.emit_images (o : Out) : (s.emit o).images = s.images := rfl
@[simp] theorem State.emit_scheds (o : Out) : (s.emit o).scheds = s.scheds := rfl
@[simp] theorem State.emit_useClock (o : Out) : (s.emit o).useClock = s.useClock := rfl
@[simp] theorem State.emit_barPassed (o : Out) : (s.emit o).barPassed = s.barPassed := rfl
@[simp] theorem State.emit_heldObls (o : Out) : (s.emit o).heldObls = s.heldObls := rfl
@[simp] theorem State.emit_saving (o : Out) : (s.emit o).saving = s.saving := rfl
@[simp] theorem State.emit_restoring (o : Out) : (s.emit o).restoring = s.restoring := rfl
@[simp] theorem State.emit_hbm (o : Out) : (s.emit o).hbm = s.hbm := rfl
@[simp] theorem State.emit_xlt (o : Out) : (s.emit o).xlt = s.xlt := rfl
@[simp] theorem State.emit_stm (o : Out) : (s.emit o).stm = s.stm := rfl
@[simp] theorem State.emit_fab (o : Out) : (s.emit o).fab = s.fab := rfl
@[simp] theorem State.emit_col (o : Out) : (s.emit o).col = s.col := rfl
@[simp] theorem State.emit_qce (o : Out) : (s.emit o).qce = s.qce := rfl
@[simp] theorem State.emit_pathQ (o : Out) : (s.emit o).pathQ = s.pathQ := rfl
@[simp] theorem State.emit_pathS (o : Out) : (s.emit o).pathS = s.pathS := rfl
@[simp] theorem State.emit_exp (o : Out) : (s.emit o).exp = s.exp := rfl
@[simp] theorem State.emit_err (o : Out) : (s.emit o).err = s.err := rfl
@[simp] theorem State.emit_pwr (o : Out) : (s.emit o).pwr = s.pwr := rfl
@[simp] theorem State.emit_sec (o : Out) : (s.emit o).sec = s.sec := rfl
@[simp] theorem State.emit_tst (o : Out) : (s.emit o).tst = s.tst := rfl

@[simp] theorem State.emitAll_pending (o : List Out) : (s.emitAll o).pending = s.pending := rfl
@[simp] theorem State.emitAll_fresh (o : List Out) : (s.emitAll o).fresh = s.fresh := rfl
@[simp] theorem State.emitAll_scratch (o : List Out) : (s.emitAll o).scratch = s.scratch := rfl
@[simp] theorem State.emitAll_devidValid (o : List Out) : (s.emitAll o).devidValid = s.devidValid := rfl
@[simp] theorem State.emitAll_devid (o : List Out) : (s.emitAll o).devid = s.devid := rfl
@[simp] theorem State.emitAll_cores (o : List Out) : (s.emitAll o).cores = s.cores := rfl
@[simp] theorem State.emitAll_pcores (o : List Out) : (s.emitAll o).pcores = s.pcores := rfl
@[simp] theorem State.emitAll_launches (o : List Out) : (s.emitAll o).launches = s.launches := rfl
@[simp] theorem State.emitAll_images (o : List Out) : (s.emitAll o).images = s.images := rfl
@[simp] theorem State.emitAll_scheds (o : List Out) : (s.emitAll o).scheds = s.scheds := rfl
@[simp] theorem State.emitAll_useClock (o : List Out) : (s.emitAll o).useClock = s.useClock := rfl
@[simp] theorem State.emitAll_barPassed (o : List Out) : (s.emitAll o).barPassed = s.barPassed := rfl
@[simp] theorem State.emitAll_heldObls (o : List Out) : (s.emitAll o).heldObls = s.heldObls := rfl
@[simp] theorem State.emitAll_saving (o : List Out) : (s.emitAll o).saving = s.saving := rfl
@[simp] theorem State.emitAll_restoring (o : List Out) : (s.emitAll o).restoring = s.restoring := rfl
@[simp] theorem State.emitAll_hbm (o : List Out) : (s.emitAll o).hbm = s.hbm := rfl
@[simp] theorem State.emitAll_xlt (o : List Out) : (s.emitAll o).xlt = s.xlt := rfl
@[simp] theorem State.emitAll_stm (o : List Out) : (s.emitAll o).stm = s.stm := rfl
@[simp] theorem State.emitAll_fab (o : List Out) : (s.emitAll o).fab = s.fab := rfl
@[simp] theorem State.emitAll_col (o : List Out) : (s.emitAll o).col = s.col := rfl
@[simp] theorem State.emitAll_qce (o : List Out) : (s.emitAll o).qce = s.qce := rfl
@[simp] theorem State.emitAll_pathQ (o : List Out) : (s.emitAll o).pathQ = s.pathQ := rfl
@[simp] theorem State.emitAll_pathS (o : List Out) : (s.emitAll o).pathS = s.pathS := rfl
@[simp] theorem State.emitAll_exp (o : List Out) : (s.emitAll o).exp = s.exp := rfl
@[simp] theorem State.emitAll_err (o : List Out) : (s.emitAll o).err = s.err := rfl
@[simp] theorem State.emitAll_pwr (o : List Out) : (s.emitAll o).pwr = s.pwr := rfl
@[simp] theorem State.emitAll_sec (o : List Out) : (s.emitAll o).sec = s.sec := rfl
@[simp] theorem State.emitAll_tst (o : List Out) : (s.emitAll o).tst = s.tst := rfl

@[simp] theorem State.modLaunch_pending (q : BitVec 12) (f : Launch → Launch) : (s.modLaunch q f).pending = s.pending := rfl
@[simp] theorem State.modLaunch_out (q : BitVec 12) (f : Launch → Launch) : (s.modLaunch q f).out = s.out := rfl
@[simp] theorem State.modLaunch_fresh (q : BitVec 12) (f : Launch → Launch) : (s.modLaunch q f).fresh = s.fresh := rfl
@[simp] theorem State.modLaunch_scratch (q : BitVec 12) (f : Launch → Launch) : (s.modLaunch q f).scratch = s.scratch := rfl
@[simp] theorem State.modLaunch_devidValid (q : BitVec 12) (f : Launch → Launch) : (s.modLaunch q f).devidValid = s.devidValid := rfl
@[simp] theorem State.modLaunch_devid (q : BitVec 12) (f : Launch → Launch) : (s.modLaunch q f).devid = s.devid := rfl
@[simp] theorem State.modLaunch_cores (q : BitVec 12) (f : Launch → Launch) : (s.modLaunch q f).cores = s.cores := rfl
@[simp] theorem State.modLaunch_pcores (q : BitVec 12) (f : Launch → Launch) : (s.modLaunch q f).pcores = s.pcores := rfl
@[simp] theorem State.modLaunch_images (q : BitVec 12) (f : Launch → Launch) : (s.modLaunch q f).images = s.images := rfl
@[simp] theorem State.modLaunch_scheds (q : BitVec 12) (f : Launch → Launch) : (s.modLaunch q f).scheds = s.scheds := rfl
@[simp] theorem State.modLaunch_useClock (q : BitVec 12) (f : Launch → Launch) : (s.modLaunch q f).useClock = s.useClock := rfl
@[simp] theorem State.modLaunch_barPassed (q : BitVec 12) (f : Launch → Launch) : (s.modLaunch q f).barPassed = s.barPassed := rfl
@[simp] theorem State.modLaunch_heldObls (q : BitVec 12) (f : Launch → Launch) : (s.modLaunch q f).heldObls = s.heldObls := rfl
@[simp] theorem State.modLaunch_saving (q : BitVec 12) (f : Launch → Launch) : (s.modLaunch q f).saving = s.saving := rfl
@[simp] theorem State.modLaunch_restoring (q : BitVec 12) (f : Launch → Launch) : (s.modLaunch q f).restoring = s.restoring := rfl
@[simp] theorem State.modLaunch_hbm (q : BitVec 12) (f : Launch → Launch) : (s.modLaunch q f).hbm = s.hbm := rfl
@[simp] theorem State.modLaunch_xlt (q : BitVec 12) (f : Launch → Launch) : (s.modLaunch q f).xlt = s.xlt := rfl
@[simp] theorem State.modLaunch_stm (q : BitVec 12) (f : Launch → Launch) : (s.modLaunch q f).stm = s.stm := rfl
@[simp] theorem State.modLaunch_fab (q : BitVec 12) (f : Launch → Launch) : (s.modLaunch q f).fab = s.fab := rfl
@[simp] theorem State.modLaunch_col (q : BitVec 12) (f : Launch → Launch) : (s.modLaunch q f).col = s.col := rfl
@[simp] theorem State.modLaunch_qce (q : BitVec 12) (f : Launch → Launch) : (s.modLaunch q f).qce = s.qce := rfl
@[simp] theorem State.modLaunch_pathQ (q : BitVec 12) (f : Launch → Launch) : (s.modLaunch q f).pathQ = s.pathQ := rfl
@[simp] theorem State.modLaunch_pathS (q : BitVec 12) (f : Launch → Launch) : (s.modLaunch q f).pathS = s.pathS := rfl
@[simp] theorem State.modLaunch_exp (q : BitVec 12) (f : Launch → Launch) : (s.modLaunch q f).exp = s.exp := rfl
@[simp] theorem State.modLaunch_err (q : BitVec 12) (f : Launch → Launch) : (s.modLaunch q f).err = s.err := rfl
@[simp] theorem State.modLaunch_pwr (q : BitVec 12) (f : Launch → Launch) : (s.modLaunch q f).pwr = s.pwr := rfl
@[simp] theorem State.modLaunch_sec (q : BitVec 12) (f : Launch → Launch) : (s.modLaunch q f).sec = s.sec := rfl
@[simp] theorem State.modLaunch_tst (q : BitVec 12) (f : Launch → Launch) : (s.modLaunch q f).tst = s.tst := rfl

@[simp] theorem State.modPcore_pending (i : Nat) (f : PCore → PCore) : (s.modPcore i f).pending = s.pending := rfl
@[simp] theorem State.modPcore_out (i : Nat) (f : PCore → PCore) : (s.modPcore i f).out = s.out := rfl
@[simp] theorem State.modPcore_fresh (i : Nat) (f : PCore → PCore) : (s.modPcore i f).fresh = s.fresh := rfl
@[simp] theorem State.modPcore_scratch (i : Nat) (f : PCore → PCore) : (s.modPcore i f).scratch = s.scratch := rfl
@[simp] theorem State.modPcore_devidValid (i : Nat) (f : PCore → PCore) : (s.modPcore i f).devidValid = s.devidValid := rfl
@[simp] theorem State.modPcore_devid (i : Nat) (f : PCore → PCore) : (s.modPcore i f).devid = s.devid := rfl
@[simp] theorem State.modPcore_cores (i : Nat) (f : PCore → PCore) : (s.modPcore i f).cores = s.cores := rfl
@[simp] theorem State.modPcore_launches (i : Nat) (f : PCore → PCore) : (s.modPcore i f).launches = s.launches := rfl
@[simp] theorem State.modPcore_images (i : Nat) (f : PCore → PCore) : (s.modPcore i f).images = s.images := rfl
@[simp] theorem State.modPcore_scheds (i : Nat) (f : PCore → PCore) : (s.modPcore i f).scheds = s.scheds := rfl
@[simp] theorem State.modPcore_useClock (i : Nat) (f : PCore → PCore) : (s.modPcore i f).useClock = s.useClock := rfl
@[simp] theorem State.modPcore_barPassed (i : Nat) (f : PCore → PCore) : (s.modPcore i f).barPassed = s.barPassed := rfl
@[simp] theorem State.modPcore_heldObls (i : Nat) (f : PCore → PCore) : (s.modPcore i f).heldObls = s.heldObls := rfl
@[simp] theorem State.modPcore_saving (i : Nat) (f : PCore → PCore) : (s.modPcore i f).saving = s.saving := rfl
@[simp] theorem State.modPcore_restoring (i : Nat) (f : PCore → PCore) : (s.modPcore i f).restoring = s.restoring := rfl
@[simp] theorem State.modPcore_hbm (i : Nat) (f : PCore → PCore) : (s.modPcore i f).hbm = s.hbm := rfl
@[simp] theorem State.modPcore_xlt (i : Nat) (f : PCore → PCore) : (s.modPcore i f).xlt = s.xlt := rfl
@[simp] theorem State.modPcore_stm (i : Nat) (f : PCore → PCore) : (s.modPcore i f).stm = s.stm := rfl
@[simp] theorem State.modPcore_fab (i : Nat) (f : PCore → PCore) : (s.modPcore i f).fab = s.fab := rfl
@[simp] theorem State.modPcore_col (i : Nat) (f : PCore → PCore) : (s.modPcore i f).col = s.col := rfl
@[simp] theorem State.modPcore_qce (i : Nat) (f : PCore → PCore) : (s.modPcore i f).qce = s.qce := rfl
@[simp] theorem State.modPcore_pathQ (i : Nat) (f : PCore → PCore) : (s.modPcore i f).pathQ = s.pathQ := rfl
@[simp] theorem State.modPcore_pathS (i : Nat) (f : PCore → PCore) : (s.modPcore i f).pathS = s.pathS := rfl
@[simp] theorem State.modPcore_exp (i : Nat) (f : PCore → PCore) : (s.modPcore i f).exp = s.exp := rfl
@[simp] theorem State.modPcore_err (i : Nat) (f : PCore → PCore) : (s.modPcore i f).err = s.err := rfl
@[simp] theorem State.modPcore_pwr (i : Nat) (f : PCore → PCore) : (s.modPcore i f).pwr = s.pwr := rfl
@[simp] theorem State.modPcore_sec (i : Nat) (f : PCore → PCore) : (s.modPcore i f).sec = s.sec := rfl
@[simp] theorem State.modPcore_tst (i : Nat) (f : PCore → PCore) : (s.modPcore i f).tst = s.tst := rfl

@[simp] theorem State.setRole_pending (a p : Nat) (r : BitVec 4) : (s.setRole a p r).pending = s.pending := rfl
@[simp] theorem State.setRole_out (a p : Nat) (r : BitVec 4) : (s.setRole a p r).out = s.out := rfl
@[simp] theorem State.setRole_fresh (a p : Nat) (r : BitVec 4) : (s.setRole a p r).fresh = s.fresh := rfl
@[simp] theorem State.setRole_scratch (a p : Nat) (r : BitVec 4) : (s.setRole a p r).scratch = s.scratch := rfl
@[simp] theorem State.setRole_devidValid (a p : Nat) (r : BitVec 4) : (s.setRole a p r).devidValid = s.devidValid := rfl
@[simp] theorem State.setRole_devid (a p : Nat) (r : BitVec 4) : (s.setRole a p r).devid = s.devid := rfl
@[simp] theorem State.setRole_cores (a p : Nat) (r : BitVec 4) : (s.setRole a p r).cores = s.cores := rfl
@[simp] theorem State.setRole_pcores (a p : Nat) (r : BitVec 4) : (s.setRole a p r).pcores = s.pcores := rfl
@[simp] theorem State.setRole_launches (a p : Nat) (r : BitVec 4) : (s.setRole a p r).launches = s.launches := rfl
@[simp] theorem State.setRole_images (a p : Nat) (r : BitVec 4) : (s.setRole a p r).images = s.images := rfl
@[simp] theorem State.setRole_scheds (a p : Nat) (r : BitVec 4) : (s.setRole a p r).scheds = s.scheds := rfl
@[simp] theorem State.setRole_useClock (a p : Nat) (r : BitVec 4) : (s.setRole a p r).useClock = s.useClock := rfl
@[simp] theorem State.setRole_barPassed (a p : Nat) (r : BitVec 4) : (s.setRole a p r).barPassed = s.barPassed := rfl
@[simp] theorem State.setRole_heldObls (a p : Nat) (r : BitVec 4) : (s.setRole a p r).heldObls = s.heldObls := rfl
@[simp] theorem State.setRole_saving (a p : Nat) (r : BitVec 4) : (s.setRole a p r).saving = s.saving := rfl
@[simp] theorem State.setRole_restoring (a p : Nat) (r : BitVec 4) : (s.setRole a p r).restoring = s.restoring := rfl
@[simp] theorem State.setRole_hbm (a p : Nat) (r : BitVec 4) : (s.setRole a p r).hbm = s.hbm := rfl
@[simp] theorem State.setRole_xlt (a p : Nat) (r : BitVec 4) : (s.setRole a p r).xlt = s.xlt := rfl
@[simp] theorem State.setRole_stm (a p : Nat) (r : BitVec 4) : (s.setRole a p r).stm = s.stm := rfl
@[simp] theorem State.setRole_fab (a p : Nat) (r : BitVec 4) : (s.setRole a p r).fab = s.fab := rfl
@[simp] theorem State.setRole_col (a p : Nat) (r : BitVec 4) : (s.setRole a p r).col = s.col := rfl
@[simp] theorem State.setRole_qce (a p : Nat) (r : BitVec 4) : (s.setRole a p r).qce = s.qce := rfl
@[simp] theorem State.setRole_pathQ (a p : Nat) (r : BitVec 4) : (s.setRole a p r).pathQ = s.pathQ := rfl
@[simp] theorem State.setRole_pathS (a p : Nat) (r : BitVec 4) : (s.setRole a p r).pathS = s.pathS := rfl
@[simp] theorem State.setRole_exp (a p : Nat) (r : BitVec 4) : (s.setRole a p r).exp = s.exp := rfl
@[simp] theorem State.setRole_pwr (a p : Nat) (r : BitVec 4) : (s.setRole a p r).pwr = s.pwr := rfl
@[simp] theorem State.setRole_sec (a p : Nat) (r : BitVec 4) : (s.setRole a p r).sec = s.sec := rfl
@[simp] theorem State.setRole_tst (a p : Nat) (r : BitVec 4) : (s.setRole a p r).tst = s.tst := rfl

@[simp] theorem State.modErr_pending (f : Err → Err) : (s.modErr f).pending = s.pending := rfl
@[simp] theorem State.modErr_out (f : Err → Err) : (s.modErr f).out = s.out := rfl
@[simp] theorem State.modErr_fresh (f : Err → Err) : (s.modErr f).fresh = s.fresh := rfl
@[simp] theorem State.modErr_scratch (f : Err → Err) : (s.modErr f).scratch = s.scratch := rfl
@[simp] theorem State.modErr_devidValid (f : Err → Err) : (s.modErr f).devidValid = s.devidValid := rfl
@[simp] theorem State.modErr_devid (f : Err → Err) : (s.modErr f).devid = s.devid := rfl
@[simp] theorem State.modErr_cores (f : Err → Err) : (s.modErr f).cores = s.cores := rfl
@[simp] theorem State.modErr_pcores (f : Err → Err) : (s.modErr f).pcores = s.pcores := rfl
@[simp] theorem State.modErr_launches (f : Err → Err) : (s.modErr f).launches = s.launches := rfl
@[simp] theorem State.modErr_images (f : Err → Err) : (s.modErr f).images = s.images := rfl
@[simp] theorem State.modErr_scheds (f : Err → Err) : (s.modErr f).scheds = s.scheds := rfl
@[simp] theorem State.modErr_useClock (f : Err → Err) : (s.modErr f).useClock = s.useClock := rfl
@[simp] theorem State.modErr_barPassed (f : Err → Err) : (s.modErr f).barPassed = s.barPassed := rfl
@[simp] theorem State.modErr_heldObls (f : Err → Err) : (s.modErr f).heldObls = s.heldObls := rfl
@[simp] theorem State.modErr_saving (f : Err → Err) : (s.modErr f).saving = s.saving := rfl
@[simp] theorem State.modErr_restoring (f : Err → Err) : (s.modErr f).restoring = s.restoring := rfl
@[simp] theorem State.modErr_hbm (f : Err → Err) : (s.modErr f).hbm = s.hbm := rfl
@[simp] theorem State.modErr_xlt (f : Err → Err) : (s.modErr f).xlt = s.xlt := rfl
@[simp] theorem State.modErr_stm (f : Err → Err) : (s.modErr f).stm = s.stm := rfl
@[simp] theorem State.modErr_fab (f : Err → Err) : (s.modErr f).fab = s.fab := rfl
@[simp] theorem State.modErr_col (f : Err → Err) : (s.modErr f).col = s.col := rfl
@[simp] theorem State.modErr_qce (f : Err → Err) : (s.modErr f).qce = s.qce := rfl
@[simp] theorem State.modErr_pathQ (f : Err → Err) : (s.modErr f).pathQ = s.pathQ := rfl
@[simp] theorem State.modErr_pathS (f : Err → Err) : (s.modErr f).pathS = s.pathS := rfl
@[simp] theorem State.modErr_exp (f : Err → Err) : (s.modErr f).exp = s.exp := rfl
@[simp] theorem State.modErr_pwr (f : Err → Err) : (s.modErr f).pwr = s.pwr := rfl
@[simp] theorem State.modErr_sec (f : Err → Err) : (s.modErr f).sec = s.sec := rfl
@[simp] theorem State.modErr_tst (f : Err → Err) : (s.modErr f).tst = s.tst := rfl

@[simp] theorem State.history_pending (k : BitVec 4) (u : Nat) (w : HKind) : (s.history k u w).pending = s.pending := rfl
@[simp] theorem State.history_out (k : BitVec 4) (u : Nat) (w : HKind) : (s.history k u w).out = s.out := rfl
@[simp] theorem State.history_fresh (k : BitVec 4) (u : Nat) (w : HKind) : (s.history k u w).fresh = s.fresh := rfl
@[simp] theorem State.history_scratch (k : BitVec 4) (u : Nat) (w : HKind) : (s.history k u w).scratch = s.scratch := rfl
@[simp] theorem State.history_devidValid (k : BitVec 4) (u : Nat) (w : HKind) : (s.history k u w).devidValid = s.devidValid := rfl
@[simp] theorem State.history_devid (k : BitVec 4) (u : Nat) (w : HKind) : (s.history k u w).devid = s.devid := rfl
@[simp] theorem State.history_cores (k : BitVec 4) (u : Nat) (w : HKind) : (s.history k u w).cores = s.cores := rfl
@[simp] theorem State.history_pcores (k : BitVec 4) (u : Nat) (w : HKind) : (s.history k u w).pcores = s.pcores := rfl
@[simp] theorem State.history_launches (k : BitVec 4) (u : Nat) (w : HKind) : (s.history k u w).launches = s.launches := rfl
@[simp] theorem State.history_images (k : BitVec 4) (u : Nat) (w : HKind) : (s.history k u w).images = s.images := rfl
@[simp] theorem State.history_scheds (k : BitVec 4) (u : Nat) (w : HKind) : (s.history k u w).scheds = s.scheds := rfl
@[simp] theorem State.history_useClock (k : BitVec 4) (u : Nat) (w : HKind) : (s.history k u w).useClock = s.useClock := rfl
@[simp] theorem State.history_barPassed (k : BitVec 4) (u : Nat) (w : HKind) : (s.history k u w).barPassed = s.barPassed := rfl
@[simp] theorem State.history_heldObls (k : BitVec 4) (u : Nat) (w : HKind) : (s.history k u w).heldObls = s.heldObls := rfl
@[simp] theorem State.history_saving (k : BitVec 4) (u : Nat) (w : HKind) : (s.history k u w).saving = s.saving := rfl
@[simp] theorem State.history_restoring (k : BitVec 4) (u : Nat) (w : HKind) : (s.history k u w).restoring = s.restoring := rfl
@[simp] theorem State.history_hbm (k : BitVec 4) (u : Nat) (w : HKind) : (s.history k u w).hbm = s.hbm := rfl
@[simp] theorem State.history_xlt (k : BitVec 4) (u : Nat) (w : HKind) : (s.history k u w).xlt = s.xlt := rfl
@[simp] theorem State.history_stm (k : BitVec 4) (u : Nat) (w : HKind) : (s.history k u w).stm = s.stm := rfl
@[simp] theorem State.history_fab (k : BitVec 4) (u : Nat) (w : HKind) : (s.history k u w).fab = s.fab := rfl
@[simp] theorem State.history_col (k : BitVec 4) (u : Nat) (w : HKind) : (s.history k u w).col = s.col := rfl
@[simp] theorem State.history_qce (k : BitVec 4) (u : Nat) (w : HKind) : (s.history k u w).qce = s.qce := rfl
@[simp] theorem State.history_pathQ (k : BitVec 4) (u : Nat) (w : HKind) : (s.history k u w).pathQ = s.pathQ := rfl
@[simp] theorem State.history_pathS (k : BitVec 4) (u : Nat) (w : HKind) : (s.history k u w).pathS = s.pathS := rfl
@[simp] theorem State.history_exp (k : BitVec 4) (u : Nat) (w : HKind) : (s.history k u w).exp = s.exp := rfl
@[simp] theorem State.history_pwr (k : BitVec 4) (u : Nat) (w : HKind) : (s.history k u w).pwr = s.pwr := rfl
@[simp] theorem State.history_sec (k : BitVec 4) (u : Nat) (w : HKind) : (s.history k u w).sec = s.sec := rfl
@[simp] theorem State.history_tst (k : BitVec 4) (u : Nat) (w : HKind) : (s.history k u w).tst = s.tst := rfl

@[simp] theorem State.modSec_pending (f : Sec → Sec) : (s.modSec f).pending = s.pending := rfl
@[simp] theorem State.modSec_out (f : Sec → Sec) : (s.modSec f).out = s.out := rfl
@[simp] theorem State.modSec_fresh (f : Sec → Sec) : (s.modSec f).fresh = s.fresh := rfl
@[simp] theorem State.modSec_scratch (f : Sec → Sec) : (s.modSec f).scratch = s.scratch := rfl
@[simp] theorem State.modSec_devidValid (f : Sec → Sec) : (s.modSec f).devidValid = s.devidValid := rfl
@[simp] theorem State.modSec_devid (f : Sec → Sec) : (s.modSec f).devid = s.devid := rfl
@[simp] theorem State.modSec_cores (f : Sec → Sec) : (s.modSec f).cores = s.cores := rfl
@[simp] theorem State.modSec_pcores (f : Sec → Sec) : (s.modSec f).pcores = s.pcores := rfl
@[simp] theorem State.modSec_launches (f : Sec → Sec) : (s.modSec f).launches = s.launches := rfl
@[simp] theorem State.modSec_images (f : Sec → Sec) : (s.modSec f).images = s.images := rfl
@[simp] theorem State.modSec_scheds (f : Sec → Sec) : (s.modSec f).scheds = s.scheds := rfl
@[simp] theorem State.modSec_useClock (f : Sec → Sec) : (s.modSec f).useClock = s.useClock := rfl
@[simp] theorem State.modSec_barPassed (f : Sec → Sec) : (s.modSec f).barPassed = s.barPassed := rfl
@[simp] theorem State.modSec_heldObls (f : Sec → Sec) : (s.modSec f).heldObls = s.heldObls := rfl
@[simp] theorem State.modSec_saving (f : Sec → Sec) : (s.modSec f).saving = s.saving := rfl
@[simp] theorem State.modSec_restoring (f : Sec → Sec) : (s.modSec f).restoring = s.restoring := rfl
@[simp] theorem State.modSec_hbm (f : Sec → Sec) : (s.modSec f).hbm = s.hbm := rfl
@[simp] theorem State.modSec_xlt (f : Sec → Sec) : (s.modSec f).xlt = s.xlt := rfl
@[simp] theorem State.modSec_stm (f : Sec → Sec) : (s.modSec f).stm = s.stm := rfl
@[simp] theorem State.modSec_fab (f : Sec → Sec) : (s.modSec f).fab = s.fab := rfl
@[simp] theorem State.modSec_col (f : Sec → Sec) : (s.modSec f).col = s.col := rfl
@[simp] theorem State.modSec_qce (f : Sec → Sec) : (s.modSec f).qce = s.qce := rfl
@[simp] theorem State.modSec_pathQ (f : Sec → Sec) : (s.modSec f).pathQ = s.pathQ := rfl
@[simp] theorem State.modSec_pathS (f : Sec → Sec) : (s.modSec f).pathS = s.pathS := rfl
@[simp] theorem State.modSec_exp (f : Sec → Sec) : (s.modSec f).exp = s.exp := rfl
@[simp] theorem State.modSec_err (f : Sec → Sec) : (s.modSec f).err = s.err := rfl
@[simp] theorem State.modSec_pwr (f : Sec → Sec) : (s.modSec f).pwr = s.pwr := rfl
@[simp] theorem State.modSec_tst (f : Sec → Sec) : (s.modSec f).tst = s.tst := rfl

@[simp] theorem State.modPwr_pending (f : Pwr → Pwr) : (s.modPwr f).pending = s.pending := rfl
@[simp] theorem State.modPwr_out (f : Pwr → Pwr) : (s.modPwr f).out = s.out := rfl
@[simp] theorem State.modPwr_fresh (f : Pwr → Pwr) : (s.modPwr f).fresh = s.fresh := rfl
@[simp] theorem State.modPwr_scratch (f : Pwr → Pwr) : (s.modPwr f).scratch = s.scratch := rfl
@[simp] theorem State.modPwr_devidValid (f : Pwr → Pwr) : (s.modPwr f).devidValid = s.devidValid := rfl
@[simp] theorem State.modPwr_devid (f : Pwr → Pwr) : (s.modPwr f).devid = s.devid := rfl
@[simp] theorem State.modPwr_cores (f : Pwr → Pwr) : (s.modPwr f).cores = s.cores := rfl
@[simp] theorem State.modPwr_pcores (f : Pwr → Pwr) : (s.modPwr f).pcores = s.pcores := rfl
@[simp] theorem State.modPwr_launches (f : Pwr → Pwr) : (s.modPwr f).launches = s.launches := rfl
@[simp] theorem State.modPwr_images (f : Pwr → Pwr) : (s.modPwr f).images = s.images := rfl
@[simp] theorem State.modPwr_scheds (f : Pwr → Pwr) : (s.modPwr f).scheds = s.scheds := rfl
@[simp] theorem State.modPwr_useClock (f : Pwr → Pwr) : (s.modPwr f).useClock = s.useClock := rfl
@[simp] theorem State.modPwr_barPassed (f : Pwr → Pwr) : (s.modPwr f).barPassed = s.barPassed := rfl
@[simp] theorem State.modPwr_heldObls (f : Pwr → Pwr) : (s.modPwr f).heldObls = s.heldObls := rfl
@[simp] theorem State.modPwr_saving (f : Pwr → Pwr) : (s.modPwr f).saving = s.saving := rfl
@[simp] theorem State.modPwr_restoring (f : Pwr → Pwr) : (s.modPwr f).restoring = s.restoring := rfl
@[simp] theorem State.modPwr_hbm (f : Pwr → Pwr) : (s.modPwr f).hbm = s.hbm := rfl
@[simp] theorem State.modPwr_xlt (f : Pwr → Pwr) : (s.modPwr f).xlt = s.xlt := rfl
@[simp] theorem State.modPwr_stm (f : Pwr → Pwr) : (s.modPwr f).stm = s.stm := rfl
@[simp] theorem State.modPwr_fab (f : Pwr → Pwr) : (s.modPwr f).fab = s.fab := rfl
@[simp] theorem State.modPwr_col (f : Pwr → Pwr) : (s.modPwr f).col = s.col := rfl
@[simp] theorem State.modPwr_qce (f : Pwr → Pwr) : (s.modPwr f).qce = s.qce := rfl
@[simp] theorem State.modPwr_pathQ (f : Pwr → Pwr) : (s.modPwr f).pathQ = s.pathQ := rfl
@[simp] theorem State.modPwr_pathS (f : Pwr → Pwr) : (s.modPwr f).pathS = s.pathS := rfl
@[simp] theorem State.modPwr_exp (f : Pwr → Pwr) : (s.modPwr f).exp = s.exp := rfl
@[simp] theorem State.modPwr_err (f : Pwr → Pwr) : (s.modPwr f).err = s.err := rfl
@[simp] theorem State.modPwr_sec (f : Pwr → Pwr) : (s.modPwr f).sec = s.sec := rfl
@[simp] theorem State.modPwr_tst (f : Pwr → Pwr) : (s.modPwr f).tst = s.tst := rfl

@[simp] theorem State.modSet_pending (i : Nat) (f : PSet → PSet) : (s.modSet i f).pending = s.pending := rfl
@[simp] theorem State.modSet_out (i : Nat) (f : PSet → PSet) : (s.modSet i f).out = s.out := rfl
@[simp] theorem State.modSet_fresh (i : Nat) (f : PSet → PSet) : (s.modSet i f).fresh = s.fresh := rfl
@[simp] theorem State.modSet_scratch (i : Nat) (f : PSet → PSet) : (s.modSet i f).scratch = s.scratch := rfl
@[simp] theorem State.modSet_devidValid (i : Nat) (f : PSet → PSet) : (s.modSet i f).devidValid = s.devidValid := rfl
@[simp] theorem State.modSet_devid (i : Nat) (f : PSet → PSet) : (s.modSet i f).devid = s.devid := rfl
@[simp] theorem State.modSet_cores (i : Nat) (f : PSet → PSet) : (s.modSet i f).cores = s.cores := rfl
@[simp] theorem State.modSet_pcores (i : Nat) (f : PSet → PSet) : (s.modSet i f).pcores = s.pcores := rfl
@[simp] theorem State.modSet_launches (i : Nat) (f : PSet → PSet) : (s.modSet i f).launches = s.launches := rfl
@[simp] theorem State.modSet_images (i : Nat) (f : PSet → PSet) : (s.modSet i f).images = s.images := rfl
@[simp] theorem State.modSet_scheds (i : Nat) (f : PSet → PSet) : (s.modSet i f).scheds = s.scheds := rfl
@[simp] theorem State.modSet_useClock (i : Nat) (f : PSet → PSet) : (s.modSet i f).useClock = s.useClock := rfl
@[simp] theorem State.modSet_barPassed (i : Nat) (f : PSet → PSet) : (s.modSet i f).barPassed = s.barPassed := rfl
@[simp] theorem State.modSet_heldObls (i : Nat) (f : PSet → PSet) : (s.modSet i f).heldObls = s.heldObls := rfl
@[simp] theorem State.modSet_saving (i : Nat) (f : PSet → PSet) : (s.modSet i f).saving = s.saving := rfl
@[simp] theorem State.modSet_restoring (i : Nat) (f : PSet → PSet) : (s.modSet i f).restoring = s.restoring := rfl
@[simp] theorem State.modSet_hbm (i : Nat) (f : PSet → PSet) : (s.modSet i f).hbm = s.hbm := rfl
@[simp] theorem State.modSet_xlt (i : Nat) (f : PSet → PSet) : (s.modSet i f).xlt = s.xlt := rfl
@[simp] theorem State.modSet_stm (i : Nat) (f : PSet → PSet) : (s.modSet i f).stm = s.stm := rfl
@[simp] theorem State.modSet_fab (i : Nat) (f : PSet → PSet) : (s.modSet i f).fab = s.fab := rfl
@[simp] theorem State.modSet_col (i : Nat) (f : PSet → PSet) : (s.modSet i f).col = s.col := rfl
@[simp] theorem State.modSet_qce (i : Nat) (f : PSet → PSet) : (s.modSet i f).qce = s.qce := rfl
@[simp] theorem State.modSet_pathQ (i : Nat) (f : PSet → PSet) : (s.modSet i f).pathQ = s.pathQ := rfl
@[simp] theorem State.modSet_pathS (i : Nat) (f : PSet → PSet) : (s.modSet i f).pathS = s.pathS := rfl
@[simp] theorem State.modSet_exp (i : Nat) (f : PSet → PSet) : (s.modSet i f).exp = s.exp := rfl
@[simp] theorem State.modSet_err (i : Nat) (f : PSet → PSet) : (s.modSet i f).err = s.err := rfl
@[simp] theorem State.modSet_sec (i : Nat) (f : PSet → PSet) : (s.modSet i f).sec = s.sec := rfl
@[simp] theorem State.modSet_tst (i : Nat) (f : PSet → PSet) : (s.modSet i f).tst = s.tst := rfl

@[simp] theorem State.modFab_pending (f : Fab → Fab) : (s.modFab f).pending = s.pending := rfl
@[simp] theorem State.modFab_out (f : Fab → Fab) : (s.modFab f).out = s.out := rfl
@[simp] theorem State.modFab_fresh (f : Fab → Fab) : (s.modFab f).fresh = s.fresh := rfl
@[simp] theorem State.modFab_scratch (f : Fab → Fab) : (s.modFab f).scratch = s.scratch := rfl
@[simp] theorem State.modFab_devidValid (f : Fab → Fab) : (s.modFab f).devidValid = s.devidValid := rfl
@[simp] theorem State.modFab_devid (f : Fab → Fab) : (s.modFab f).devid = s.devid := rfl
@[simp] theorem State.modFab_cores (f : Fab → Fab) : (s.modFab f).cores = s.cores := rfl
@[simp] theorem State.modFab_pcores (f : Fab → Fab) : (s.modFab f).pcores = s.pcores := rfl
@[simp] theorem State.modFab_launches (f : Fab → Fab) : (s.modFab f).launches = s.launches := rfl
@[simp] theorem State.modFab_images (f : Fab → Fab) : (s.modFab f).images = s.images := rfl
@[simp] theorem State.modFab_scheds (f : Fab → Fab) : (s.modFab f).scheds = s.scheds := rfl
@[simp] theorem State.modFab_useClock (f : Fab → Fab) : (s.modFab f).useClock = s.useClock := rfl
@[simp] theorem State.modFab_barPassed (f : Fab → Fab) : (s.modFab f).barPassed = s.barPassed := rfl
@[simp] theorem State.modFab_heldObls (f : Fab → Fab) : (s.modFab f).heldObls = s.heldObls := rfl
@[simp] theorem State.modFab_saving (f : Fab → Fab) : (s.modFab f).saving = s.saving := rfl
@[simp] theorem State.modFab_restoring (f : Fab → Fab) : (s.modFab f).restoring = s.restoring := rfl
@[simp] theorem State.modFab_hbm (f : Fab → Fab) : (s.modFab f).hbm = s.hbm := rfl
@[simp] theorem State.modFab_xlt (f : Fab → Fab) : (s.modFab f).xlt = s.xlt := rfl
@[simp] theorem State.modFab_stm (f : Fab → Fab) : (s.modFab f).stm = s.stm := rfl
@[simp] theorem State.modFab_col (f : Fab → Fab) : (s.modFab f).col = s.col := rfl
@[simp] theorem State.modFab_qce (f : Fab → Fab) : (s.modFab f).qce = s.qce := rfl
@[simp] theorem State.modFab_pathQ (f : Fab → Fab) : (s.modFab f).pathQ = s.pathQ := rfl
@[simp] theorem State.modFab_pathS (f : Fab → Fab) : (s.modFab f).pathS = s.pathS := rfl
@[simp] theorem State.modFab_exp (f : Fab → Fab) : (s.modFab f).exp = s.exp := rfl
@[simp] theorem State.modFab_err (f : Fab → Fab) : (s.modFab f).err = s.err := rfl
@[simp] theorem State.modFab_pwr (f : Fab → Fab) : (s.modFab f).pwr = s.pwr := rfl
@[simp] theorem State.modFab_sec (f : Fab → Fab) : (s.modFab f).sec = s.sec := rfl
@[simp] theorem State.modFab_tst (f : Fab → Fab) : (s.modFab f).tst = s.tst := rfl

@[simp] theorem State.modPort_pending (p : Fin 6) (f : Port → Port) : (s.modPort p f).pending = s.pending := rfl
@[simp] theorem State.modPort_out (p : Fin 6) (f : Port → Port) : (s.modPort p f).out = s.out := rfl
@[simp] theorem State.modPort_fresh (p : Fin 6) (f : Port → Port) : (s.modPort p f).fresh = s.fresh := rfl
@[simp] theorem State.modPort_scratch (p : Fin 6) (f : Port → Port) : (s.modPort p f).scratch = s.scratch := rfl
@[simp] theorem State.modPort_devidValid (p : Fin 6) (f : Port → Port) : (s.modPort p f).devidValid = s.devidValid := rfl
@[simp] theorem State.modPort_devid (p : Fin 6) (f : Port → Port) : (s.modPort p f).devid = s.devid := rfl
@[simp] theorem State.modPort_cores (p : Fin 6) (f : Port → Port) : (s.modPort p f).cores = s.cores := rfl
@[simp] theorem State.modPort_pcores (p : Fin 6) (f : Port → Port) : (s.modPort p f).pcores = s.pcores := rfl
@[simp] theorem State.modPort_launches (p : Fin 6) (f : Port → Port) : (s.modPort p f).launches = s.launches := rfl
@[simp] theorem State.modPort_images (p : Fin 6) (f : Port → Port) : (s.modPort p f).images = s.images := rfl
@[simp] theorem State.modPort_scheds (p : Fin 6) (f : Port → Port) : (s.modPort p f).scheds = s.scheds := rfl
@[simp] theorem State.modPort_useClock (p : Fin 6) (f : Port → Port) : (s.modPort p f).useClock = s.useClock := rfl
@[simp] theorem State.modPort_barPassed (p : Fin 6) (f : Port → Port) : (s.modPort p f).barPassed = s.barPassed := rfl
@[simp] theorem State.modPort_heldObls (p : Fin 6) (f : Port → Port) : (s.modPort p f).heldObls = s.heldObls := rfl
@[simp] theorem State.modPort_saving (p : Fin 6) (f : Port → Port) : (s.modPort p f).saving = s.saving := rfl
@[simp] theorem State.modPort_restoring (p : Fin 6) (f : Port → Port) : (s.modPort p f).restoring = s.restoring := rfl
@[simp] theorem State.modPort_hbm (p : Fin 6) (f : Port → Port) : (s.modPort p f).hbm = s.hbm := rfl
@[simp] theorem State.modPort_xlt (p : Fin 6) (f : Port → Port) : (s.modPort p f).xlt = s.xlt := rfl
@[simp] theorem State.modPort_stm (p : Fin 6) (f : Port → Port) : (s.modPort p f).stm = s.stm := rfl
@[simp] theorem State.modPort_col (p : Fin 6) (f : Port → Port) : (s.modPort p f).col = s.col := rfl
@[simp] theorem State.modPort_qce (p : Fin 6) (f : Port → Port) : (s.modPort p f).qce = s.qce := rfl
@[simp] theorem State.modPort_pathQ (p : Fin 6) (f : Port → Port) : (s.modPort p f).pathQ = s.pathQ := rfl
@[simp] theorem State.modPort_pathS (p : Fin 6) (f : Port → Port) : (s.modPort p f).pathS = s.pathS := rfl
@[simp] theorem State.modPort_exp (p : Fin 6) (f : Port → Port) : (s.modPort p f).exp = s.exp := rfl
@[simp] theorem State.modPort_err (p : Fin 6) (f : Port → Port) : (s.modPort p f).err = s.err := rfl
@[simp] theorem State.modPort_pwr (p : Fin 6) (f : Port → Port) : (s.modPort p f).pwr = s.pwr := rfl
@[simp] theorem State.modPort_sec (p : Fin 6) (f : Port → Port) : (s.modPort p f).sec = s.sec := rfl
@[simp] theorem State.modPort_tst (p : Fin 6) (f : Port → Port) : (s.modPort p f).tst = s.tst := rfl

@[simp] theorem State.modXlt_pending (f : Xlt → Xlt) : (s.modXlt f).pending = s.pending := rfl
@[simp] theorem State.modXlt_out (f : Xlt → Xlt) : (s.modXlt f).out = s.out := rfl
@[simp] theorem State.modXlt_fresh (f : Xlt → Xlt) : (s.modXlt f).fresh = s.fresh := rfl
@[simp] theorem State.modXlt_scratch (f : Xlt → Xlt) : (s.modXlt f).scratch = s.scratch := rfl
@[simp] theorem State.modXlt_devidValid (f : Xlt → Xlt) : (s.modXlt f).devidValid = s.devidValid := rfl
@[simp] theorem State.modXlt_devid (f : Xlt → Xlt) : (s.modXlt f).devid = s.devid := rfl
@[simp] theorem State.modXlt_cores (f : Xlt → Xlt) : (s.modXlt f).cores = s.cores := rfl
@[simp] theorem State.modXlt_pcores (f : Xlt → Xlt) : (s.modXlt f).pcores = s.pcores := rfl
@[simp] theorem State.modXlt_launches (f : Xlt → Xlt) : (s.modXlt f).launches = s.launches := rfl
@[simp] theorem State.modXlt_images (f : Xlt → Xlt) : (s.modXlt f).images = s.images := rfl
@[simp] theorem State.modXlt_scheds (f : Xlt → Xlt) : (s.modXlt f).scheds = s.scheds := rfl
@[simp] theorem State.modXlt_useClock (f : Xlt → Xlt) : (s.modXlt f).useClock = s.useClock := rfl
@[simp] theorem State.modXlt_barPassed (f : Xlt → Xlt) : (s.modXlt f).barPassed = s.barPassed := rfl
@[simp] theorem State.modXlt_heldObls (f : Xlt → Xlt) : (s.modXlt f).heldObls = s.heldObls := rfl
@[simp] theorem State.modXlt_saving (f : Xlt → Xlt) : (s.modXlt f).saving = s.saving := rfl
@[simp] theorem State.modXlt_restoring (f : Xlt → Xlt) : (s.modXlt f).restoring = s.restoring := rfl
@[simp] theorem State.modXlt_hbm (f : Xlt → Xlt) : (s.modXlt f).hbm = s.hbm := rfl
@[simp] theorem State.modXlt_stm (f : Xlt → Xlt) : (s.modXlt f).stm = s.stm := rfl
@[simp] theorem State.modXlt_fab (f : Xlt → Xlt) : (s.modXlt f).fab = s.fab := rfl
@[simp] theorem State.modXlt_col (f : Xlt → Xlt) : (s.modXlt f).col = s.col := rfl
@[simp] theorem State.modXlt_qce (f : Xlt → Xlt) : (s.modXlt f).qce = s.qce := rfl
@[simp] theorem State.modXlt_pathQ (f : Xlt → Xlt) : (s.modXlt f).pathQ = s.pathQ := rfl
@[simp] theorem State.modXlt_pathS (f : Xlt → Xlt) : (s.modXlt f).pathS = s.pathS := rfl
@[simp] theorem State.modXlt_exp (f : Xlt → Xlt) : (s.modXlt f).exp = s.exp := rfl
@[simp] theorem State.modXlt_err (f : Xlt → Xlt) : (s.modXlt f).err = s.err := rfl
@[simp] theorem State.modXlt_pwr (f : Xlt → Xlt) : (s.modXlt f).pwr = s.pwr := rfl
@[simp] theorem State.modXlt_sec (f : Xlt → Xlt) : (s.modXlt f).sec = s.sec := rfl
@[simp] theorem State.modXlt_tst (f : Xlt → Xlt) : (s.modXlt f).tst = s.tst := rfl

@[simp] theorem State.modPool_pending (q : Nat) (f : Pool → Pool) : (s.modPool q f).pending = s.pending := rfl
@[simp] theorem State.modPool_out (q : Nat) (f : Pool → Pool) : (s.modPool q f).out = s.out := rfl
@[simp] theorem State.modPool_fresh (q : Nat) (f : Pool → Pool) : (s.modPool q f).fresh = s.fresh := rfl
@[simp] theorem State.modPool_scratch (q : Nat) (f : Pool → Pool) : (s.modPool q f).scratch = s.scratch := rfl
@[simp] theorem State.modPool_devidValid (q : Nat) (f : Pool → Pool) : (s.modPool q f).devidValid = s.devidValid := rfl
@[simp] theorem State.modPool_devid (q : Nat) (f : Pool → Pool) : (s.modPool q f).devid = s.devid := rfl
@[simp] theorem State.modPool_cores (q : Nat) (f : Pool → Pool) : (s.modPool q f).cores = s.cores := rfl
@[simp] theorem State.modPool_pcores (q : Nat) (f : Pool → Pool) : (s.modPool q f).pcores = s.pcores := rfl
@[simp] theorem State.modPool_launches (q : Nat) (f : Pool → Pool) : (s.modPool q f).launches = s.launches := rfl
@[simp] theorem State.modPool_images (q : Nat) (f : Pool → Pool) : (s.modPool q f).images = s.images := rfl
@[simp] theorem State.modPool_scheds (q : Nat) (f : Pool → Pool) : (s.modPool q f).scheds = s.scheds := rfl
@[simp] theorem State.modPool_useClock (q : Nat) (f : Pool → Pool) : (s.modPool q f).useClock = s.useClock := rfl
@[simp] theorem State.modPool_barPassed (q : Nat) (f : Pool → Pool) : (s.modPool q f).barPassed = s.barPassed := rfl
@[simp] theorem State.modPool_heldObls (q : Nat) (f : Pool → Pool) : (s.modPool q f).heldObls = s.heldObls := rfl
@[simp] theorem State.modPool_saving (q : Nat) (f : Pool → Pool) : (s.modPool q f).saving = s.saving := rfl
@[simp] theorem State.modPool_restoring (q : Nat) (f : Pool → Pool) : (s.modPool q f).restoring = s.restoring := rfl
@[simp] theorem State.modPool_hbm (q : Nat) (f : Pool → Pool) : (s.modPool q f).hbm = s.hbm := rfl
@[simp] theorem State.modPool_stm (q : Nat) (f : Pool → Pool) : (s.modPool q f).stm = s.stm := rfl
@[simp] theorem State.modPool_fab (q : Nat) (f : Pool → Pool) : (s.modPool q f).fab = s.fab := rfl
@[simp] theorem State.modPool_col (q : Nat) (f : Pool → Pool) : (s.modPool q f).col = s.col := rfl
@[simp] theorem State.modPool_qce (q : Nat) (f : Pool → Pool) : (s.modPool q f).qce = s.qce := rfl
@[simp] theorem State.modPool_pathQ (q : Nat) (f : Pool → Pool) : (s.modPool q f).pathQ = s.pathQ := rfl
@[simp] theorem State.modPool_pathS (q : Nat) (f : Pool → Pool) : (s.modPool q f).pathS = s.pathS := rfl
@[simp] theorem State.modPool_exp (q : Nat) (f : Pool → Pool) : (s.modPool q f).exp = s.exp := rfl
@[simp] theorem State.modPool_err (q : Nat) (f : Pool → Pool) : (s.modPool q f).err = s.err := rfl
@[simp] theorem State.modPool_pwr (q : Nat) (f : Pool → Pool) : (s.modPool q f).pwr = s.pwr := rfl
@[simp] theorem State.modPool_sec (q : Nat) (f : Pool → Pool) : (s.modPool q f).sec = s.sec := rfl
@[simp] theorem State.modPool_tst (q : Nat) (f : Pool → Pool) : (s.modPool q f).tst = s.tst := rfl

@[simp] theorem State.modHbm_pending (f : Hbm → Hbm) : (s.modHbm f).pending = s.pending := rfl
@[simp] theorem State.modHbm_out (f : Hbm → Hbm) : (s.modHbm f).out = s.out := rfl
@[simp] theorem State.modHbm_fresh (f : Hbm → Hbm) : (s.modHbm f).fresh = s.fresh := rfl
@[simp] theorem State.modHbm_scratch (f : Hbm → Hbm) : (s.modHbm f).scratch = s.scratch := rfl
@[simp] theorem State.modHbm_devidValid (f : Hbm → Hbm) : (s.modHbm f).devidValid = s.devidValid := rfl
@[simp] theorem State.modHbm_devid (f : Hbm → Hbm) : (s.modHbm f).devid = s.devid := rfl
@[simp] theorem State.modHbm_cores (f : Hbm → Hbm) : (s.modHbm f).cores = s.cores := rfl
@[simp] theorem State.modHbm_pcores (f : Hbm → Hbm) : (s.modHbm f).pcores = s.pcores := rfl
@[simp] theorem State.modHbm_launches (f : Hbm → Hbm) : (s.modHbm f).launches = s.launches := rfl
@[simp] theorem State.modHbm_images (f : Hbm → Hbm) : (s.modHbm f).images = s.images := rfl
@[simp] theorem State.modHbm_scheds (f : Hbm → Hbm) : (s.modHbm f).scheds = s.scheds := rfl
@[simp] theorem State.modHbm_useClock (f : Hbm → Hbm) : (s.modHbm f).useClock = s.useClock := rfl
@[simp] theorem State.modHbm_barPassed (f : Hbm → Hbm) : (s.modHbm f).barPassed = s.barPassed := rfl
@[simp] theorem State.modHbm_heldObls (f : Hbm → Hbm) : (s.modHbm f).heldObls = s.heldObls := rfl
@[simp] theorem State.modHbm_saving (f : Hbm → Hbm) : (s.modHbm f).saving = s.saving := rfl
@[simp] theorem State.modHbm_restoring (f : Hbm → Hbm) : (s.modHbm f).restoring = s.restoring := rfl
@[simp] theorem State.modHbm_xlt (f : Hbm → Hbm) : (s.modHbm f).xlt = s.xlt := rfl
@[simp] theorem State.modHbm_stm (f : Hbm → Hbm) : (s.modHbm f).stm = s.stm := rfl
@[simp] theorem State.modHbm_fab (f : Hbm → Hbm) : (s.modHbm f).fab = s.fab := rfl
@[simp] theorem State.modHbm_col (f : Hbm → Hbm) : (s.modHbm f).col = s.col := rfl
@[simp] theorem State.modHbm_qce (f : Hbm → Hbm) : (s.modHbm f).qce = s.qce := rfl
@[simp] theorem State.modHbm_pathQ (f : Hbm → Hbm) : (s.modHbm f).pathQ = s.pathQ := rfl
@[simp] theorem State.modHbm_pathS (f : Hbm → Hbm) : (s.modHbm f).pathS = s.pathS := rfl
@[simp] theorem State.modHbm_exp (f : Hbm → Hbm) : (s.modHbm f).exp = s.exp := rfl
@[simp] theorem State.modHbm_err (f : Hbm → Hbm) : (s.modHbm f).err = s.err := rfl
@[simp] theorem State.modHbm_pwr (f : Hbm → Hbm) : (s.modHbm f).pwr = s.pwr := rfl
@[simp] theorem State.modHbm_sec (f : Hbm → Hbm) : (s.modHbm f).sec = s.sec := rfl
@[simp] theorem State.modHbm_tst (f : Hbm → Hbm) : (s.modHbm f).tst = s.tst := rfl

@[simp] theorem State.modTst_pending (f : Tst → Tst) : (s.modTst f).pending = s.pending := rfl
@[simp] theorem State.modTst_out (f : Tst → Tst) : (s.modTst f).out = s.out := rfl
@[simp] theorem State.modTst_fresh (f : Tst → Tst) : (s.modTst f).fresh = s.fresh := rfl
@[simp] theorem State.modTst_scratch (f : Tst → Tst) : (s.modTst f).scratch = s.scratch := rfl
@[simp] theorem State.modTst_devidValid (f : Tst → Tst) : (s.modTst f).devidValid = s.devidValid := rfl
@[simp] theorem State.modTst_devid (f : Tst → Tst) : (s.modTst f).devid = s.devid := rfl
@[simp] theorem State.modTst_cores (f : Tst → Tst) : (s.modTst f).cores = s.cores := rfl
@[simp] theorem State.modTst_pcores (f : Tst → Tst) : (s.modTst f).pcores = s.pcores := rfl
@[simp] theorem State.modTst_launches (f : Tst → Tst) : (s.modTst f).launches = s.launches := rfl
@[simp] theorem State.modTst_images (f : Tst → Tst) : (s.modTst f).images = s.images := rfl
@[simp] theorem State.modTst_scheds (f : Tst → Tst) : (s.modTst f).scheds = s.scheds := rfl
@[simp] theorem State.modTst_useClock (f : Tst → Tst) : (s.modTst f).useClock = s.useClock := rfl
@[simp] theorem State.modTst_barPassed (f : Tst → Tst) : (s.modTst f).barPassed = s.barPassed := rfl
@[simp] theorem State.modTst_heldObls (f : Tst → Tst) : (s.modTst f).heldObls = s.heldObls := rfl
@[simp] theorem State.modTst_saving (f : Tst → Tst) : (s.modTst f).saving = s.saving := rfl
@[simp] theorem State.modTst_restoring (f : Tst → Tst) : (s.modTst f).restoring = s.restoring := rfl
@[simp] theorem State.modTst_hbm (f : Tst → Tst) : (s.modTst f).hbm = s.hbm := rfl
@[simp] theorem State.modTst_xlt (f : Tst → Tst) : (s.modTst f).xlt = s.xlt := rfl
@[simp] theorem State.modTst_stm (f : Tst → Tst) : (s.modTst f).stm = s.stm := rfl
@[simp] theorem State.modTst_fab (f : Tst → Tst) : (s.modTst f).fab = s.fab := rfl
@[simp] theorem State.modTst_col (f : Tst → Tst) : (s.modTst f).col = s.col := rfl
@[simp] theorem State.modTst_qce (f : Tst → Tst) : (s.modTst f).qce = s.qce := rfl
@[simp] theorem State.modTst_pathQ (f : Tst → Tst) : (s.modTst f).pathQ = s.pathQ := rfl
@[simp] theorem State.modTst_pathS (f : Tst → Tst) : (s.modTst f).pathS = s.pathS := rfl
@[simp] theorem State.modTst_exp (f : Tst → Tst) : (s.modTst f).exp = s.exp := rfl
@[simp] theorem State.modTst_err (f : Tst → Tst) : (s.modTst f).err = s.err := rfl
@[simp] theorem State.modTst_pwr (f : Tst → Tst) : (s.modTst f).pwr = s.pwr := rfl
@[simp] theorem State.modTst_sec (f : Tst → Tst) : (s.modTst f).sec = s.sec := rfl

@[simp] theorem State.modSeq_pending (q : Word) (f : ExpSeq → ExpSeq) : (s.modSeq q f).pending = s.pending := rfl
@[simp] theorem State.modSeq_out (q : Word) (f : ExpSeq → ExpSeq) : (s.modSeq q f).out = s.out := rfl
@[simp] theorem State.modSeq_fresh (q : Word) (f : ExpSeq → ExpSeq) : (s.modSeq q f).fresh = s.fresh := rfl
@[simp] theorem State.modSeq_scratch (q : Word) (f : ExpSeq → ExpSeq) : (s.modSeq q f).scratch = s.scratch := rfl
@[simp] theorem State.modSeq_devidValid (q : Word) (f : ExpSeq → ExpSeq) : (s.modSeq q f).devidValid = s.devidValid := rfl
@[simp] theorem State.modSeq_devid (q : Word) (f : ExpSeq → ExpSeq) : (s.modSeq q f).devid = s.devid := rfl
@[simp] theorem State.modSeq_cores (q : Word) (f : ExpSeq → ExpSeq) : (s.modSeq q f).cores = s.cores := rfl
@[simp] theorem State.modSeq_pcores (q : Word) (f : ExpSeq → ExpSeq) : (s.modSeq q f).pcores = s.pcores := rfl
@[simp] theorem State.modSeq_launches (q : Word) (f : ExpSeq → ExpSeq) : (s.modSeq q f).launches = s.launches := rfl
@[simp] theorem State.modSeq_images (q : Word) (f : ExpSeq → ExpSeq) : (s.modSeq q f).images = s.images := rfl
@[simp] theorem State.modSeq_scheds (q : Word) (f : ExpSeq → ExpSeq) : (s.modSeq q f).scheds = s.scheds := rfl
@[simp] theorem State.modSeq_useClock (q : Word) (f : ExpSeq → ExpSeq) : (s.modSeq q f).useClock = s.useClock := rfl
@[simp] theorem State.modSeq_barPassed (q : Word) (f : ExpSeq → ExpSeq) : (s.modSeq q f).barPassed = s.barPassed := rfl
@[simp] theorem State.modSeq_heldObls (q : Word) (f : ExpSeq → ExpSeq) : (s.modSeq q f).heldObls = s.heldObls := rfl
@[simp] theorem State.modSeq_saving (q : Word) (f : ExpSeq → ExpSeq) : (s.modSeq q f).saving = s.saving := rfl
@[simp] theorem State.modSeq_restoring (q : Word) (f : ExpSeq → ExpSeq) : (s.modSeq q f).restoring = s.restoring := rfl
@[simp] theorem State.modSeq_hbm (q : Word) (f : ExpSeq → ExpSeq) : (s.modSeq q f).hbm = s.hbm := rfl
@[simp] theorem State.modSeq_xlt (q : Word) (f : ExpSeq → ExpSeq) : (s.modSeq q f).xlt = s.xlt := rfl
@[simp] theorem State.modSeq_stm (q : Word) (f : ExpSeq → ExpSeq) : (s.modSeq q f).stm = s.stm := rfl
@[simp] theorem State.modSeq_fab (q : Word) (f : ExpSeq → ExpSeq) : (s.modSeq q f).fab = s.fab := rfl
@[simp] theorem State.modSeq_col (q : Word) (f : ExpSeq → ExpSeq) : (s.modSeq q f).col = s.col := rfl
@[simp] theorem State.modSeq_qce (q : Word) (f : ExpSeq → ExpSeq) : (s.modSeq q f).qce = s.qce := rfl
@[simp] theorem State.modSeq_pathQ (q : Word) (f : ExpSeq → ExpSeq) : (s.modSeq q f).pathQ = s.pathQ := rfl
@[simp] theorem State.modSeq_pathS (q : Word) (f : ExpSeq → ExpSeq) : (s.modSeq q f).pathS = s.pathS := rfl
@[simp] theorem State.modSeq_err (q : Word) (f : ExpSeq → ExpSeq) : (s.modSeq q f).err = s.err := rfl
@[simp] theorem State.modSeq_pwr (q : Word) (f : ExpSeq → ExpSeq) : (s.modSeq q f).pwr = s.pwr := rfl
@[simp] theorem State.modSeq_sec (q : Word) (f : ExpSeq → ExpSeq) : (s.modSeq q f).sec = s.sec := rfl
@[simp] theorem State.modSeq_tst (q : Word) (f : ExpSeq → ExpSeq) : (s.modSeq q f).tst = s.tst := rfl

@[simp] theorem State.setCore_cores (c : Nat) (k : Core) : (s.setCore c k).cores = sset {} s.cores c k := rfl
@[simp] theorem State.emit_out (o : Out) : (s.emit o).out = s.out ++ [o] := rfl
@[simp] theorem State.emitAll_out (o : List Out) : (s.emitAll o).out = s.out ++ o := rfl
@[simp] theorem State.modSec_sec (f : Sec → Sec) : (s.modSec f).sec = f s.sec := rfl
@[simp] theorem State.modPwr_pwr (f : Pwr → Pwr) : (s.modPwr f).pwr = f s.pwr := rfl
@[simp] theorem State.modErr_err (f : Err → Err) : (s.modErr f).err = f s.err := rfl
@[simp] theorem State.modFab_fab (f : Fab → Fab) : (s.modFab f).fab = f s.fab := rfl
@[simp] theorem State.modXlt_xlt (f : Xlt → Xlt) : (s.modXlt f).xlt = f s.xlt := rfl
@[simp] theorem State.modQce_qce (f : Qce → Qce) : (s.modQce f).qce = f s.qce := rfl
@[simp] theorem State.modTst_tst (f : Tst → Tst) : (s.modTst f).tst = f s.tst := rfl
@[simp] theorem State.modHbm_hbm (f : Hbm → Hbm) : (s.modHbm f).hbm = f s.hbm := rfl

end Sys2Proof.Machine
end

