-- ==== Sys2Proof/Laws/Settle.lean ====
section
/-!
SUPPORT. How a command's effect ends: a quiet machine stays as it is, and only remote stream bytes become flits.
-/

namespace Sys2Proof.Machine

variable (s t : State)

/-! ### Flits -/

/-- An output that carries stream bytes. -/
def Out.isRemote : Out → Bool
  | .remote .. => true
  | _ => false

/-- Outputs that carry no stream bytes make no flit. -/
theorem State.flitsOf_none (o : List Out) (h : ∀ x ∈ o, x.isRemote = false) : State.flitsOf o none s = s := by
  induction o with
  | nil => rfl
  | cons x o ih =>
    have hx := h x (by simp)
    have ho := ih fun y hy => h y (by simp [hy])
    cases x <;> first | exact ho | cases hx

@[simp] theorem State.sendFlits_self (h : t.out = s.out) : t.sendFlits s.out.length = t := by
  simp only [State.sendFlits, h, List.drop_length]
  rfl

/-- What left after `s`, if it held no stream bytes, makes no flit. -/
theorem State.sendFlits_append (o : List Out) (h : t.out = s.out ++ o) (hr : ∀ x ∈ o, x.isRemote = false) : t.sendFlits s.out.length = t := by
  simp only [State.sendFlits, h, List.drop_left]
  exact State.flitsOf_none t o hr

/-! ### A quiet machine -/

theorem passDue_quiet (n : Nat) (now : Option Dword) (b : Bool) (h : s.fab.announced.all (fun a => !a.due) = true) :
    passDue n now (s, b) = (s, b) := by
  cases n with
  | zero => rfl
  | succ n =>
    simp only [passDue]
    split
    · next a _ e => simp [e] at h; simp [h.1]
    · rfl

theorem State.refreshHold_quiet (hl : s.lowestHolder = none) (hc : s.asserted = []) : s.refreshHold = s := by
  have hh : s.fab.holding = false := by
    cases hb : s.fab.holding with
    | false => rfl
    | true =>
      exfalso
      simp only [State.lowestHolder, hb, if_true, List.foldl_append] at hl
      revert hl
      generalize List.foldl _ none (allPorts.filterMap _) = b
      cases b <;> simp
  have he : ({ s with fab := { s.fab with holding := false } } : State) = s := by rw [← hh]
  simp only [State.refreshHold, hc, List.foldl_nil, List.isEmpty_nil, Bool.not_true, hl]
  rw [he]
  simp [State.tellHold, hl]

theorem State.testMoments_quiet (hr : s.tst.requests = []) (hp : s.tst.ports = []) (hd : s.launches ≠ [] ∨ s.tst.due = 0) :
    s.testMoments = s := by
  have h1 : s.serveTests = s := by simp [State.serveTests, hr]
  have h2 : s.beginPortTest = s := by simp [State.beginPortTest, hp]
  have h3 : s.launches = [] → s.swapOnce = s := by
    intro hl
    have hdue : s.tst.due = 0 := by rcases hd with h | h; exact absurd hl h; exact h
    have : s.swapChoice = none := by
      simp [State.swapChoice, State.swapWanted, hr, hdue]
    simp [State.swapOnce, this]
  simp only [State.testMoments, h1]
  by_cases hl : s.launches = []
  · simp [State.noLaunch, hl, h3 hl, h2]
  · simp [State.noLaunch, hl, h2]

theorem State.goesOnOnce_quiet (h : s.quiet = true) : s.goesOnOnce = s := by
  simp only [State.quiet, Bool.and_eq_true, Bool.or_eq_true, Bool.not_eq_true', List.isEmpty_iff, Option.isNone_iff_eq_none,
    beq_iff_eq, List.isEmpty_eq_false_iff] at h
  obtain ⟨⟨⟨⟨⟨⟨⟨⟨hn, hd⟩, hl⟩, hc⟩, hrun⟩, hres⟩, hq⟩, hp⟩, hdue⟩ := h
  have h1 : s.latePasses = (s, false) := by
    simp only [State.latePasses, passDue_quiet s _ none false hd, State.refreshHold_quiet s hl hc]
  have h2 : s.commitIfDone = (s, false) := by
    simp only [State.commitIfDone]
    cases hr : s.running with
    | none => rfl
    | some l =>
      simp only [hr] at hrun
      have : ((List.range 64).all (fun c => (s.core c).ended) && !(s.err.shadows.any fun x => x.qid == l.qid) && !s.resultHeld l) = false := by
        rw [Bool.or_eq_true] at hrun
        rcases hrun with h | h
        · simp only [Bool.and_eq_false_iff]; left; left
          simpa [List.all_eq_false, List.any_eq_true] using h
        · simp [h]
      simp [this]
  have h3 : s.testMoments = s := State.testMoments_quiet s hq hp hdue
  have h4 : s.startSave = s := by
    simp only [State.startSave]
    cases hr : s.resident with
    | none => rfl
    | some l =>
      simp only [hr, Bool.not_eq_true'] at hres
      simp [hres]
  simp only [State.goesOnOnce, h1, h2, h3, h4]

theorem carryAll_quiet (n : Nat) (h : s.nextQueue = none) : carryAll n s = s := by
  cases n <;> simp [carryAll, h]

/-- A quiet machine has nothing left to do. -/
theorem State.settle_quiet (h : s.quiet = true) : s.settle = s := by
  have hn : s.nextQueue = none := by
    simp only [State.quiet, Bool.and_eq_true, Option.isNone_iff_eq_none] at h
    exact h.1.1.1.1.1.1.1.1
  simp only [State.settle]
  generalize List.foldl _ 0 s.qce.queues + 1 = n
  cases n with
  | zero => rfl
  | succ n => simp [settleGo, carryAll_quiet s n hn, State.goesOnOnce_quiet s h, hn]

/-! ### Ends -/

/-- A command that notes no lost structure drains nothing. -/
@[simp] theorem State.ownedDrain_same (h : t.hbm.ownedLost = s.hbm.ownedLost) : s.ownedDrain t = t := by
  simp only [State.ownedDrain, h]
  cases s.hbm.ownedLost <;> rfl

/-- The two ends, in the words of the statements. -/
theorem finish_true (u : State) : finish s (u, true) = .next (s.after u) := by simp only [finish, if_true, State.after]
theorem finishAll_eq (u : State) : finishAll s u = .next (s.after u) := finish_true s u
theorem finish_flits (u : State) (h : u.hbm.ownedLost = s.hbm.ownedLost) : finish s (u, false) = .next (u.sendFlits s.out.length) := by
  simp only [finish, Bool.false_eq_true, if_false, State.ownedDrain_same s u h]

theorem finish_false (h : t.out = s.out) (o : t.hbm.ownedLost = s.hbm.ownedLost) : finish s (t, false) = .next t := by
  simp [finish, State.sendFlits_self s t h, State.ownedDrain_same s t o]

theorem finishAll_quiet (o : List Out) (q : t.quiet = true) (d : t.hbm.ownedLost = s.hbm.ownedLost) (h : t.out = s.out ++ o)
    (hr : ∀ x ∈ o, x.isRemote = false) : finishAll s t = .next t := by
  simp only [finishAll, finish, if_true, State.settle_quiet t q, State.ownedDrain_same s t d, State.sendFlits_append s t o h hr]

theorem finish_quiet (b : Bool) (o : List Out) (q : t.quiet = true) (d : t.hbm.ownedLost = s.hbm.ownedLost) (h : t.out = s.out ++ o)
    (hr : ∀ x ∈ o, x.isRemote = false) : finish s (t, b) = .next t := by
  cases b
  · simp [finish, State.ownedDrain_same s t d, State.sendFlits_append s t o h hr]
  · exact finishAll_quiet s t o q d h hr

/-- Every command that ends with `finish` answers a next state. -/
theorem finish_next (r : State × Bool) : ∃ t, finish s r = .next t := ⟨_, rfl⟩

end Sys2Proof.Machine
end

