-- ==== Sys2Proof/Laws/Core.lean ====
section
/-!
SUPPORT. A core's registers and stores: what each named write changes and leaves alone.
-/

namespace Sys2Proof.Machine

variable (s : State) (k : Core)

/-! ### Cores of the state -/

@[simp] theorem State.core_setCore_same (c : Nat) : (s.setCore c k).core c = k := by simp [State.core, State.setCore]
@[simp] theorem State.core_setCore_other (c i : Nat) (h : i ≠ c) : (s.setCore c k).core i = s.core i := by
  simp [State.core, State.setCore, h]
@[simp] theorem State.core_modCore_same (c : Nat) (f : Core → Core) : (s.modCore c f).core c = f (s.core c) := by simp [State.modCore]
@[simp] theorem State.core_modCore_other (c i : Nat) (f : Core → Core) (h : i ≠ c) : (s.modCore c f).core i = s.core i := by
  simp [State.modCore, h]

theorem State.onlyCore_modCore (c : Nat) (f : Core → Core) : s.onlyCore (s.modCore c f) c (f (s.core c)) :=
  ⟨rfl, by simp, fun i h => by simp [h]⟩

theorem State.onlyCore_trans {a b d : State} {c : Nat} {k1 k2 : Core} (h1 : a.onlyCore b c k1) (h2 : b.onlyCore d c k2) :
    a.onlyCore d c k2 := by
  refine ⟨?_, h2.2.1, fun i hi => (h2.2.2 i hi).trans (h1.2.2 i hi)⟩
  rw [h2.1, h1.1]

theorem State.onlyCore_out {a b : State} {c : Nat} {k1 : Core} (h : a.onlyCore b c k1) : b.out = a.out := by rw [h.1]

/-! ### Registers -/

@[simp] theorem Core.rs_zero : k.rs 0 = 0 := rfl
@[simp] theorem Core.setS_zero (v : Word) : k.setS 0 v = k := rfl
theorem Core.rs_setS (r i : BitVec 5) (v : Word) : (k.setS r v).rs i = if i = r ∧ r ≠ 0 then v else k.rs i := by
  by_cases hr : r = 0
  · subst hr; rw [if_neg fun h => h.2 rfl, Core.setS_zero]
  · by_cases hi : i = 0
    · subst hi
      rw [if_neg fun h => hr h.1.symm]
      rfl
    · simp only [Core.setS, if_neg hr, Core.rs, if_neg hi, sget_sset]
      by_cases h : i = r
      · subst h; rw [if_pos rfl, if_pos ⟨rfl, hr⟩]
      · have : r.toNat ≠ i.toNat := fun e => h (BitVec.eq_of_toNat_eq e.symm)
        rw [if_neg this, if_neg fun e => h e.1]
theorem Core.ra_setA (r i : BitVec 4) (v : Dword) : (k.setA r v).ra i = if i = r then v else k.ra i := by
  simp only [Core.ra, Core.setA, sget_sset]
  by_cases h : i = r
  · simp [h]
  · have : r.toNat ≠ i.toNat := fun e => h (BitVec.eq_of_toNat_eq e.symm)
    simp [this, h]
theorem Core.tok_setTok (i j : Fin 16) (v : BitVec 16) : (k.setTok i v).tok j = if j = i then v else k.tok j := by
  simp only [Core.tok, Core.setTok, sget_sset]
  by_cases h : j = i
  · simp [h]
  · have : i.val ≠ j.val := fun e => h (Fin.ext e.symm)
    simp [this, h]
theorem Core.dw_setDw (l w i j : Nat) (v : Word) : (k.setDw l w v).dw i j = if 16 * l + w = 16 * i + j then v else k.dw i j := by
  simp [Core.dw, Core.setDw, sget_sset]

/-- A write of the operand store leaves every byte outside it alone. -/
theorem Core.ostRead_ostWrite_other (o a n : Nat) (bs : List Byte) (h : a + n ≤ o ∨ o + bs.length ≤ a) :
    (k.ostWrite o bs).ostRead a n = k.ostRead a n := sread_swrite_other 0 k.ost o a n bs h
theorem Core.ostRead_ostWrite (o : Nat) (bs : List Byte) : (k.ostWrite o bs).ostRead o bs.length = bs := sread_swrite 0 k.ost o bs

end Sys2Proof.Machine
end

