-- ==== Sys2Proof/Laws/Encoding.lean ====
section
/-!
SUPPORT. Fields of an instruction word (04 R104): what each field of a word that was put together from fields holds.
-/

namespace Sys2Proof.Machine

theorem extract_append_high {n m : Nat} (a : BitVec n) (b : BitVec m) (s k : Nat) (h : m ≤ s) : (a ++ b).extractLsb' s k = a.extractLsb' (s - m) k := by
  apply BitVec.eq_of_getLsbD_eq
  intro i hi
  simp only [BitVec.getLsbD_extractLsb', hi, decide_true, Bool.true_and, BitVec.getLsbD_append]
  rw [if_neg (by omega)]
  congr 1; omega

theorem extract_append_low {n m : Nat} (a : BitVec n) (b : BitVec m) (s k : Nat) (h : s + k ≤ m) : (a ++ b).extractLsb' s k = b.extractLsb' s k := by
  apply BitVec.eq_of_getLsbD_eq
  intro i hi
  simp only [BitVec.getLsbD_extractLsb', hi, decide_true, Bool.true_and, BitVec.getLsbD_append]
  rw [if_pos (by omega)]

theorem extract_zero {m s k : Nat} : (0#m).extractLsb' s k = 0#k := by
  apply BitVec.eq_of_getLsbD_eq
  intro i hi
  simp

theorem extract_all {n : Nat} (a : BitVec n) : a.extractLsb' 0 n = a := by
  apply BitVec.eq_of_getLsbD_eq
  intro i hi
  simp [hi]

theorem bit_append_high {n m : Nat} (a : BitVec n) (b : BitVec m) (s : Nat) (h : m ≤ s) : (a ++ b).getLsbD s = a.getLsbD (s - m) := by
  rw [BitVec.getLsbD_append, if_neg (by omega)]

theorem bit_append_low {n m : Nat} (a : BitVec n) (b : BitVec m) (s : Nat) (h : s < m) : (a ++ b).getLsbD s = b.getLsbD s := by
  rw [BitVec.getLsbD_append, if_pos h]

theorem readTok_tokField (t : Option (Fin 16)) : readTok (tokField t) = some t := by
  cases t with
  | none => decide
  | some k => revert k; decide

theorem decode_word (c : Fin 64) (u : BitVec 3) (o : BitVec 5) (h : Ih) (b : BitVec 46) : decodeCore c (instrWord u o h b) =
    match u.toNat with
    | 0 => decodeSeq ⟨c, h.wt, h.sg, []⟩ o b
    | 1 => decodeMxu ⟨c, h.wt, h.sg, []⟩ o b
    | 2 => decodeVec ⟨c, h.wt, h.sg, []⟩ o b
    | 3 => decodeStm ⟨c, h.wt, h.sg, []⟩ o b
    | 4 => decodeSyn ⟨c, h.wt, h.sg, []⟩ o b
    | _ => none := by
  have e1 : (instrWord u o h b).extractLsb' 51 5 = tokField h.wt := by
    simp (disch := decide) only [instrWord, extract_append_high, extract_append_low, extract_all, Nat.sub_self]
  have e2 : (instrWord u o h b).extractLsb' 46 5 = tokField h.sg := by
    simp (disch := decide) only [instrWord, extract_append_high, extract_append_low, extract_all, Nat.sub_self]
  have e3 : (instrWord u o h b).extractLsb' 56 5 = o := by
    simp (disch := decide) only [instrWord, extract_append_high, extract_append_low, extract_all, Nat.sub_self]
  have e4 : (instrWord u o h b).extractLsb' 61 3 = u := by
    simp (disch := decide) only [instrWord, extract_append_high, extract_all, Nat.sub_self]
  have e5 : (instrWord u o h b).extractLsb' 0 46 = b := by
    simp (disch := decide) only [instrWord, extract_append_low, extract_all]
  simp only [decodeCore, e1, e2, e3, e4, e5, readTok_tokField] <;> rfl

theorem Ih.clean_eq (h : Ih) : ({ h with det := [] } : Ih) = ⟨h.core, h.wt, h.sg, []⟩ := rfl

theorem readRop_ropBits (r : RedOp) : readRop (ropBits r) = some r := by cases r <;> decide

theorem bit_ofBool (b : Bool) : (BitVec.ofBool b).getLsbD 0 = b := by cases b <;> rfl

theorem toFin_ofFin {w : Nat} (x : Fin (2 ^ w)) : (BitVec.ofFin x).toFin = x := rfl

end Sys2Proof.Machine
end

