-- ==== Sys2Proof/Laws/Flits.lean ====
section
/-!
SUPPORT. A flit that leaves is the flit that arrives: reading its bytes gives it back with its link sequence number (11 R313).
-/

namespace Sys2Proof.Laws

open Sys2Proof.Machine

theorem leBytes_length (n v : Nat) : (leBytes n v).length = n := by simp [leBytes]

theorem leNat_leBytes_four (v : Nat) (h : v < 2 ^ 32) : leNat (leBytes 4 v) = v := by
  simp only [leBytes, List.range_succ, List.range_zero, List.nil_append, List.map_cons, List.map_nil, List.cons_append, leNat,
    BitVec.toNat_ofNat, Nat.shiftRight_eq_div_pow]
  omega

/-- The checked part of a flit: header and data. -/
def flitBody (f : Flit) (seq : BitVec 12) : List Byte :=
  leBytes 4 (f.cls.toNat * 2 ^ 30 + f.dst.toNat * 2 ^ 18 + f.src.toNat * 2 ^ 6 + f.core.toNat) ++
    leBytes 4 (f.tag.toNat * 2 ^ 20 + seq.toNat * 2 ^ 8) ++ leBytes 4 (f.chunk.toNat * 2 ^ 8) ++ f.data

theorem flit_bytes (f : Flit) (seq : BitVec 12) (hd : f.data.length = 256) :
    f.bytes seq = flitBody f seq ++ leBytes 4 (crc32c (flitBody f seq)).toNat := by
  unfold Flit.bytes flitBody
  have h : (f.data ++ List.replicate 256 0).take 256 = f.data := List.take_left' hd
  simp only [h]

theorem flitBody_length (f : Flit) (seq : BitVec 12) (hd : f.data.length = 256) : (flitBody f seq).length = 268 := by
  simp [flitBody, leBytes_length, hd]

theorem leBytes_four_drop (n v : Nat) (h : 4 ≤ n) : (leBytes 4 v).drop n = [] := List.drop_eq_nil_of_le (by rw [leBytes_length]; exact h)

/-- A flit of 256 data bytes and a class of its own is read as it was sent. -/
theorem readFlit_bytes (f : Flit) (seq : BitVec 12) (hd : f.data.length = 256) (hc : f.cls ≠ 3) : readFlit (f.bytes seq) = some (f, seq) := by
  have hl := flitBody_length f seq hd
  have hb := flit_bytes f seq hd
  have h1 := f.cls.isLt; have h2 := f.dst.isLt; have h3 := f.src.isLt; have h4 := f.core.isLt
  have h5 := f.tag.isLt; have h6 := seq.isLt; have h7 := f.chunk.isLt
  have hc' : f.cls.toNat ≠ 3 := fun h => hc (BitVec.eq_of_toNat_eq h)
  have w0 : leNat (((f.bytes seq).drop (4 * 0)).take 4) = f.cls.toNat * 2 ^ 30 + f.dst.toNat * 2 ^ 18 + f.src.toNat * 2 ^ 6 + f.core.toNat := by
    rw [hb, ← leNat_leBytes_four (f.cls.toNat * 2 ^ 30 + f.dst.toNat * 2 ^ 18 + f.src.toNat * 2 ^ 6 + f.core.toNat) (by omega)]
    simp [flitBody, List.append_assoc, leBytes_length]
  have w1 : leNat (((f.bytes seq).drop (4 * 1)).take 4) = f.tag.toNat * 2 ^ 20 + seq.toNat * 2 ^ 8 := by
    rw [hb, ← leNat_leBytes_four (f.tag.toNat * 2 ^ 20 + seq.toNat * 2 ^ 8) (by omega)]
    simp [flitBody, List.append_assoc, leBytes_length]
  have w2 : leNat (((f.bytes seq).drop (4 * 2)).take 4) = f.chunk.toNat * 2 ^ 8 := by
    rw [hb, ← leNat_leBytes_four (f.chunk.toNat * 2 ^ 8) (by omega)]
    simp [flitBody, List.append_assoc, List.drop_append, leBytes_length, leBytes_four_drop]
  have hlen : (f.bytes seq).length = 272 := by rw [hb]; simp [hl, leBytes_length]
  have htake : (f.bytes seq).take 268 = flitBody f seq := by rw [hb, ← hl, List.take_left]
  have hdrop : (f.bytes seq).drop 268 = leBytes 4 (crc32c (flitBody f seq)).toNat := by rw [hb, ← hl, List.drop_left]
  have hdata : ((f.bytes seq).drop 12).take 256 = f.data := by
    rw [hb]; simp [flitBody, List.append_assoc, List.drop_append, leBytes_length, leBytes_four_drop, hd]
  have hcrc : leNat ((f.bytes seq).drop 268) = (crc32c ((f.bytes seq).take 268)).toNat := by
    rw [htake, hdrop, leNat_leBytes_four _ (crc32c _).isLt]
  unfold readFlit
  simp only [w0, w1, w2, hlen, hcrc, hdata]
  rw [if_neg (by omega)]
  have e1 : BitVec.ofNat 2 ((f.cls.toNat * 2 ^ 30 + f.dst.toNat * 2 ^ 18 + f.src.toNat * 2 ^ 6 + f.core.toNat) / 2 ^ 30) = f.cls :=
    BitVec.eq_of_toNat_eq (by rw [BitVec.toNat_ofNat]; omega)
  have e2 : BitVec.ofNat 12 ((f.cls.toNat * 2 ^ 30 + f.dst.toNat * 2 ^ 18 + f.src.toNat * 2 ^ 6 + f.core.toNat) / 2 ^ 18) = f.dst :=
    BitVec.eq_of_toNat_eq (by rw [BitVec.toNat_ofNat]; omega)
  have e3 : BitVec.ofNat 12 ((f.cls.toNat * 2 ^ 30 + f.dst.toNat * 2 ^ 18 + f.src.toNat * 2 ^ 6 + f.core.toNat) / 2 ^ 6) = f.src :=
    BitVec.eq_of_toNat_eq (by rw [BitVec.toNat_ofNat]; omega)
  have e4 : BitVec.ofNat 6 (f.cls.toNat * 2 ^ 30 + f.dst.toNat * 2 ^ 18 + f.src.toNat * 2 ^ 6 + f.core.toNat) = f.core :=
    BitVec.eq_of_toNat_eq (by rw [BitVec.toNat_ofNat]; omega)
  have e5 : BitVec.ofNat 12 ((f.tag.toNat * 2 ^ 20 + seq.toNat * 2 ^ 8) / 2 ^ 20) = f.tag := BitVec.eq_of_toNat_eq (by rw [BitVec.toNat_ofNat]; omega)
  have e6 : BitVec.ofNat 24 (f.chunk.toNat * 2 ^ 8 / 2 ^ 8) = f.chunk := BitVec.eq_of_toNat_eq (by rw [BitVec.toNat_ofNat]; omega)
  have e7 : BitVec.ofNat 12 ((f.tag.toNat * 2 ^ 20 + seq.toNat * 2 ^ 8) / 2 ^ 8) = seq := BitVec.eq_of_toNat_eq (by rw [BitVec.toNat_ofNat]; omega)
  rw [e1, e2, e3, e4, e5, e6, e7]

end Sys2Proof.Laws
end

