-- ==== Sys2Proof/Laws/Frames.lean ====
section
/-!
SUPPORT. What the shared beginnings and ends of a core instruction leave alone: `seqStart`, `unitStart`, `giveTok`, `setS`.
-/

namespace Sys2Proof.Machine

variable (k : Core) (h : Ih) (t : Option (Fin 16))

theorem Core.takeTok_frame (w : Option (Fin 16)) : k.takeTok w = { k with k := (k.takeTok w).k } := by cases w <;> rfl
theorem Core.seqStart_frame : k.seqStart h = { k with k := (k.seqStart h).k, pc := k.pc + 8, seqWait := none } := by
  simp only [Core.seqStart]; cases h.wt <;> rfl
theorem Core.unitStart_frame : k.unitStart h = { k with k := (k.unitStart h).k, pc := k.pc + 8, serialNo := k.serialNo + 1 } := by
  simp only [Core.unitStart]; cases h.wt <;> rfl
theorem Core.giveTok_frame : k.giveTok t = { k with k := (k.giveTok t).k } := by cases t <;> rfl
theorem Core.setS_frame (r : BitVec 5) (v : Word) : k.setS r v = { k with s := (k.setS r v).s } := by
  simp only [Core.setS]; split <;> rfl

@[simp] theorem Core.rs_seqStart (r : BitVec 5) : (k.seqStart h).rs r = k.rs r := by rw [Core.seqStart_frame]; rfl
@[simp] theorem Core.ra_seqStart (r : BitVec 4) : (k.seqStart h).ra r = k.ra r := by rw [Core.seqStart_frame]; rfl
@[simp] theorem Core.dw_seqStart (l w : Nat) : (k.seqStart h).dw l w = k.dw l w := by rw [Core.seqStart_frame]; rfl
@[simp] theorem Core.ostRead_seqStart (a n : Nat) : (k.seqStart h).ostRead a n = k.ostRead a n := by rw [Core.seqStart_frame]; rfl
@[simp] theorem Core.streamLines_seqStart : (k.seqStart h).streamLines = k.streamLines := by rw [Core.seqStart_frame]
@[simp] theorem Core.collLines_seqStart : (k.seqStart h).collLines = k.collLines := by rw [Core.seqStart_frame]
@[simp] theorem Core.offset_seqStart (r : BitVec 5) (i : Word) : (k.seqStart h).offset r i = (k.rs r + i).toNat := by
  simp only [Core.offset, Core.rs_seqStart]
@[simp] theorem Core.rs_unitStart (r : BitVec 5) : (k.unitStart h).rs r = k.rs r := by rw [Core.unitStart_frame]; rfl
@[simp] theorem Core.dw_unitStart (l w : Nat) : (k.unitStart h).dw l w = k.dw l w := by rw [Core.unitStart_frame]; rfl
@[simp] theorem Core.ostRead_unitStart (a n : Nat) : (k.unitStart h).ostRead a n = k.ostRead a n := by rw [Core.unitStart_frame]; rfl
@[simp] theorem Core.rs_giveTok (r : BitVec 5) : (k.giveTok t).rs r = k.rs r := by rw [Core.giveTok_frame]; rfl
@[simp] theorem Core.ra_giveTok (r : BitVec 4) : (k.giveTok t).ra r = k.ra r := by rw [Core.giveTok_frame]; rfl
@[simp] theorem Core.dw_giveTok (l w : Nat) : (k.giveTok t).dw l w = k.dw l w := by rw [Core.giveTok_frame]; rfl
@[simp] theorem Core.ostRead_giveTok (a n : Nat) : (k.giveTok t).ostRead a n = k.ostRead a n := by rw [Core.giveTok_frame]; rfl
@[simp] theorem Core.k_setS (r : BitVec 5) (v : Word) : (k.setS r v).k = k.k := by rw [Core.setS_frame]
@[simp] theorem Core.k_setDw (l w : Nat) (v : Word) : (k.setDw l w v).k = k.k := rfl
@[simp] theorem Core.k_ostWrite (a : Nat) (b : List Byte) : (k.ostWrite a b).k = k.k := rfl

theorem State.onlyCore_refl (s : State) (c : Nat) : s.onlyCore s c (s.core c) := ⟨rfl, rfl, fun _ _ => rfl⟩
theorem State.onlyCore_setCore (s : State) (c : Nat) : s.onlyCore (s.setCore c k) c k := ⟨rfl, by simp, fun _ hi => by simp [hi]⟩

end Sys2Proof.Machine
end

