-- ==== Sys2Proof/Laws/Seq.lean ====
section
/-!
SUPPORT. What a SEQ instruction can do (04 R100, R112): the one lemma that its meanings rest on.
-/

namespace Sys2Proof.Machine

variable (s : State) (h : Ih) (l : Launch)

theorem State.signalOpt_room (c : Nat) (t : Option (Fin 16)) (i : StopInfo) (hr : ∀ x, t = some x → ((s.core c).tok x).toNat < 65535) :
    ∃ u, s.signalOpt l c t i = (u, false) ∧ s.onlyCore u c ((s.core c).giveTok t) := by
  cases t with
  | none => exact ⟨s, rfl, rfl, rfl, fun _ _ => rfl⟩
  | some x =>
    have := hr x rfl
    refine ⟨s.setCore c ((s.core c).giveTok (some x)), ?_, rfl, by simp, fun i hi => by simp [hi]⟩
    simp only [State.signalOpt, State.signal, Core.giveTok]
    rw [if_neg (by omega)]

@[simp] theorem State.detect_nil (c : Nat) (i : StopInfo) : s.detect c i [] = (s, .go) := rfl

/-- The launch that a core issues for is accepted. -/
theorem State.launchOf_canIssue (c : Nat) (r : s.canIssue c = some l) : (s.launchOf l.qid).isNone = false := by
  simp only [State.canIssue, State.running, State.resident] at r
  cases hf : s.launches.find? fun l => l.cond == .resident with
  | none => simp [hf] at r
  | some m =>
    simp only [hf] at r
    have hm : m = l := by
      revert r
      split
      · split <;> intro r <;> simp_all
      · simp
    subst hm
    have hmem := List.mem_of_find?_eq_some hf
    cases hn : s.launchOf m.qid with
    | some _ => rfl
    | none =>
      have := List.find?_eq_none.1 hn m hmem
      simp at this

/-- A SEQ instruction that is ready does what its effect says, and nothing else happens beside its token's signal. -/
theorem State.seq_ready (bits : Dword) (f : State → Launch → Nat → Except Code State) (r : s.seqReady h l) (u : State)
    (hf : f (s.modCore h.core.val fun k => k.seqStart h) l h.core.val = .ok u)
    (hk : ∀ x, h.sg = some x → ((u.core h.core.val).tok x).toNat < 65535) :
    ∃ t, s.seq h bits f = (t, false) ∧ u.onlyCore t h.core.val ((u.core h.core.val).giveTok h.sg) := by
  obtain ⟨h1, h2, h3, _⟩ := r
  obtain ⟨t, ht, ho⟩ := u.signalOpt_room l h.core.val h.sg { code := 0, core := some h.core.val, pc := (s.core h.core.val).pc, bits := bits } hk
  refine ⟨t, ?_, ho⟩
  have hf' : f (s.modCore h.core.val fun k => { k.takeTok h.wt with seqWait := none, pc := k.pc + 8 }) l h.core.val = .ok u := hf
  simp only [State.seq, h1, h2, h3, State.detect_nil, s.launchOf_canIssue l _ h1, Bool.not_true, Bool.false_eq_true, if_false, hf', ht,
    List.isEmpty_nil, Bool.or_false]

/-- A SEQ instruction that only changes its core. -/
theorem State.seqCore_ready (bits : Dword) (f : Core → Core) (r : s.seqReady h l)
    (hf : (f ((s.core h.core.val).seqStart h)).k = ((s.core h.core.val).seqStart h).k) :
    ∃ t, s.seqCore h bits f = .next t ∧
      s.onlyCore t h.core.val ((f ((s.core h.core.val).seqStart h)).giveTok h.sg) := by
  have hk : ∀ x, h.sg = some x →
      ((((s.modCore h.core.val fun k => k.seqStart h).modCore h.core.val f).core h.core.val).tok x).toNat < 65535 := by
    intro x hx
    have := r.2.2.2 x hx
    simp only [State.core_modCore_same, Core.tok, hf]
    exact this
  obtain ⟨t, ht, ho⟩ := s.seq_ready h l bits (fun s _ c => .ok (s.modCore c f)) r _ rfl hk
  have hall : s.onlyCore t h.core.val ((f ((s.core h.core.val).seqStart h)).giveTok h.sg) := by
    have a := s.onlyCore_modCore h.core.val fun k => k.seqStart h
    have b := (s.modCore h.core.val fun k => k.seqStart h).onlyCore_modCore h.core.val f
    have := State.onlyCore_trans (State.onlyCore_trans a b) ho
    simpa using this
  refine ⟨t, ?_, hall⟩
  simp only [State.seqCore, ht]
  exact finish_false s t (State.onlyCore_out hall) (by rw [hall.1])

/-- A SEQ instruction whose effect is a violation stops the queue at that instruction, before any write (04 R108, R132). -/
theorem State.seq_error (bits : Dword) (f : State → Launch → Nat → Except Code State) (code : Code) (r : s.seqReady h l)
    (hf : f (s.modCore h.core.val fun k => k.seqStart h) l h.core.val = .error code) :
    s.seq h bits f = (s.stop l { code := code, core := some h.core.val, pc := (s.core h.core.val).pc, bits := bits }, true) := by
  obtain ⟨h1, h2, h3, _⟩ := r
  have hf' : f (s.modCore h.core.val fun k => { k.takeTok h.wt with seqWait := none, pc := k.pc + 8 }) l h.core.val = .error code := hf
  simp only [State.seq, h1, h2, h3, State.detect_nil, s.launchOf_canIssue l _ h1, Bool.not_true, Bool.false_eq_true, if_false, hf']

end Sys2Proof.Machine
end

