-- ==== Sys2Proof/Laws/Issue.lean ====
section
/-!
SUPPORT. What issuing a unit instruction can do (04 R100, R101, R112): it waits in its queue, or it begins.
-/

namespace Sys2Proof.Machine

variable (s : State) (h : Ih) (l : Launch) (bits : Dword) (u : CUnit) (op : Core → UOp)

theorem State.canIssue_some (c : Nat) (r : s.canIssue c = some l) :
    s.running = some l ∧ (s.core c).ended = false ∧ (s.core c).stopped = false ∧ s.inTakeover c = false := by
  simp only [State.canIssue] at r
  cases hr : s.running with
  | none => simp [hr] at r
  | some l' =>
    simp only [hr] at r
    split at r
    · cases r
    · next hn =>
      cases r
      simp only [Bool.or_eq_true, not_or, Bool.not_eq_true] at hn
      exact ⟨rfl, hn.1.1, hn.1.2, hn.2⟩

@[simp] theorem Core.unitQ_setUnitQ (k : Core) (q : List Issued) : (k.setUnitQ u q).unitQ u = q := by cases u <;> rfl
@[simp] theorem Core.stopped_setUnitQ (k : Core) (q : List Issued) : (k.setUnitQ u q).stopped = k.stopped := by cases u <;> rfl

/-- Behind others, an instruction only enters its queue. -/
theorem State.issue_waits (w : s.unitWaits h u l) : s.issue h bits u op = (s.queuedState h bits u op, false) := by
  obtain ⟨h1, h2, h3⟩ := w
  have h4 : ((s.core h.core.val).unitQ u).isEmpty = false := by simpa using h2
  simp only [State.issue, State.enqueue, h1, if_neg (Nat.not_le.2 h3), h4]
  rfl

/-- Alone and ready, an instruction begins as it issues: what its unit answers is put into the state. LBAR and COLL are not
asked of this lemma. -/
theorem State.issue_begins (w : s.unitBegins h bits u op l)
    (hl : ∀ line, op (s.core h.core.val) ≠ .coll line) (hb : op (s.core h.core.val) ≠ .lbar) :
    s.issue h bits u op = finishBegin l h.core.val u (s.issued h bits op)
      (runOp {} (s.begunState h bits u op) l h.core.val (s.issued h bits op)) := by
  obtain ⟨h1, h2, h3, h4, h5⟩ := w
  obtain ⟨r1, r2, r3, r4⟩ := s.canIssue_some l _ h1
  have e : s.enqueue h bits u op = (s.queuedState h bits u op, true) := by
    simp only [State.enqueue, h1, h2, List.length_nil, List.isEmpty_nil]
    simp only [State.queuedState, State.issued, h2]
    rfl
  have hq : ((s.queuedState h bits u op).core h.core.val).unitQ u = [s.issued h bits op] := by
    simp only [State.queuedState, State.core_setCore_same, h2, List.nil_append]
    cases u <;> rfl
  have hs : ((s.queuedState h bits u op).core h.core.val).stopped = false := by
    simp only [State.queuedState, State.core_setCore_same]
    cases u <;> exact r3
  have ht : (s.queuedState h bits u op).inTakeover h.core.val = false := r4
  have hr : (s.queuedState h bits u op).running = some l := r1
  have hd : (s.issued h bits op).det = [] := h3
  have hi : (s.issued h bits op).op = op (s.core h.core.val) := rfl
  have main : (s.queuedState h bits u op).beginUnit h.core.val u [] (runOp {}) =
      finishBegin l h.core.val u (s.issued h bits op) (runOp {} (s.begunState h bits u op) l h.core.val (s.issued h bits op)) := by
    have he : ∀ i : Issued, i.det = [] → ({ i with det := [] } : Issued) = i := by
      intro i hi
      rw [← hi]
    have hL : ((s.queuedState h bits u op).launchOf l.qid).isNone = false := s.launchOf_canIssue l _ h1
    simp only [State.beginUnit, hr, hq, hs, ht, h4, h5, hL, Bool.not_true, Bool.or_self, Bool.false_eq_true, if_false, hd,
      State.detect_nil, List.isEmpty_nil, Bool.not_true, Bool.or_false, List.append_nil, he _ hd]
    rfl
  simp only [State.issue, e, if_true, State.beginHead, hr, hq]
  split
  · next hx => exact absurd (hi.symm.trans hx) hb
  · next line hx => exact absurd (hi.symm.trans hx) (hl line)
  · exact main

end Sys2Proof.Machine
end

