-- ==== Sys2Proof/Laws/PerInstr.lean ====
section
/-!
SUPPORT. The family F: the unit and operation codes that a core instruction's word carries (04 R99, R104, R106, R109).
-/

namespace Sys2Proof.Laws.F

open Sys2Proof Sys2Proof.Machine

/-- Unit code and operation code of R106 and R109, as bits [63:56] of the word. -/
def opcode : Instr → BitVec 8
  | .nop .. => 0x00
  | .add .. => 0x01
  | .sub .. => 0x02
  | .mul .. => 0x03
  | .and .. => 0x04
  | .or .. => 0x05
  | .xor .. => 0x06
  | .shl .. => 0x07
  | .shr .. => 0x08
  | .sra .. => 0x09
  | .min .. => 0x0A
  | .minu .. => 0x0B
  | .max .. => 0x0C
  | .maxu .. => 0x0D
  | .slt .. => 0x0E
  | .sltu .. => 0x0F
  | .addi .. => 0x10
  | .muli .. => 0x11
  | .andi .. => 0x12
  | .ori .. => 0x13
  | .adda .. => 0x14
  | .addah .. => 0x15
  | .movsa .. => 0x16
  | .ldo .. => 0x17
  | .sto .. => 0x18
  | .dld .. => 0x19
  | .dst .. => 0x1A
  | .dbind .. => 0x1B
  | .br .. => 0x1C
  | .rdflg .. => 0x1D
  | .endProgram .. => 0x1E
  | .mma .. => 0x20
  | .attn .. => 0x21
  | .epi .. => 0x22
  | .accinit .. => 0x23
  | .vprog .. => 0x40
  | .vred .. => 0x41
  | .vld .. => 0x42
  | .vst .. => 0x43
  | .vcvt .. => 0x44
  | .vaccr .. => 0x45
  | .vaccw .. => 0x46
  | .vmov .. => 0x47
  | .vfill .. => 0x48
  | .sarm .. => 0x60
  | .sexp .. => 0x61
  | .tsig .. => 0x80
  | .twait .. => 0x81
  | .waitbeat .. => 0x82
  | .beatmark .. => 0x83
  | .coll .. => 0x84
  | .lbar .. => 0x85
  | _ => 0

/-- Bits [63:56] of the instruction's word are its unit and operation codes. -/
def Statement (i : Instr) : Prop := ∀ w, encodeCore i = some w → w.extractLsb' 56 8 = opcode i

theorem word (u : BitVec 3) (o : BitVec 5) (h : Ih) (b : BitVec 46) : (instrWord u o h b).extractLsb' 56 8 = u ++ o := by
  apply BitVec.eq_of_getLsbD_eq
  intro i hi
  simp only [instrWord, BitVec.getLsbD_extractLsb', hi, decide_true, Bool.true_and, BitVec.getLsbD_append]
  rw [if_neg (by omega), if_neg (by omega), if_neg (by omega)]
  simp only [show 56 + i - 46 - 5 - 5 = i by omega]

theorem none_word (i : Instr) (h : encodeCore i = none) : Statement i := by
  intro w hw
  rw [h] at hw
  cases hw

theorem nop x0 : Statement (.nop x0) := by
  intro w hw; cases hw; exact word ..
theorem add x0 x1 x2 x3 : Statement (.add x0 x1 x2 x3) := by
  intro w hw; cases hw; exact word ..
theorem sub x0 x1 x2 x3 : Statement (.sub x0 x1 x2 x3) := by
  intro w hw; cases hw; exact word ..
theorem mul x0 x1 x2 x3 : Statement (.mul x0 x1 x2 x3) := by
  intro w hw; cases hw; exact word ..
theorem and x0 x1 x2 x3 : Statement (.and x0 x1 x2 x3) := by
  intro w hw; cases hw; exact word ..
theorem or x0 x1 x2 x3 : Statement (.or x0 x1 x2 x3) := by
  intro w hw; cases hw; exact word ..
theorem xor x0 x1 x2 x3 : Statement (.xor x0 x1 x2 x3) := by
  intro w hw; cases hw; exact word ..
theorem shl x0 x1 x2 x3 : Statement (.shl x0 x1 x2 x3) := by
  intro w hw; cases hw; exact word ..
theorem shr x0 x1 x2 x3 : Statement (.shr x0 x1 x2 x3) := by
  intro w hw; cases hw; exact word ..
theorem sra x0 x1 x2 x3 : Statement (.sra x0 x1 x2 x3) := by
  intro w hw; cases hw; exact word ..
theorem min x0 x1 x2 x3 : Statement (.min x0 x1 x2 x3) := by
  intro w hw; cases hw; exact word ..
theorem minu x0 x1 x2 x3 : Statement (.minu x0 x1 x2 x3) := by
  intro w hw; cases hw; exact word ..
theorem max x0 x1 x2 x3 : Statement (.max x0 x1 x2 x3) := by
  intro w hw; cases hw; exact word ..
theorem maxu x0 x1 x2 x3 : Statement (.maxu x0 x1 x2 x3) := by
  intro w hw; cases hw; exact word ..
theorem slt x0 x1 x2 x3 : Statement (.slt x0 x1 x2 x3) := by
  intro w hw; cases hw; exact word ..
theorem sltu x0 x1 x2 x3 : Statement (.sltu x0 x1 x2 x3) := by
  intro w hw; cases hw; exact word ..
theorem addi x0 x1 x2 x3 : Statement (.addi x0 x1 x2 x3) := by
  intro w hw; cases hw; exact word ..
theorem muli x0 x1 x2 x3 : Statement (.muli x0 x1 x2 x3) := by
  intro w hw; cases hw; exact word ..
theorem andi x0 x1 x2 x3 : Statement (.andi x0 x1 x2 x3) := by
  intro w hw; cases hw; exact word ..
theorem ori x0 x1 x2 x3 : Statement (.ori x0 x1 x2 x3) := by
  intro w hw; cases hw; exact word ..
theorem adda x0 x1 x2 x3 x4 : Statement (.adda x0 x1 x2 x3 x4) := by
  intro w hw; cases hw; exact word ..
theorem addah x0 x1 x2 x3 x4 : Statement (.addah x0 x1 x2 x3 x4) := by
  intro w hw; cases hw; exact word ..
theorem movsa x0 x1 x2 x3 : Statement (.movsa x0 x1 x2 x3) := by
  intro w hw; cases hw; exact word ..
theorem ldo x0 x1 x2 x3 : Statement (.ldo x0 x1 x2 x3) := by
  intro w hw; cases hw; exact word ..
theorem sto x0 x1 x2 x3 : Statement (.sto x0 x1 x2 x3) := by
  intro w hw; cases hw; exact word ..
theorem dld x0 x1 x2 x3 : Statement (.dld x0 x1 x2 x3) := by
  intro w hw; cases hw; exact word ..
theorem dst x0 x1 x2 x3 : Statement (.dst x0 x1 x2 x3) := by
  intro w hw; cases hw; exact word ..
theorem dbind x0 x1 x2 x3 : Statement (.dbind x0 x1 x2 x3) := by
  intro w hw; cases hw; exact word ..
theorem br x0 x1 x2 : Statement (.br x0 x1 x2) := by
  intro w hw; cases hw; exact word ..
theorem rdflg x0 x1 x2 : Statement (.rdflg x0 x1 x2) := by
  intro w hw; cases hw; exact word ..
theorem endProgram x0 : Statement (.endProgram x0) := by
  intro w hw; cases hw; exact word ..
theorem mma x0 x1 x2 x3 x4 x5 x6 : Statement (.mma x0 x1 x2 x3 x4 x5 x6) := by
  intro w hw; cases hw; exact word ..
theorem attn x0 x1 x2 x3 x4 x5 x6 : Statement (.attn x0 x1 x2 x3 x4 x5 x6) := by
  intro w hw; cases hw; exact word ..
theorem epi x0 x1 x2 x3 x4 : Statement (.epi x0 x1 x2 x3 x4) := by
  intro w hw; cases hw; exact word ..
theorem accinit x0 x1 x2 : Statement (.accinit x0 x1 x2) := by
  intro w hw; cases hw; exact word ..
theorem vprog x0 x1 x2 x3 x4 x5 : Statement (.vprog x0 x1 x2 x3 x4 x5) := by
  intro w hw; cases hw; exact word ..
theorem vred x0 x1 x2 x3 x4 : Statement (.vred x0 x1 x2 x3 x4) := by
  intro w hw; cases hw; exact word ..
theorem vld x0 x1 x2 x3 x4 x5 : Statement (.vld x0 x1 x2 x3 x4 x5) := by
  intro w hw; cases hw; exact word ..
theorem vst x0 x1 x2 x3 x4 x5 : Statement (.vst x0 x1 x2 x3 x4 x5) := by
  intro w hw; cases hw; exact word ..
theorem vcvt x0 x1 x2 x3 x4 : Statement (.vcvt x0 x1 x2 x3 x4) := by
  intro w hw; cases hw; exact word ..
theorem vaccr x0 x1 x2 x3 x4 : Statement (.vaccr x0 x1 x2 x3 x4) := by
  intro w hw; cases hw; exact word ..
theorem vaccw x0 x1 x2 x3 x4 : Statement (.vaccw x0 x1 x2 x3 x4) := by
  intro w hw; cases hw; exact word ..
theorem vmov x0 x1 x2 : Statement (.vmov x0 x1 x2) := by
  intro w hw; cases hw; exact word ..
theorem vfill x0 x1 x2 : Statement (.vfill x0 x1 x2) := by
  intro w hw; cases hw; exact word ..
theorem sarm x0 x1 x2 : Statement (.sarm x0 x1 x2) := by
  intro w hw; cases hw; exact word ..
theorem sexp x0 x1 : Statement (.sexp x0 x1) := by
  intro w hw; cases hw; exact word ..
theorem tsig x0 x1 x2 : Statement (.tsig x0 x1 x2) := by
  intro w hw; cases hw; exact word ..
theorem twait x0 x1 x2 : Statement (.twait x0 x1 x2) := by
  intro w hw; cases hw; exact word ..
theorem waitbeat x0 x1 x2 : Statement (.waitbeat x0 x1 x2) := by
  intro w hw; cases hw; exact word ..
theorem beatmark x0 x1 x2 : Statement (.beatmark x0 x1 x2) := by
  intro w hw; cases hw; exact word ..
theorem coll x0 x1 : Statement (.coll x0 x1) := by
  intro w hw; cases hw; exact word ..
theorem lbar x0 : Statement (.lbar x0) := by
  intro w hw; cases hw; exact word ..
theorem unitInstructionBegin x0 x1 x2 : Statement (.unitInstructionBegin x0 x1 x2) := none_word _ rfl
theorem instructionComplete x0 x1 : Statement (.instructionComplete x0 x1) := none_word _ rfl
theorem waitLimitExpiry x0 x1 : Statement (.waitLimitExpiry x0 x1) := none_word _ rfl
theorem beatRangeExpiry : Statement (.beatRangeExpiry) := none_word _ rfl
theorem exportPageSend x0 : Statement (.exportPageSend x0) := none_word _ rfl
theorem streamStart x0 x1 x2 : Statement (.streamStart x0 x1 x2) := none_word _ rfl
theorem remoteStreamStart x0 x1 : Statement (.remoteStreamStart x0 x1) := none_word _ rfl
theorem streamDone x0 x1 x2 x3 : Statement (.streamDone x0 x1 x2 x3) := none_word _ rfl
theorem remoteStreamArrival x0 x1 x2 x3 x4 x5 x6 x7 : Statement (.remoteStreamArrival x0 x1 x2 x3 x4 x5 x6 x7) := none_word _ rfl
theorem tableWalkComplete x0 x1 x2 x3 : Statement (.tableWalkComplete x0 x1 x2 x3) := none_word _ rfl
theorem hbmRead x0 x1 x2 x3 x4 : Statement (.hbmRead x0 x1 x2 x3 x4) := none_word _ rfl
theorem hbmWrite x0 x1 x2 x3 : Statement (.hbmWrite x0 x1 x2 x3) := none_word _ rfl
theorem granuleRetireComplete x0 x1 : Statement (.granuleRetireComplete x0 x1) := none_word _ rfl
theorem cacheAccess x0 x1 x2 x3 x4 x5 : Statement (.cacheAccess x0 x1 x2 x3 x4 x5) := none_word _ rfl
theorem cacheWayHandover x0 x1 : Statement (.cacheWayHandover x0 x1) := none_word _ rfl
theorem takeoverCopyComplete x0 x1 : Statement (.takeoverCopyComplete x0 x1) := none_word _ rfl
theorem shadowCompare x0 x1 x2 x3 : Statement (.shadowCompare x0 x1 x2 x3) := none_word _ rfl
theorem launch x0 x1 : Statement (.launch x0 x1) := none_word _ rfl
theorem launchAccept x0 : Statement (.launchAccept x0) := none_word _ rfl
theorem launchResident : Statement (.launchResident) := none_word _ rfl
theorem launchSaveComplete : Statement (.launchSaveComplete) := none_word _ rfl
theorem launchRestoreComplete : Statement (.launchRestoreComplete) := none_word _ rfl
theorem launchBarrierComplete x0 : Statement (.launchBarrierComplete x0) := none_word _ rfl
theorem launchBarrierTimeout : Statement (.launchBarrierTimeout) := none_word _ rfl
theorem launchStart : Statement (.launchStart) := none_word _ rfl
theorem countPhaseEntry x0 x1 x2 x3 x4 : Statement (.countPhaseEntry x0 x1 x2 x3 x4) := none_word _ rfl
theorem collChunkArrival x0 x1 x2 x3 x4 x5 x6 x7 : Statement (.collChunkArrival x0 x1 x2 x3 x4 x5 x6 x7) := none_word _ rfl
theorem collComplete x0 x1 : Statement (.collComplete x0 x1) := none_word _ rfl
theorem collDeadlineExpiry x0 x1 : Statement (.collDeadlineExpiry x0 x1) := none_word _ rfl
theorem collAbortReceive x0 x1 x2 x3 : Statement (.collAbortReceive x0 x1 x2 x3) := none_word _ rfl
theorem flitReceive x0 x1 : Statement (.flitReceive x0 x1) := none_word _ rfl
theorem linkAck x0 x1 x2 : Statement (.linkAck x0 x1 x2) := none_word _ rfl
theorem linkNak x0 x1 x2 : Statement (.linkNak x0 x1 x2) := none_word _ rfl
theorem beat x0 x1 : Statement (.beat x0 x1) := none_word _ rfl
theorem stretch x0 x1 x2 x3 : Statement (.stretch x0 x1 x2 x3) := none_word _ rfl
theorem hold x0 x1 x2 : Statement (.hold x0 x1 x2) := none_word _ rfl
theorem limit x0 x1 : Statement (.limit x0 x1) := none_word _ rfl
theorem elect x0 x1 x2 : Statement (.elect x0 x1 x2) := none_word _ rfl
theorem link x0 x1 : Statement (.link x0 x1) := none_word _ rfl
theorem lane x0 x1 x2 : Statement (.lane x0 x1 x2) := none_word _ rfl
theorem mgmt x0 x1 x2 x3 x4 x5 : Statement (.mgmt x0 x1 x2 x3 x4 x5) := none_word _ rfl
theorem laneFail x0 x1 x2 : Statement (.laneFail x0 x1 x2) := none_word _ rfl
theorem controlSymbolTimeout x0 : Statement (.controlSymbolTimeout x0) := none_word _ rfl
theorem fabricTrainingComplete x0 : Statement (.fabricTrainingComplete x0) := none_word _ rfl
theorem delayRemeasure x0 x1 : Statement (.delayRemeasure x0 x1) := none_word _ rfl
theorem checkPoint : Statement (.checkPoint) := none_word _ rfl
theorem beatAnnounce x0 : Statement (.beatAnnounce x0) := none_word _ rfl
theorem beatBoundary x0 x1 : Statement (.beatBoundary x0 x1) := none_word _ rfl
theorem stretchSend x0 : Statement (.stretchSend x0) := none_word _ rfl
theorem holdLimitExpiry x0 : Statement (.holdLimitExpiry x0) := none_word _ rfl
theorem electionTimeout : Statement (.electionTimeout) := none_word _ rfl
theorem electionEnd : Statement (.electionEnd) := none_word _ rfl
theorem leaderHandover x0 : Statement (.leaderHandover x0) := none_word _ rfl
theorem powerTick x0 : Statement (.powerTick x0) := none_word _ rfl
theorem capFloor : Statement (.capFloor) := none_word _ rfl
theorem measurementWindow x0 : Statement (.measurementWindow x0) := none_word _ rfl
theorem voltageSettled x0 : Statement (.voltageSettled x0) := none_word _ rfl
theorem droopDetect x0 : Statement (.droopDetect x0) := none_word _ rfl
theorem droopRelease x0 : Statement (.droopRelease x0) := none_word _ rfl
theorem thermalCeilingStep x0 x1 x2 : Statement (.thermalCeilingStep x0 x1 x2) := none_word _ rfl
theorem thermalTrip x0 x1 : Statement (.thermalTrip x0 x1) := none_word _ rfl
theorem thermalTripRelease x0 x1 : Statement (.thermalTripRelease x0 x1) := none_word _ rfl
theorem groupReport : Statement (.groupReport) := none_word _ rfl
theorem groupAllocate : Statement (.groupAllocate) := none_word _ rfl
theorem allocationReceive x0 : Statement (.allocationReceive x0) := none_word _ rfl
theorem allocationFallback : Statement (.allocationFallback) := none_word _ rfl
theorem inputCharge : Statement (.inputCharge) := none_word _ rfl
theorem inputChargeComplete : Statement (.inputChargeComplete) := none_word _ rfl
theorem inputOvercurrent : Statement (.inputOvercurrent) := none_word _ rfl
theorem inputReverseCurrent : Statement (.inputReverseCurrent) := none_word _ rfl
theorem inputOvervoltage : Statement (.inputOvervoltage) := none_word _ rfl
theorem inputUndervoltage : Statement (.inputUndervoltage) := none_word _ rfl
theorem inputAbsentRelease : Statement (.inputAbsentRelease) := none_word _ rfl
theorem submit x0 x1 x2 x3 : Statement (.submit x0 x1 x2 x3) := none_word _ rfl
theorem loadProgram x0 x1 x2 : Statement (.loadProgram x0 x1 x2) := none_word _ rfl
theorem loadScheduleImage x0 x1 x2 : Statement (.loadScheduleImage x0 x1 x2) := none_word _ rfl
theorem loadTestPack x0 x1 x2 : Statement (.loadTestPack x0 x1 x2) := none_word _ rfl
theorem fence x0 x1 : Statement (.fence x0 x1) := none_word _ rfl
theorem prefixLookup x0 x1 : Statement (.prefixLookup x0 x1) := none_word _ rfl
theorem exportOpen x0 x1 : Statement (.exportOpen x0 x1) := none_word _ rfl
theorem exportClose x0 x1 : Statement (.exportClose x0 x1) := none_word _ rfl
theorem exportCloseComplete x0 : Statement (.exportCloseComplete x0) := none_word _ rfl
theorem testRequestTest x0 x1 : Statement (.testRequestTest x0 x1) := none_word _ rfl
theorem testRequestRejoin x0 x1 : Statement (.testRequestRejoin x0 x1) := none_word _ rfl
theorem testRequestPort x0 x1 : Statement (.testRequestPort x0 x1) := none_word _ rfl
theorem digest x0 x1 x2 : Statement (.digest x0 x1 x2) := none_word _ rfl
theorem queueCtlSet x0 x1 : Statement (.queueCtlSet x0 x1) := none_word _ rfl
theorem queueCtlResume x0 x1 : Statement (.queueCtlResume x0 x1) := none_word _ rfl
theorem queueCtlEnd x0 x1 : Statement (.queueCtlEnd x0 x1) := none_word _ rfl
theorem queueCtlClear x0 x1 : Statement (.queueCtlClear x0 x1) := none_word _ rfl
theorem writeMem x0 x1 x2 : Statement (.writeMem x0 x1 x2) := none_word _ rfl
theorem readMem x0 x1 : Statement (.readMem x0 x1) := none_word _ rfl
theorem regRead x0 x1 : Statement (.regRead x0 x1) := none_word _ rfl
theorem regWrite x0 x1 : Statement (.regWrite x0 x1) := none_word _ rfl
theorem ack x0 : Statement (.ack x0) := none_word _ rfl
theorem cqtAckTimer x0 : Statement (.cqtAckTimer x0) := none_word _ rfl
theorem cqtRetryTimeout x0 x1 : Statement (.cqtRetryTimeout x0 x1) := none_word _ rfl
theorem arpRequest x0 x1 x2 : Statement (.arpRequest x0 x1 x2) := none_word _ rfl
theorem neighborSolicitation x0 x1 x2 : Statement (.neighborSolicitation x0 x1 x2) := none_word _ rfl
theorem unsupportedPacket x0 : Statement (.unsupportedPacket x0) := none_word _ rfl
theorem roceAck x0 x1 : Statement (.roceAck x0 x1) := none_word _ rfl
theorem roceNakSequence x0 x1 : Statement (.roceNakSequence x0 x1) := none_word _ rfl
theorem roceNakRnr x0 x1 x2 : Statement (.roceNakRnr x0 x1 x2) := none_word _ rfl
theorem roceNakRemoteError x0 : Statement (.roceNakRemoteError x0) := none_word _ rfl
theorem cnp x0 : Statement (.cnp x0) := none_word _ rfl
theorem roceRetryTimeout x0 : Statement (.roceRetryTimeout x0) := none_word _ rfl
theorem rnrTimerExpiry x0 : Statement (.rnrTimerExpiry x0) := none_word _ rfl
theorem rateIncrease x0 : Statement (.rateIncrease x0) := none_word _ rfl
theorem xltCtxKvbaseWrite x0 x1 : Statement (.xltCtxKvbaseWrite x0 x1) := none_word _ rfl
theorem xltCtxKvlshWrite x0 x1 : Statement (.xltCtxKvlshWrite x0 x1) := none_word _ rfl
theorem xltInv x0 x1 : Statement (.xltInv x0 x1) := none_word _ rfl
theorem xltInvComplete : Statement (.xltInvComplete) := none_word _ rfl
theorem xltKvpEnable x0 x1 : Statement (.xltKvpEnable x0 x1) := none_word _ rfl
theorem xltKvpDisable x0 x1 : Statement (.xltKvpDisable x0 x1) := none_word _ rfl
theorem poolInitComplete x0 : Statement (.poolInitComplete x0) := none_word _ rfl
theorem xltPfxCfgWrite x0 x1 : Statement (.xltPfxCfgWrite x0 x1) := none_word _ rfl
theorem drop x0 x1 : Statement (.drop x0 x1) := none_word _ rfl
theorem release x0 x1 : Statement (.release x0 x1) := none_word _ rfl
theorem xltKvopComplete : Statement (.xltKvopComplete) := none_word _ rfl
theorem stmCreditWrite x0 x1 : Statement (.stmCreditWrite x0 x1) := none_word _ rfl
theorem colCtlWrite x0 x1 : Statement (.colCtlWrite x0 x1) := none_word _ rfl
theorem errCtlWrite x0 x1 : Statement (.errCtlWrite x0 x1) := none_word _ rfl
theorem errRingRetire x0 x1 : Statement (.errRingRetire x0 x1) := none_word _ rfl
theorem errDrainReq x0 x1 : Statement (.errDrainReq x0 x1) := none_word _ rfl
theorem fabCtlRetrain x0 x1 : Statement (.fabCtlRetrain x0 x1) := none_word _ rfl
theorem beatCntLoRead x0 : Statement (.beatCntLoRead x0) := none_word _ rfl
theorem pwrEnergyLoRead x0 x1 : Statement (.pwrEnergyLoRead x0 x1) := none_word _ rfl
theorem pwrCapWrite x0 x1 : Statement (.pwrCapWrite x0 x1) := none_word _ rfl
theorem pwrGroupWrite x0 x1 x2 : Statement (.pwrGroupWrite x0 x1 x2) := none_word _ rfl
theorem pwrSlewWrite x0 x1 : Statement (.pwrSlewWrite x0 x1) := none_word _ rfl
theorem qceEpData7Commit x0 x1 : Statement (.qceEpData7Commit x0 x1) := none_word _ rfl
theorem tstCtlWrite x0 x1 x2 : Statement (.tstCtlWrite x0 x1 x2) := none_word _ rfl
theorem cfgDone x0 x1 : Statement (.cfgDone x0 x1) := none_word _ rfl
theorem clearDrain x0 x1 : Statement (.clearDrain x0 x1) := none_word _ rfl
theorem secSpdmCtlGo x0 x1 : Statement (.secSpdmCtlGo x0 x1) := none_word _ rfl
theorem spdmMailboxComplete : Statement (.spdmMailboxComplete) := none_word _ rfl
theorem svcRegisterRead x0 : Statement (.svcRegisterRead x0) := none_word _ rfl
theorem svcRegisterWrite x0 : Statement (.svcRegisterWrite x0) := none_word _ rfl
theorem getVersion x0 : Statement (.getVersion x0) := none_word _ rfl
theorem getCapabilities x0 : Statement (.getCapabilities x0) := none_word _ rfl
theorem negotiateAlgorithms x0 x1 x2 : Statement (.negotiateAlgorithms x0 x1 x2) := none_word _ rfl
theorem getDigests x0 : Statement (.getDigests x0) := none_word _ rfl
theorem getCertificate x0 x1 x2 x3 : Statement (.getCertificate x0 x1 x2 x3) := none_word _ rfl
theorem challenge x0 x1 x2 : Statement (.challenge x0 x1 x2) := none_word _ rfl
theorem getMeasurements x0 x1 x2 x3 : Statement (.getMeasurements x0 x1 x2 x3) := none_word _ rfl
theorem setEndpointId x0 : Statement (.setEndpointId x0) := none_word _ rfl
theorem getSensorReading x0 : Statement (.getSensorReading x0) := none_word _ rfl
theorem getStateSensorReadings x0 : Statement (.getStateSensorReadings x0) := none_word _ rfl
theorem getPdr x0 : Statement (.getPdr x0) := none_word _ rfl
theorem queryDeviceIdentifiers : Statement (.queryDeviceIdentifiers) := none_word _ rfl
theorem getFirmwareParameters : Statement (.getFirmwareParameters) := none_word _ rfl
theorem requestUpdate : Statement (.requestUpdate) := none_word _ rfl
theorem passComponentTable x0 : Statement (.passComponentTable x0) := none_word _ rfl
theorem updateComponent x0 x1 : Statement (.updateComponent x0 x1) := none_word _ rfl
theorem firmwareDataReceive x0 x1 x2 : Statement (.firmwareDataReceive x0 x1 x2) := none_word _ rfl
theorem activateFirmware : Statement (.activateFirmware) := none_word _ rfl
theorem getStatus : Statement (.getStatus) := none_word _ rfl
theorem cancelUpdate : Statement (.cancelUpdate) := none_word _ rfl
theorem bootRom x0 : Statement (.bootRom x0) := none_word _ rfl
theorem bootStage2 x0 x1 : Statement (.bootStage2 x0 x1) := none_word _ rfl
theorem bootReady x0 : Statement (.bootReady x0) := none_word _ rfl
theorem hostPortRetry x0 : Statement (.hostPortRetry x0) := none_word _ rfl
theorem rotationDue x0 : Statement (.rotationDue x0) := none_word _ rfl
theorem testCaseRun x0 x1 : Statement (.testCaseRun x0 x1) := none_word _ rfl
theorem testCaseLimit x0 : Statement (.testCaseLimit x0) := none_word _ rfl
theorem testEnd x0 : Statement (.testEnd x0) := none_word _ rfl
theorem xltCtxRootWrite x0 x1 : Statement (.xltCtxRootWrite x0 x1) := none_word _ rfl
theorem cqtReservedType x0 x1 : Statement (.cqtReservedType x0 x1) := none_word _ rfl
theorem svc3v3Loss : Statement (.svc3v3Loss) := none_word _ rfl
theorem svc3v3Return : Statement (.svc3v3Return) := none_word _ rfl
theorem controlSymbolSend x0 : Statement (.controlSymbolSend x0) := none_word _ rfl
theorem operatingSecond x0 : Statement (.operatingSecond x0) := none_word _ rfl
theorem dynamicAddressAssignment x0 : Statement (.dynamicAddressAssignment x0) := none_word _ rfl

end Sys2Proof.Laws.F
end

