-- ==== Sys2Proof/Tests/Slice0.lean ====
section
/-!
SUPPORT. Tests of one decoding or one step each, and witnesses: for every statement with hypotheses, states and operands that meet them, clause
by clause. Expected values come from the spec's tables and rules.
-/

namespace Sys2Proof.Tests

set_option Elab.async false

open Sys2Proof Sys2Proof.Machine

/-! ### States -/

/-- A header on core 0 with no wait, signal or detection. -/
def h0 : Ih := ⟨0, none, none, []⟩

/-- A header that waits on k2 and signals k7. -/
def hts : Ih := ⟨0, some 2, some 7, []⟩

/-- An accepted launch that runs on queue 1 and began at boundary 16. -/
def run1 : Launch :=
  { qid := 1, cookie := 0, handle := 0, epoch := 1, jobTag := 5, lead := 0, members := 1, deadline := 256, args := [], resVa := 0, resLen := 0,
    seed := 0, nanMode := 0, ctx := 0, strict := 0, salt := 0, swapPeriod := 0, swapPhase := 0, cond := .resident, run := .running, start := some 16 }

/-- Core 0 of a running launch. -/
def runs (k : Core) : State := { launches := [run1], cores := [(0, k)] }

/-- What a next state says; false on a stop. -/
def next (r : Res) (f : State → Bool) : Bool :=
  match r with
  | .next t => f t
  | _ => false

/-! ### Words, bit by bit from the encoding tables (04 R104-R109) -/

/-- The head of a word: unit, operation, wait, signal (04 R104). -/
def head (unit : BitVec 3) (op : BitVec 5) (wt : BitVec 1) (wk : BitVec 4) (sg : BitVec 1) (sk : BitVec 4) : BitVec 18 :=
  unit ++ op ++ wt ++ wk ++ sg ++ sk

theorem test_decode_reg : decodeCore 0 (head 0 0x01 0 0 0 0 ++ 3#5 ++ 1#5 ++ 2#5 ++ 0#31) = some (.add h0 3 1 2) ∧
    decodeCore 0 (head 0 0x0D 1 2 1 7 ++ 31#5 ++ 30#5 ++ 29#5 ++ 0#31) = some (.maxu hts 31 30 29) := by decide +kernel

theorem test_decode_imm : decodeCore 0 (head 0 0x10 0 0 0 0 ++ 4#5 ++ 5#5 ++ 0#4 ++ 0xFFFFFFFE#32) = some (.addi h0 4 5 0xFFFFFFFE) ∧
    decodeCore 0 (head 0 0x18 0 0 0 0 ++ 4#5 ++ 5#5 ++ 0#4 ++ 64#32) = some (.sto h0 4 5 64) ∧
    decodeCore 0 (head 0 0x1D 0 0 0 0 ++ 4#5 ++ 0#5 ++ 0#4 ++ 1#32) = some (.rdflg h0 4 true) := by decide +kernel

theorem test_decode_addr : decodeCore 0 (head 0 0x15 0 0 0 0 ++ 3#4 ++ 2#4 ++ 1#5 ++ 0#1 ++ 9#32) = some (.addah h0 3 2 1 9) ∧
    decodeCore 0 (head 0 0x16 0 0 0 0 ++ 6#5 ++ 2#4 ++ 1#1 ++ 0#36) = some (.movsa h0 6 2 true) := by decide +kernel

theorem test_decode_branch : decodeCore 0 (head 0 0x1C 0 0 0 0 ++ 2#3 ++ 0#2 ++ 1#5 ++ 2#5 ++ 0#7 ++ 0xFFFFFE#24) = some (.br h0 (.lt 1 2) 0xFFFFFE) ∧
    decodeCore 0 (head 0 0x1C 0 0 0 0 ++ 6#3 ++ 0#2 ++ 1#5 ++ 0#5 ++ 0#7 ++ 0#24) = none ∧
    decodeCore 0 (head 0 0x1E 0 0 0 0 ++ 0#46) = some (.endProgram h0) := by decide +kernel

theorem test_decode_mat : decodeCore 0 (head 1 0x01 1 2 0 0 ++ 3#5 ++ 6#5 ++ 1#5 ++ 2#5 ++ 4#5 ++ 0#5 ++ 7#16) =
    some (.attn ⟨0, some 2, none, []⟩ 3 6 1 2 4 7) ∧ decodeCore 0 (head 1 0x00 0 0 0 0 ++ 3#5 ++ 6#5 ++ 0#15 ++ 1#5 ++ 0#16) = none := by decide +kernel

theorem test_decode_mxu : decodeCore 0 (head 1 0x02 0 0 0 0 ++ 3#5 ++ 6#5 ++ 4#3 ++ 3#3 ++ 0#30) = some (.epi h0 3 6 4 3) ∧
    decodeCore 0 (head 1 0x02 0 0 0 0 ++ 3#5 ++ 6#5 ++ 4#3 ++ 4#3 ++ 0#30) = none ∧
    decodeCore 0 (head 1 0x03 0 0 0 0 ++ 0x81#8 ++ 1#1 ++ 0#37) = some (.accinit h0 0x81 true) := by decide +kernel

theorem test_decode_vop : decodeCore 0 (head 2 0x00 0 0 0 0 ++ 1#6 ++ 2#6 ++ 3#6 ++ 4#6 ++ 1#1 ++ 5#5 ++ 0#16) = some (.vprog h0 1 2 3 (some 4) 5) ∧
    decodeCore 0 (head 2 0x01 0 0 0 0 ++ 1#6 ++ 2#6 ++ 3#3 ++ 1#1 ++ 0#30) = some (.vred h0 1 2 .argmax true) ∧
    decodeCore 0 (head 2 0x01 0 0 0 0 ++ 1#6 ++ 2#6 ++ 4#3 ++ 1#1 ++ 0#30) = none := by decide +kernel

theorem test_decode_vmem : decodeCore 0 (head 2 0x02 0 0 0 0 ++ 9#6 ++ 2#4 ++ 1#1 ++ 0#13 ++ 8#5 ++ 0#1 ++ 3#16) = some (.vld h0 9 2 true 8 3) ∧
    decodeCore 0 (head 2 0x03 0 0 0 0 ++ 9#6 ++ 6#4 ++ 0#1 ++ 0#13 ++ 8#5 ++ 0#1 ++ 3#16) = some (.vst h0 9 6 false 8 3) ∧
    decodeCore 0 (head 2 0x04 0 0 0 0 ++ 9#6 ++ 7#5 ++ 0#13 ++ 8#5 ++ 0#1 ++ 3#16) = some (.vcvt h0 9 7 8 3) := by decide +kernel

theorem test_decode_vec : decodeCore 0 (head 2 0x05 0 0 0 0 ++ 9#6 ++ 5#3 ++ 2#2 ++ 1#2 ++ 0#33) = some (.vaccr h0 9 5 2 1) ∧
    decodeCore 0 (head 2 0x06 0 0 0 0 ++ 9#6 ++ 5#3 ++ 2#2 ++ 1#2 ++ 0#33) = some (.vaccw h0 9 5 2 1) ∧
    decodeCore 0 (head 2 0x07 0 0 0 0 ++ 9#6 ++ 8#6 ++ 0#34) = some (.vmov h0 9 8) ∧
    decodeCore 0 (head 2 0x08 0 0 0 0 ++ 9#6 ++ 8#5 ++ 0#35) = some (.vfill h0 9 8) := by decide +kernel

theorem test_decode_desc : decodeCore 0 (head 3 0x00 0 0 0 0 ++ 9#5 ++ 3#2 ++ 0#39) = some (.sarm h0 9 3) ∧
    decodeCore 0 (head 3 0x01 0 0 0 0 ++ 9#5 ++ 0#2 ++ 0#39) = some (.sexp h0 9) ∧
    decodeCore 0 (head 3 0x01 0 0 0 0 ++ 9#5 ++ 1#2 ++ 0#39) = none ∧ decodeCore 0 (head 4 0x04 0 0 0 0 ++ 9#5 ++ 0#2 ++ 0#39) = some (.coll h0 9) := by
  decide +kernel

theorem test_decode_syn : decodeCore 0 (head 4 0x00 0 0 0 0 ++ 5#4 ++ 0x1234#16 ++ 0#26) = some (.tsig h0 5 0x1234) ∧
    decodeCore 0 (head 4 0x01 0 0 0 0 ++ 5#4 ++ 0x1234#16 ++ 0#26) = some (.twait h0 5 0x1234) ∧
    decodeCore 0 (head 4 0x02 0 0 0 0 ++ 5#5 ++ 0#9 ++ 100#32) = some (.waitbeat h0 5 100) ∧
    decodeCore 0 (head 4 0x03 0 0 0 0 ++ 5#5 ++ 0#9 ++ 100#32) = some (.beatmark h0 5 100) ∧
    decodeCore 0 (head 4 0x05 0 0 0 0 ++ 0#46) = some (.lbar h0) := by decide +kernel

/-! ### Ill-formed commands, one for each check of wellFormed -/

theorem test_wellFormed_refuses :
    (Instr.nop { h0 with det := [⟨.lostGranule 49152 [], false, 0⟩] }).wellFormed = false ∧ (Instr.epi h0 0 0 4 4).wellFormed = false ∧
    (Instr.unitInstructionBegin 0 .vec [⟨.lostGranule 49152 [], false, 0⟩]).wellFormed = false ∧
    (Instr.remoteStreamArrival 0 0 false 5 0 (List.replicate 257 0) true none).wellFormed = false ∧
    (Instr.hbmWrite 30 [1, 2, 3] .readMem 0).wellFormed = false ∧ (Instr.hbmWrite 0 [] .readMem 0).wellFormed = false ∧
    (Instr.cacheAccess 0 false false .noAllocate (some [1]) .readMem).wellFormed = false ∧
    (Instr.takeoverCopyComplete 0 [.granule 49152 []]).wellFormed = false ∧
    (Instr.collChunkArrival 0 0 0 .x false 0 (List.replicate 257 0) []).wellFormed = false ∧
    (Instr.flitReceive 0 [0]).wellFormed = false ∧ (Instr.mgmt 0 0 0 2 1 (List.replicate 8 0)).wellFormed = false ∧
    (Instr.mgmt 0 0 0 8 8 (List.replicate 8 0)).wellFormed = false ∧ (Instr.mgmt 0 0 0 0 0 [0]).wellFormed = false ∧
    (Instr.fabricTrainingComplete []).wellFormed = false ∧
    (Instr.powerTick ⟨[], 0, [], [], [], []⟩).wellFormed = false ∧ (Instr.thermalCeilingStep false [] []).wellFormed = false ∧
    (Instr.challenge .service 0 [0]).wellFormed = false ∧ (Instr.getMeasurements .service 1 false [0]).wellFormed = false ∧
    (Instr.cqtReservedType ⟨1, 1, 0, 0, 0, 8, 0, 0, 0, 0, 0, false, 0, 0, 0, 0⟩ 1).wellFormed = false := by decide +kernel

/-! ### The queue of commands -/

theorem test_step_front : (match step { State.reset with pending := [.beatCntLoRead .queue, .checkPoint] } with
    | .next t => t.pending == [Instr.checkPoint]
    | _ => false) = true ∧ State.reset.pending = [] := by decide +kernel

/-- DecodeEncode: an EPI of the last tiles, with every operand at its highest value. -/
theorem test_witness_encode : (Instr.epi ⟨63, some 15, some 15, [⟨.lostGranule 49151 [], true, 9⟩]⟩ 31 31 7 0).wellFormed = true ∧
    (encodeCore (.epi ⟨63, some 15, some 15, [⟨.lostGranule 49151 [], true, 9⟩]⟩ 31 31 7 0)).isSome = true ∧ (encodeCore (.checkPoint)) = none := by decide +kernel

theorem test_witness_resetQueues : (1 : BitVec 12) ≠ 0 ∧ (State.reset.queue 4095).valid = false := by decide +kernel

/-! ### SEQ instructions -/

/-- Core 0 with the greatest token counts that a wait and a signal leave room for. -/
def tokens : Core := { k := [(2, 1), (7, 65534)], s := [(1, 0xFFFFFFFF), (2, 2)], flags := 0x1F }

/-- The hypothesis of the SEQ statements: with no token, and with both at the edge of their range. -/
theorem test_witness_seqReady : (runs tokens).seqReady h0 run1 ∧ (runs tokens).seqReady hts run1 := by
  unfold State.seqReady; decide +kernel

theorem test_add_wraps : next (exec (.add h0 3 1 2) (runs tokens)) (fun t => (t.core 0).rs 3 == 1 && (t.core 0).pc == 8) = true := by decide +kernel
theorem test_add_tokens : next (exec (.add hts 0 1 2) (runs tokens)) (fun t => (t.core 0).k == [(7, 65535)] && (t.core 0).rs 0 == 0) = true := by
  decide +kernel
theorem test_sub_source_is_destination :
    next (exec (.sub h0 2 2 1) (runs tokens)) (fun t => (t.core 0).rs 2 == 3) = true := by decide +kernel
theorem test_mul_low : next (exec (.mul h0 3 1 1) (runs tokens)) (fun t => (t.core 0).rs 3 == 1) = true := by decide +kernel
theorem test_shl_by_32 : next (exec (.shl h0 3 2 4) (runs { tokens with s := [(2, 2), (4, 33)] })) (fun t => (t.core 0).rs 3 == 4) = true := by
  decide +kernel
theorem test_sra_sign : next (exec (.sra h0 3 1 2) (runs tokens)) (fun t => (t.core 0).rs 3 == 0xFFFFFFFF) = true ∧
    next (exec (.shr h0 3 1 2) (runs tokens)) (fun t => (t.core 0).rs 3 == 0x3FFFFFFF) = true := by decide +kernel
theorem test_min_signs : next (exec (.min h0 3 1 2) (runs tokens)) (fun t => (t.core 0).rs 3 == 0xFFFFFFFF) = true ∧
    next (exec (.minu h0 3 1 2) (runs tokens)) (fun t => (t.core 0).rs 3 == 2) = true ∧
    next (exec (.max h0 3 1 2) (runs tokens)) (fun t => (t.core 0).rs 3 == 2) = true ∧
    next (exec (.maxu h0 3 1 2) (runs tokens)) (fun t => (t.core 0).rs 3 == 0xFFFFFFFF) = true := by decide +kernel
theorem test_slt_signs : next (exec (.slt h0 3 1 2) (runs tokens)) (fun t => (t.core 0).rs 3 == 1) = true ∧
    next (exec (.sltu h0 3 1 2) (runs tokens)) (fun t => (t.core 0).rs 3 == 0) = true := by decide +kernel
theorem test_adda_sign : next (exec (.adda h0 3 3 2 0xFFFFFFFF) (runs tokens)) (fun t => (t.core 0).ra 3 == 1) = true ∧
    next (exec (.addah h0 3 3 2 0xFFFFFFFF) (runs tokens)) (fun t => (t.core 0).ra 3 == 0x0000000100000000) = true := by decide +kernel
theorem test_movsa_halves : next (exec (.movsa h0 3 2 true) (runs { a := [(2, 0x123456789ABCDEF0)] })) (fun t => (t.core 0).rs 3 == 0x12345678) = true ∧
    next (exec (.movsa h0 3 2 false) (runs { a := [(2, 0x123456789ABCDEF0)] })) (fun t => (t.core 0).rs 3 == 0x9ABCDEF0) = true := by decide +kernel

/-- ScalarFrame: the instruction answers a next state, and a token beside its own stands. -/
theorem test_witness_frame : next (exec (.add hts 3 1 2) (runs { tokens with k := [(2, 1), (3, 9), (7, 65534)] })) (fun t => (t.core 0).tok 3 == 9) = true ∧
    (hts.wt ≠ some 3) ∧ (hts.sg ≠ some 3) := by decide +kernel

/-- LocalWords: the last word of either store, the first offset past each, an odd offset, and line 1 of DST. -/
theorem test_witness_localWords :
    (let a (x : Word) : Nat := (tokens.rs 0 + x).toNat
     (a 0x2FFFFC % 4 = 0 ∧ a 0x2FFFFC < 0x300000) ∧ (a 0xFFFC % 4 = 0 ∧ a 0xFFFC < 0x10000) ∧ ¬(a 0x300000 % 4 = 0 ∧ a 0x300000 < 0x300000) ∧
     ¬(a 2 % 4 = 0 ∧ a 2 < 0x10000) ∧ ¬(a 124 % 4 = 0 ∧ 128 ≤ a 124 ∧ a 124 < 0x10000)) := by decide +kernel

theorem test_sto_ldo : next (exec (.sto h0 1 0 0x2FFFFC) (runs { s := [(1, 0x11223344)] }))
    (fun t => (t.core 0).ost == [(0x2FFFFC, 0x44), (0x2FFFFD, 0x33), (0x2FFFFE, 0x22), (0x2FFFFF, 0x11)]) = true ∧
    next (exec (.ldo h0 3 0 0x100) (runs { ost := [(0x101, 7)] })) (fun t => (t.core 0).rs 3 == 0x700) = true := by decide +kernel
theorem test_sto_outside : next (exec (.sto h0 1 0 0x300000) (runs {})) (fun t => (t.core 0).ost == [] && t.launches == [] && t.err.ring.map (·.code) == [0x020A]) = true := by
  decide +kernel
theorem test_dld_last : next (exec (.dld h0 3 0 0xFFFC) (runs { dsc := [(16383, 5)] })) (fun t => (t.core 0).rs 3 == 5) = true := by decide +kernel

/-- A core with a stream line 2 at rest, one 3 that flies, and a collective line 4 at rest. -/
def lines : Core :=
  { dsc := [(32, 0x50000000), (33, 0x40000005), (48, 0x50000000), (49, 0x20000000), (64, 0x60000000)], streamLines := [2, 3], collLines := [4] }

/-- A core whose SEXP in the STM queue has still to latch line 5. -/
def latching : Core :=
  { qStm := [{ serial := 0, pc := 0, bits := 0, op := .sexp 5, wt := some 1, sg := none, det := [] }], serialNo := 1 }

/-- DescriptorWrites, DST: each clause. -/
theorem test_witness_dst :
    (lines.streamLines.contains 2 = true ∧ lines.streamBusy 2 = false ∧ lines.lineHeld 2 = false ∧ (0x60000000 : Word).toNat / 2 ^ 28 ≠ 5) ∧
    (lines.collLines.contains 4 = true ∧ ¬lines.streamLines.contains 4 = true ∧ lines.streamBusy 4 = false) ∧
    (¬lines.streamLines.contains 5 = true ∧ ¬lines.collLines.contains 5 = true ∧ lines.lineHeld 5 = false) ∧
    (¬latching.streamLines.contains 5 = true ∧ ¬latching.collLines.contains 5 = true ∧ latching.lineHeld 5 = true) ∧
    ((0x80 : Nat) % 4 = 0 ∧ 128 ≤ 0x80 ∧ 0xFFFC % 4 = 0 ∧ 0xFFFC < 0x10000) := by decide +kernel
theorem test_witness_dst_ready : (runs lines).seqReady h0 run1 ∧ (runs latching).seqReady h0 run1 := by unfold State.seqReady; decide +kernel
theorem test_dst_stream_state : next (exec (.dst h0 1 0 0x84) (runs { lines with s := [(1, 0xF0000007)] })) (fun t => (t.core 0).dw 2 1 == 7) = true := by
  decide +kernel

/-- DBIND: the last line, line 0, line 1 and the line past the last. -/
theorem test_dbind : next (exec (.dbind h0 31 0 1023) (runs {})) (fun t => (t.core 0).slot 31 == 1023) = true ∧
    next (exec (.dbind h0 31 0 0) (runs { d := [(31, 5)] })) (fun t => (t.core 0).d == []) = true ∧
    next (exec (.dbind h0 31 0 1) (runs {})) (fun t => (t.core 0).d == [] && t.launches == [] && t.err.ring.map (·.code) == [0x020A]) = true ∧
    next (exec (.dbind h0 31 0 1024) (runs {})) (fun t => t.launches == [] && t.err.ring.map (·.code) == [0x020A]) = true := by decide +kernel

/-- Branches: a branch that holds and one that does not, and the two words that are no instruction. -/
theorem test_br : next (exec (.br h0 (.lt 1 2) 0xFFFFFF) (runs { tokens with pc := 80 })) (fun t => (t.core 0).pc == 72) = true ∧
    next (exec (.br h0 (.ltu 1 2) 0xFFFFFF) (runs { tokens with pc := 80 })) (fun t => (t.core 0).pc == 88) = true := by decide +kernel
theorem test_witness_branches : (let w : BitVec 64 := head 0 0x1C 0 0 0 0 ++ 6#3 ++ 0#2 ++ 0#5 ++ 1#5 ++ 0#7 ++ 0#24
    w.extractLsb' 56 8 = 0x1C ∧ w.extractLsb' 43 3 = 6 ∧ w.extractLsb' 31 5 ≠ 0) ∧
    (head 0 0x1C 0 0 0 0 ++ 7#3 ++ 0#43 : BitVec 64).extractLsb' 43 3 = 7 := by decide +kernel

theorem test_rdflg : next (exec (.rdflg h0 3 true) (runs tokens)) (fun t => (t.core 0).rs 3 == 0x1F && (t.core 0).flags == 0) = true ∧
    next (exec (.rdflg h0 3 false) (runs tokens)) (fun t => (t.core 0).rs 3 == 0x1F && (t.core 0).flags == 0x1F) = true := by decide +kernel

/-- EndRetires: an END that waits for a queued instruction, and one that retires while 63 cores still run. -/
theorem test_witness_end : latching.allDoneBefore latching.serialNo = false ∧ (runs latching).quiet = true ∧
    tokens.allDoneBefore tokens.serialNo = true ∧ ((runs tokens).core 63).ended = false ∧ (runs tokens).quiet = true := by decide +kernel
theorem test_end : next (exec (.endProgram h0) (runs { tokens with obligation := some 5 }))
    (fun t => (t.core 0).ended && (t.core 0).k == [] && (t.core 0).obligation == none) = true := by decide +kernel

/-! ### Unit instructions -/

/-- An instruction that waits on a token that never comes, and 15 of it: a queue with room for one more. -/
def parked : Issued := { serial := 0, pc := 0, bits := 0, op := .vmov 1 2, wt := some 1, sg := none, det := [] }
def crowd : List Issued := List.replicate 15 parked

/-- UnitQueues: every queue holds 15 instructions; the tiles of an EPI on either side of the last. -/
def crowded : State := runs { qMxu := crowd, qVec := crowd, qStm := crowd, qSyn := crowd, serialNo := 1 }
theorem test_witness_unitWaits : ∀ u, crowded.unitWaits h0 u run1 := by
  intro u; cases u <;> unfold State.unitWaits <;> decide +kernel
theorem test_witness_epi_tiles : (7 : BitVec 3).toNat + (0 : BitVec 3).toNat ≤ 7 ∧ (7 : BitVec 3).toNat + (1 : BitVec 3).toNat > 7 := by decide +kernel

/-- A core whose lines hold: 2 a matrix descriptor of INT8, 3 its nest of one tile of one row, one column and two k, 5 a retaining chain,
6 a dense attention descriptor, 8 a chain of one conversion to F32, 10 an element program of one move, 13 an export of no page, 14 a
stream of 64 bytes within the store, 15 a collective; slots d1 to d7 name them. -/
def unitCore : Core :=
  { d := [(1, 2), (2, 6), (3, 8), (4, 10), (5, 13), (6, 14), (7, 15)], tileI32 := 0xFFFFFFFFFFFFFFFF, s := [(1, 0x70000000)],
    ost := [(0, 3), (1, 0xFF), (64, 5), (128, 2)],
    dsc := [(32, 0x20012200), (33, 0x00C05000), (36, 64), (48, 0x10020000), (49, 0x20), (51, 64),
            (80, 0x30010100), (96, 0x40020000), (97, 0x00400000), (98, 0x02000000),
            (128, 0x30020200), (129, 0x01000000), (132, 64), (133, 0x00010001), (144, 0xD0000000), (145, 0x60000000),
            (160, 0x900300C0), (208, 0x70010000), (224, 0x50010066), (227, 64), (228, 0x00010001), (231, 0x1000), (240, 0x60010300)] }

/-- The image and the context that go with it. -/
def unitImage : Image := { modelId := 0, cores := [], shapes := [⟨0, 2, 0, 1, 1, 2⟩, ⟨0, 6, 0, 1, 1, 1⟩] }
def unitState : State :=
  { runs unitCore with
    images := [(0, some unitImage)]
    scheds := [{ epoch := 1, jobTag := 5, box := (1, 1, 1), origin := (0, 0, 0), self := 0, map := [(0, 0, 0)], slots := [], lastUse := 0 }]
    xlt := { ctxs := [(0, { regions := [(0, { valid := true, len := 1 })] })], pools := [(0, { en := true })] } }

/-- The unit instruction begins as it issues. -/
abbrev starts (s : State) (u : CUnit) (i : Instr) (op : UOp) : Prop := s.unitBegins h0 (bitsOf i) u (fun _ => op) run1

/-- What its unit answers. -/
def ran (s : State) (u : CUnit) (i : Instr) (op : UOp) (run : State → Launch → Nat → Issued → Began) : Began :=
  run (s.begunState h0 (bitsOf i) u fun _ => op) run1 0 (s.issued h0 (bitsOf i) fun _ => op)

/-- UnitRuns: each of the seven begins and flies. -/
theorem test_witness_unitBegins :
    starts unitState .mxu (.mma h0 1 0 0 0 0 0) (.mma 1 2 0 none none none) ∧ starts unitState .mxu (.attn h0 2 0 9 0 0 0) (.attn 2 6 0 (some 0) none none) ∧
    starts unitState .mxu (.epi h0 3 0 7 0) (.epi 8 0 7 0) ∧ starts unitState .vec (.vprog h0 3 0 7 (some 9) 4) (.vprog 3 0 7 (some 9) 10) ∧
    starts unitState .vec (.vred h0 63 1 .max true) (.vred 63 1 .max true) ∧
    starts unitState .vec (.vcvt h0 63 1 0 0) (.vcvt 63 0x70000000 0) ∧ starts unitState .stm (.sexp h0 5) (.sexp 13) := by
  unfold starts State.unitBegins; decide +kernel
theorem test_mma_runs : (let g := ran unitState .mxu (.mma h0 1 0 0 0 0 0) (.mma 1 2 0 none none none) (runMma 2 0 none none none {})
    g.stop = none ∧ g.halt = none ∧ (g.s.core 0).acc = [(0, 13)] ∧ (g.s.core 0).accI32 = 1) := by decide +kernel
theorem test_attn_runs : (let g := ran unitState .mxu (.attn h0 2 0 9 0 0 0) (.attn 2 6 0 (some 0) none none) (runAttn 6 0 (some 0) none none {})
    g.stop = none ∧ g.halt = none) := by decide +kernel
theorem test_epi_runs : (let g := ran unitState .mxu (.epi h0 3 0 7 0) (.epi 8 0 7 0) (runEpi 8 0 7 0 {}); g.stop = none ∧ g.halt = none) := by decide +kernel
theorem test_vprog_runs : (let g := ran unitState .vec (.vprog h0 3 0 7 (some 9) 4) (.vprog 3 0 7 (some 9) 10) (runVprog 3 0 7 (some 9) 10)
    g.stop = none ∧ g.halt = none) := by decide +kernel
theorem test_vred_runs : (let g := ran unitState .vec (.vred h0 63 1 .max true) (.vred 63 1 .max true) (runVred 63 1 .max true)
    g.stop = none ∧ g.halt = none) := by decide +kernel
theorem test_vcvt_runs : (let g := ran unitState .vec (.vcvt h0 63 1 0 0) (.vcvt 63 0x70000000 0) (runVcvt 63 0x70000000 0)
    g.stop = none ∧ g.halt = none) := by decide +kernel
theorem test_sexp_runs : (let g := ran unitState .stm (.sexp h0 5) (.sexp 13) (runSexp 13); g.stop = none ∧ g.halt = none) := by decide +kernel
/-- UnitRuns: each of the seven stops, here at a line that holds no descriptor (line 0, that of slot d0; a control word of 0 is none for VCVT's tile of a
float: its destination would not be aligned). -/
theorem test_units_stop :
    (ran unitState .mxu (.mma h0 0 0 0 0 0 0) (.mma 0 0 0 none none none) (runMma 0 0 none none none {})).stop.isSome = true ∧
    (ran unitState .mxu (.attn h0 0 0 0 0 0 0) (.attn 0 0 0 none none none) (runAttn 0 0 none none none {})).stop.isSome = true ∧
    (ran unitState .mxu (.epi h0 0 0 0 0) (.epi 0 0 0 0) (runEpi 0 0 0 0 {})).stop.isSome = true ∧
    (ran unitState .vec (.vprog h0 0 0 0 none 0) (.vprog 0 0 0 none 0) (runVprog 0 0 0 none 0)).stop.isSome = true ∧
    (ran unitState .vec (.vcvt h0 0 1 1 0) (.vcvt 0 0x70000000 0x70000000) (runVcvt 0 0x70000000 0x70000000)).stop.isSome = true ∧
    (ran unitState .stm (.sexp h0 0) (.sexp 0) (runSexp 0)).stop.isSome = true := by decide +kernel

/-- An EPI whose chain stores to an address of memory that has no translation halts its launch. -/
def unmapped : State :=
  { unitState with cores := [(0, { unitCore with dsc := sset 0 unitCore.dsc 129 0x02000000 })] }
theorem test_epi_halts : starts unmapped .mxu (.epi h0 3 0 7 0) (.epi 8 0 7 0) ∧
    (let g := ran unmapped .mxu (.epi h0 3 0 7 0) (.epi 8 0 7 0) (runEpi 8 0 7 0 {}); g.stop = none ∧ g.halt.isSome = true) := by
  unfold starts State.unitBegins; decide +kernel

/-- TileMoves and TileMemory: each begins; VACCW meets both an equal and another type; a tile at the end of the store, one past it and one off its grid. -/
theorem test_witness_tiles :
    starts unitState .vec (.vmov h0 63 1) (.vmov 63 1) ∧ starts unitState .vec (.vfill h0 63 1) (.vfill 63 0x70000000) ∧
    starts unitState .vec (.vaccr h0 63 7 3 3) (.vaccr 63 7 3 3) ∧ starts unitState .vec (.vaccw h0 63 7 3 3) (.vaccw 63 7 3 3) ∧
    starts unitState .vec (.vld h0 1 6 false 0 0xBFC0) (.vld 1 6 false 0x2FF000) ∧ starts unitState .vec (.vld h0 1 6 false 0 0xBFC1) (.vld 1 6 false 0x2FF040) ∧
    starts unitState .vec (.vld h0 1 2 true 1 0) (.vld 1 2 true 0x70000000) ∧
    starts unitState .vec (.vst h0 1 7 false 0 0xBFC0) (.vst 1 7 false 0x2FF000) ∧ starts unitState .vec (.vst h0 1 7 false 0 0xBFC1) (.vst 1 7 false 0x2FF040) := by
  unfold starts State.unitBegins; decide +kernel
theorem test_witness_tile_types : (unitState.core 0).tileIsI32 63 = true ∧ (unitState.core 0).accI32.getLsbD 7 = false ∧
    ({ unitCore with accI32 := 0x80 } : Core).accI32.getLsbD 7 = true ∧ (runs {}).canIssue 0 = some run1 ∧ ({} : Core).tileIsI32 1 = false ∧
    (0x2FF000 : Nat) % 64 = 0 ∧ 0x2FF000 + 1024 * fmtBytes 6 ≤ 0x300000 ∧ ¬0x2FF040 + 1024 * fmtBytes 6 ≤ 0x300000 := by decide +kernel

theorem test_vfill_vmov : next (exec (.vfill h0 63 0) unitState) (fun t => (t.core 0).tileI32 == 0x7FFFFFFFFFFFFFFF) = true ∧
    next (exec (.vmov h0 63 1) (runs { tile := [(2047, 5)], tileI32 := 2 })) (fun t => (t.core 0).tile == [(2047, 5), (65535, 5)] && (t.core 0).tileIsI32 63) = true := by
  decide +kernel
/-- The encodings of the example of 02 R42. -/
theorem test_vld_widens : vldElem 0 false 0xC2 = 0xC0200000 ∧ vldElem 1 false 0xC1 = 0xC0200000 ∧ vldElem 3 false 0xC080 = 0xC0200000 ∧
    vldElem 4 false 0xC040 = 0xC0200000 ∧ vldElem 0 false 0x04 = 0x3C000000 ∧ vldElem 2 false 0xFF = 0xFFFFFFFF ∧ vldElem 2 true 0xFF = 0xFF := by
  decide +kernel
theorem test_vaccw_type : next (exec (.vaccw h0 63 7 3 3) unitState) (fun t => t.err.ring.map (·.code) == [0x0107]) = true ∧
    next (exec (.vst h0 1 7 false 0 0xBFC1) unitState) (fun t => t.err.ring.map (·.code) == [0x020A]) = true := by decide +kernel

/-- AccumulatorInit. -/
theorem test_witness_accinit : starts unitState .mxu (.accinit h0 0xFF true) (.accinit 0xFF true) := by unfold starts State.unitBegins; decide +kernel
theorem test_accinit : next (exec (.accinit h0 0x80 true) (runs { acc := [(16383, 1), (114688, 2)] }))
    (fun t => (t.core 0).acc == [(16383, 1)] && (t.core 0).accI32 == 0x80) = true := by decide +kernel

/-! ### Synchronisation -/

/-- At launch beat 100, with tokens at the ends of their range. -/
def synCore : Core := { k := [(5, 65535), (6, 9)], obligation := some 50, s := [(1, 99), (2, 0xFFFFFFFF)] }
def synState : State := { runs synCore with fab := { cnt := 116 } }

theorem test_witness_sync : starts synState .syn (.tsig h0 5 0) (.tsig 5 0) ∧ starts synState .syn (.tsig h0 5 1) (.tsig 5 1) ∧ starts synState .syn (.twait h0 6 9) (.twait 6 9) ∧
    starts synState .syn (.waitbeat h0 1 1) (.waitbeat 100) ∧ starts synState .syn (.waitbeat h0 1 2) (.waitbeat 101) ∧
    starts synState .syn (.beatmark h0 1 0) (.beatmark 99) ∧ starts synState .syn (.beatmark h0 1 1) (.beatmark 100) ∧ starts synState .syn (.beatmark h0 2 0) (.beatmark 0xFFFFFFFF) ∧
    lo32 (synState.fab.cnt - run1.start.getD 0) = 100 := by
  unfold starts State.unitBegins; decide +kernel
theorem test_tsig_over : next (exec (.tsig h0 5 1) synState) (fun t => t.err.ring.map (·.code) == [0x020B]) = true ∧
    next (exec (.tsig h0 6 0xFFF6) synState) (fun t => (t.core 0).tok 6 == 65535) = true := by decide +kernel
theorem test_twait_all : next (exec (.twait h0 6 9) synState) (fun t => (t.core 0).k == [(5, 65535)]) = true ∧
    next (exec (.twait h0 6 10) synState) (fun t => (t.core 0).tok 6 == 9 && (t.core 0).qSyn.length == 1) = true := by decide +kernel
theorem test_beatmark : next (exec (.beatmark h0 1 1) synState) (fun t => (t.core 0).obligation == some 100) = true ∧
    next (exec (.beatmark h0 1 0) synState) (fun t => t.err.ring.map (·.code) == [0x0506]) = true := by decide +kernel
theorem test_waitbeat : next (exec (.waitbeat h0 1 1) synState) (fun t => (t.core 0).flight == []) = true ∧
    next (exec (.waitbeat h0 1 2) synState) (fun t => (t.core 0).flight.length == 1) = true := by decide +kernel

/-- DeviceBarrier: core 63 still runs; and 63 cores have ended. -/
def ended63 : State := { launches := [run1], cores := (List.range 63).map fun c => (c + 1, ({ ended := true } : Core)) }
theorem test_witness_barrier : (runs {}).canIssue 0 = some run1 ∧ ({} : Core).allDoneBefore 0 = true ∧ ((runs {}).core 63).ended = false ∧
    ((runs {}).core 63).joined ≤ (runs {}).barPassed ∧ ended63.canIssue 0 = some run1 ∧ ended63.barPassed ≤ (ended63.core 0).joined ∧
    (∀ i, i < 64 → i ≠ 0 → (ended63.core i).ended = true ∧ (ended63.core i).barHead = none) := by decide +kernel
theorem test_lbar : next (exec (.lbar h0) ended63) (fun t => t.barPassed == 1 && (t.core 0).qSyn == []) = true ∧
    next (exec (.lbar h0) (runs {})) (fun t => t.barPassed == 0 && (t.core 0).qSyn.length == 1) = true := by decide +kernel

/-- CollectiveBegins: one that begins, and one of a line that holds no descriptor. -/
theorem test_witness_coll : starts unitState .syn (.coll h0 7) (.coll 15) ∧ starts unitState .syn (.coll h0 0) (.coll 0) ∧
    (let i : Instr := .coll h0 7
     let ins := unitState.issued h0 (bitsOf i) fun _ => .coll 15
     let g := ran unitState .syn i (.coll 15) (runColl 15)
     g.stop = none ∧ ((g.flies 0 .syn ins).decideAll []).2 = false) ∧
    (ran unitState .syn (.coll h0 0) (.coll 0) (runColl 0)).stop.isSome = true := by
  unfold starts State.unitBegins; decide +kernel

/-! ### Streams, heads, limits -/

/-- StreamArms: a line at rest and one whose stream is QUEUED. -/
def armed : State := { unitState with cores := [(0, { unitCore with dsc := sset 0 unitCore.dsc 225 0x10000000, streamLines := [14] })] }
theorem test_witness_arms : starts unitState .stm (.sarm h0 6 3) (.sarm 14 3) ∧ unitCore.streamBusy 14 = false ∧ wbits (wAt (unitCore.lineWords 14 16) 0) 28 4 = 5 ∧
    (match parseStream (unitCore.lineWords 14 16) with
     | .ok x => !x.remote && x.boundsOk && !x.overlaps
     | .error _ => false) = true ∧
    starts armed .stm (.sarm h0 6 3) (.sarm 14 3) ∧ (armed.core 0).streamBusy 14 = true := by
  unfold starts State.unitBegins; decide +kernel
theorem test_sarm : next (exec (.sarm h0 6 3) unitState) (fun t => (t.core 0).streamState 14 == 1 && (sget [] (t.core 0).eng 3).length == 1) = true ∧
    next (exec (.sarm h0 6 3) armed) (fun t => t.err.ring.map (·.code) == [0x0303] && (t.core 0).eng == []) = true := by decide +kernel

/-- A head that waits on k1, alone and with a token, and a flight that signals. -/
def waitCore : Core :=
  { qVec := [{ parked with waited := 1048576 }], serialNo := 2, k := [(7, 65534)],
    flight := [{ ins := { serial := 1, pc := 8, bits := 0, op := .accinit 1 false, wt := none, sg := some 7, det := [] }, unit := .mxu, flags := 3 }] }

/-- HeadsAndFlights and Limits: a head that is ready and one that is not; a wait at its limit and one just before it; a beat in range and one out of it. -/
theorem test_witness_heads : (runs waitCore).running = some run1 ∧ waitCore.unitQ .vec = { parked with waited := 1048576 } :: [] ∧
    (runs waitCore).inTakeover 0 = false ∧ (runs waitCore).headReady waitCore { parked with waited := 1048576 } = false ∧
    (runs { waitCore with k := [(1, 1)] }).headReady { waitCore with k := [(1, 1)] } { parked with waited := 1048576 } = true ∧
    waitCore.interlockOk { parked with waited := 1048576 } = true ∧
    ((waitCore.flight.find? fun g => g.ins.serial == 1).map (·.marks)) = some [] := by decide +kernel
theorem test_witness_limits : (runs waitCore).resident = some run1 ∧ run1.suspended = none ∧ waitCore.headWaits { parked with waited := 1048576 } = true ∧
    (runs waitCore).waitLimit run1 0 = 1048576 ∧ ((0x10000000F : Dword) - 16).toNat = 0xFFFFFFFF ∧ ((0x10000000E : Dword) - 16).toNat < 0xFFFFFFFF ∧
    run1.start = some 16 := by decide +kernel
theorem test_begin_head : next (exec (.unitInstructionBegin 0 .vec []) (runs { waitCore with k := [(1, 1)] }))
    (fun t => (t.core 0).qVec == [] && (t.core 0).k == [] && (t.core 0).flight.length == 2) = true := by decide +kernel
theorem test_complete : next (exec (.instructionComplete 0 1) (runs waitCore)) (fun t => (t.core 0).flags == 3 && (t.core 0).tok 7 == 65535 && (t.core 0).flight == []) = true := by
  decide +kernel
theorem test_wait_limit : next (exec (.waitLimitExpiry 0 .vec) (runs waitCore)) (fun t => t.err.ring.map (·.code) == [0x0507]) = true ∧
    next (exec (.waitLimitExpiry 0 .vec) (runs { waitCore with qVec := [{ parked with waited := 1048575 }] })) (fun t => t.err.ring == []) = true := by
  decide +kernel
theorem test_beat_range : next (exec .beatRangeExpiry { runs {} with fab := { cnt := 0x10000000F } }) (fun t => t.err.ring.map (·.code) == [0x0510]) = true := by
  decide +kernel

/-- PagesAreSent: a subscriber whose window has room for one more page, whose bytes are whole, and one of them lost. -/
def handed : Handoff := { pool := 0, page := 0, layer := 0, index := 0 }
def subscribed : State :=
  { xlt := { pools := [(0, { en := true, frames := 16 })] },
    exp := { seqs := [(9, { subs := [(3, { isOpen := true, opened := true, lqpn := 7, psn := 0xFFFFFF, una := 0xFFFFFE, window := 2,
                                           queue := [{ handed with psn := some 0xFFFFFE }, handed] })] })] } }
theorem test_witness_pages : subscribed.subOf 7 = some (9, 3) ∧
    (let b := subscribed.sub 9 3
     (b.queue.findIdx? fun h => h.psn.isNone) = some 1 ∧ b.queue[1]? = some handed ∧ b.inFlight < b.window ∧ b.rnrWait = none) ∧
    subscribed.err.drained = false ∧ subscribed.hbm.poisonIn 65536 4096 = none ∧
    ({ subscribed.hbm with code := [(2175, 0xFFFF)] } : Hbm).poisonIn 65536 4096 ≠ none := by decide +kernel

/-- Streams: a stream of 64 bytes QUEUED, and one ACTIVE whose bytes have all committed. -/
def flown : Flight := { ins := { serial := 4, pc := 8, bits := 0, op := .sarm 14 3, wt := none, sg := none, det := [] }, unit := .stm }
def queued : State :=
  { unitState with cores := [(0, { unitCore with dsc := sset 0 unitCore.dsc 225 0x10000000, streamLines := [14], flight := [flown],
                                                 eng := [(3, [{ line := 14, serial := 4, words := unitCore.lineWords 14 16 }])] })] }
def moved : State :=
  { unitState with cores := [(0, { unitCore with dsc := sset 0 (sset 0 unitCore.dsc 225 0x20000000) 226 64, streamLines := [14], flight := [flown],
                                                 eng := [(3, [{ line := 14, serial := 4, words := unitCore.lineWords 14 16, started := true }])] })] }
/-- A remote stream to core 0 of device 0, of launch beat 100. -/
def remoteLine : Sparse Word := sset 0 (sset 0 (sset 0 unitCore.dsc 224 0x50010866) 237 0) 238 100
def atHead (line : Sparse Word) (state : Word) (cnt : Dword) (go : Bool) : State :=
  { unitState with fab := { cnt := cnt },
                   cores := [(0, { unitCore with dsc := sset 0 line 225 state, streamLines := [14], flight := [flown],
                                                 eng := [(3, [{ line := 14, serial := 4, words := ({ dsc := line } : Core).lineWords 14 16,
                                                                started := go, sent := if go then 64 else 0 }])] })] }
def remote (state : Word) (cnt : Dword) : State := atHead remoteLine state cnt false
/-- The same of no row, local and remote. -/
def empty (local' : Bool) (cnt : Dword) : State := atHead (sset 0 (if local' then unitCore.dsc else remoteLine) 228 0x00000001) 0x10000000 cnt false
/-- What the engine's head is: its state, whether it is remote and its launch beat. -/
def headOf (s : State) : Option (Nat × Bool × Word × Bool) :=
  ((s.core 0).headStream 3).map fun e => ((s.core 0).streamState e.1.line, e.2.remote, e.2.startBeat, e.1.started)
theorem test_witness_beats : run1.beat 115 = 99 ∧ run1.beat 116 = 100 ∧ queued.inTakeover 0 = false ∧ ((moved.core 0).dw 14 2).toNat = 64 := by decide +kernel
theorem test_witness_streams : (headOf queued == some (1, false, 0, false) && headOf moved == some (2, false, 0, true) &&
    headOf (remote 0x10000000 115) == some (1, true, 100, false) && headOf (remote 0x10000000 116) == some (1, true, 100, false) &&
    headOf (remote 0x20000000 116) == some (2, true, 100, false)) = true := by decide +kernel
theorem test_witness_streams_empty : (((empty true 0).core 0).headStream 3).map (fun e => (e.2.total, e.2.remote, e.2.sig)) = some (0, false, none) := by
  decide +kernel
theorem test_witness_streams_remote : (((empty false 0).core 0).headStream 3).map (fun e => (e.2.total, e.2.remote, e.2.sig)) = some (0, true, none) := by
  decide +kernel
theorem test_witness_streams_sent : (((atHead remoteLine 0x20000000 116 true).core 0).headStream 3).map (fun e => (e.2.total, e.1.started, e.1.sent)) =
    some (64, true, 64) := by decide +kernel
theorem test_stream_empty : next (exec (.streamStart 0 3 []) (empty true 0)) (fun t => (t.core 0).streamState 14 == 4 && (t.core 0).eng == []) = true ∧
    next (exec (.streamStart 0 3 []) (empty false 115)) (fun t => t == empty false 115) = true ∧
    next (exec (.remoteStreamStart 0 3) (empty false 116)) (fun t => (t.core 0).streamState 14 == 4 && (t.core 0).flight == []) = true := by decide +kernel
theorem test_stream_acked : next (exec (.streamDone 0 3 63 []) (atHead remoteLine 0x20000000 116 true)) (fun t => (t.core 0).streamState 14 == 2) = true ∧
    next (exec (.streamDone 0 3 64 []) (atHead remoteLine 0x20000000 116 true)) (fun t => (t.core 0).streamState 14 == 4 && (t.core 0).dw 14 2 == 64) = true := by
  decide +kernel
theorem test_stream_start : next (exec (.streamStart 0 3 []) queued) (fun t => (t.core 0).streamState 14 == 2 && (t.core 0).ostRead 0x1000 2 == [3, 0xFF]) = true ∧
    next (exec (.streamStart 0 3 []) (remote 0x10000000 115)) (fun t => (t.core 0).streamState 14 == 2 && (t.core 0).dw 14 2 == 0) = true := by decide +kernel
theorem test_stream_done : next (exec (.streamDone 0 3 0 []) moved) (fun t => (t.core 0).streamState 14 == 4 && (t.core 0).flight == [] && (t.core 0).eng == []) = true := by
  decide +kernel

/-- RemoteBytes: bytes that end where the store ends, with a signal at the edge of its range. -/
theorem test_remote_bytes : (0x2FFFFE : Dword).toNat + [1, 2].length ≤ 0x300000 ∧
    next (exec (.remoteStreamArrival 9 0 false 5 0x2FFFFE [1, 2] true (some 7)) (runs tokens))
      (fun t => (t.core 0).ostRead 0x2FFFFE 2 == [1, 2] && (t.core 0).tok 7 == 65535 && t.out == [.remoteAck 9 2]) = true ∧
    next (exec (.remoteStreamArrival 9 0 false 6 0x2FFFFE [1, 2] true (some 7)) (runs tokens)) (fun t => (t.core 0).ostRead 0x2FFFFE 2 == [0, 0] && t.out == []) = true := by
  decide +kernel

/-! ### HBM, cache, translation -/

/-- BurstWrites: the last bytes of the stacks and one byte past them; a whole and a part of a burst, sound and poisoned. -/
def lostBurst : State := { hbm := { code := [(5, 0xFFFF)] } }
theorem test_witness_burstWrites : ((95999999998 : BitVec 37).toNat % 32 + [1, 2].length ≤ 32 ∧ (95999999998 : BitVec 37).toNat + [1, 2].length ≤ 96000000000) ∧
    ((95999999999 : BitVec 37).toNat % 32 + [1].length ≤ 32 ∧ 96000000000 < (96000000000 : BitVec 37).toNat + [1].length) ∧
    lostBurst.hbm.poisoned 5 = true ∧ lostBurst.hbm.poisoned 6 = false ∧ (List.replicate 32 (7 : Byte)).length = 32 := by decide +kernel
theorem test_hbm_write : next (exec (.hbmWrite 190 [1, 2] .readMem 0) lostBurst) (fun t => t.hbm.mem == []) = true ∧
    next (exec (.hbmWrite 192 [1, 2] .readMem 0) lostBurst) (fun t => t.hbm.mem == [(192, 1), (193, 2)]) = true ∧
    next (exec (.hbmWrite 160 (List.replicate 32 7) .readMem 0) lostBurst) (fun t => t.hbm.poisoned 5 == false && t.hbm.read 190 2 == [7, 7]) = true ∧
    next (exec (.hbmWrite 96000000000 [1] .readMem 0) lostBurst) (fun t => t == lostBurst) = true := by decide +kernel

/-- BurstReads: a good read, one of lost data, a wrong bit that a good read follows, and two wrong ones. -/
theorem test_witness_burstReads : lostBurst.hbm.check 6 ⟨0, 0⟩ = .good ∧ lostBurst.hbm.check 5 ⟨0, 0⟩ = .poison ∧ lostBurst.hbm.check 6 ⟨1, 0⟩ = .bad ∧
    lostBurst.hbm.check 6 ⟨0, 1⟩ = .bad := by decide +kernel
theorem test_hbm_read : next (exec (.hbmRead 6 .readMem 0 ⟨1, 0⟩ ⟨0, 0⟩) lostBurst) (fun t => t.hbm.rereadOk == 1) = true := by decide +kernel

/-- Retirement: a granule being retired, with a write that came meanwhile, and one that is not. -/
def retires : State := { hbm := { retiring := [{ granule := 3, spare := 0, held := [⟨12288, 0, [9], false⟩] }] } }
theorem test_witness_retirement : ((retires.hbm.retiring.find? fun r => r.granule == 3).map (·.held)) = some [⟨12288, 0, [9], false⟩] ∧
    (retires.hbm.retiring.find? fun r => r.granule == 4) = none := by decide +kernel
theorem test_retire_complete : next (exec (.granuleRetireComplete 3 [127]) retires)
    (fun t => t.hbm.retiring == [] && t.hbm.remap == [(3, 1)] && t.hbm.poisoned 511 && t.hbm.mem == [(12288, 9)]) = true := by decide +kernel

/-- Cache: a hit, a miss, and a way that hands over at the boundary and one that does not. -/
def cached : State :=
  { hbm := { lines := [{ slice := 0, way := 0, set := 0, line := 8, dirty := false }, { slice := 0, way := 1, set := 0, line := 0, dirty := false }], handover := [(0, 1)] } }
theorem test_witness_cache : ((cached.hbm.lines.find? fun l => l.line == (0x3F : BitVec 37).toNat / 128).map (·.way)) = some 1 ∧
    (cached.hbm.lines.find? fun l => l.line == (0x80 : BitVec 37).toNat / 128) = none ∧ (0, 1) ∈ cached.hbm.handover ∧ (0, 0) ∉ cached.hbm.handover := by
  decide +kernel
theorem test_cache_hit : next (exec (.cacheAccess 0x3F true false .normal none .readMem) cached) (fun t => t.hbm.lines.map (·.dirty) == [true, false]) = true ∧
    next (exec (.cacheWayHandover 0 1) cached) (fun t => t.hbm.lines.map (·.way) == [0] && t.hbm.handover == []) = true := by decide +kernel

/-- Walks: virtual page 0 has a frame, page 1 has none. -/
def walked : State :=
  { hbm := { mem := [(4097, 0x20), (4103, 0x40), (8193, 0x30), (8199, 0x40), (12289, 0x40), (12295, 0x40), (16385, 0x50), (16391, 0x70)] },
    xlt := { ctxs := [(0, { rootValid := true, rootPfn := 1 })] } }
theorem test_witness_walks : walked.walk 0 0xFFF true = .ok 0x5000 12 true ∧ walked.walk 0 0x1000 true = .fail 0x0301 1 ∧
    requesterCore (.chain 63) = some 63 ∧ requesterCore .host = none := by decide +kernel
theorem test_walk_fills : next (exec (.tableWalkComplete .host 0 0xFFF true) walked) (fun t => t.xlt.sharedTlb == [⟨0, 0, 12, 0x5000, true⟩]) = true := by
  decide +kernel

/-- TakeoverEnds: a fence of core 3 of set 1 and a swap of set 2, each with its spare. -/
def takeover : State :=
  { err := { roles := [(12, 8)], takeovers := [{ set := 1, src := 3, dst := 8, why := .fence }, { set := 2, src := 0, dst := 8, why := .swap }] } }
theorem test_witness_takeovers : ((takeover.err.takeovers.find? fun t => t.set == 1).map (·.why)) = some .fence ∧
    ((takeover.err.takeovers.find? fun t => t.set == 2).map (·.why)) = some .swap := by decide +kernel
theorem test_takeover_fence : next (exec (.takeoverCopyComplete 1 []) takeover)
    (fun t => t.role 1 3 == 9 && t.role 1 8 == takeover.role 1 3 && t.err.ring.map (fun r => (r.kind, r.unit)) == [(1, 0x130)]) = true := by decide +kernel

/-- ShadowCompares: an outstanding signature, and one that is not. -/
def shadowed : State := { err := { shadows := [{ qid := 1, core := 63, index := 65536, sig := 5, pc := 16 }] }, launches := [run1] }
theorem test_witness_shadows : ((shadowed.err.shadows.find? fun x => x.core == 63 && x.index == 65536).map (·.sig)) = some 5 ∧
    (shadowed.err.shadows.find? fun x => x.core == 63 && x.index == 65537) = none ∧ shadowed.err.drained = false := by decide +kernel
theorem test_shadow_differs : next (exec (.shadowCompare 63 65536 6 5) shadowed)
    (fun t => t.err.drained && t.err.flagged && t.err.shadowMiss == 1 && (t.launchOf 1).isNone) = true := by decide +kernel
theorem test_shadow_agrees : next (exec (.shadowCompare 63 65536 5 5) shadowed) (fun t => t.err.shadows == [] && !t.err.drained) = true := by decide +kernel

/-! ### Launches -/

/-- A one-member schedule and an empty image, which every launch of these tests has. -/
def sched1 : Sched := { epoch := 1, jobTag := 5, box := (1, 1, 1), origin := (0, 0, 0), self := 0, map := [(0, 0, 0)], slots := [], lastUse := 0 }
def prepared (l : Launch) : State := { launches := [l], images := [(0, some { modelId := 0, cores := [], shapes := [] })], scheds := [sched1] }
def fresh1 : Launch := { run1 with cond := .pending, run := .fresh, start := none, args := [7] }

/-- Residency: a pending launch, a saved one that is to resume, and no launch. -/
theorem test_witness_residency : ((prepared fresh1).nextLaunch = some fresh1 ∧ (prepared fresh1).coresFree = true ∧ (prepared fresh1).err.drained = false ∧
      (prepared fresh1).col.colls = [] ∧ (prepared fresh1).schedOf fresh1 = some sched1) ∧
    (let l : Launch := { fresh1 with cond := .saved, resumeOrder := some 0 }; (prepared l).nextLaunch = some l ∧ (prepared l).coresFree = true) ∧
    State.reset.nextLaunch = none ∧ (prepared run1).coresFree = false := by decide +kernel
theorem test_fresh_core : (let k := freshCore { core := 63, code := [], entry := 8, waitLimit := 0, slots := [0, 5], lines := [], tokenUnits := [] } 2 9 [7]
    k.rs 1 == 63 && k.rs 2 == 2 && k.rs 3 == 9 && k.rs 4 == 1 && k.rs 5 == 0 && k.pc == 8 && k.ost == [(0, 7)] && k.slot 1 == 5) = true := by decide +kernel

/-- LaunchBegins: the root has its only entry; a member that lacks one, at its deadline and before it; a boundary that has come and one that has not. -/
def barrier1 (es : List CEntry) (n : Nat) : Coll :=
  { jobTag := 5, collId := 0xFFF, core := 0, line := 0, serial := 0, words := [], entries := es, counted := n, epoch := 1 }
def waiting : Launch := { run1 with run := .barrier, start := none }
def joins (es : List CEntry) (n : Nat) : State := { prepared waiting with fab := { cnt := 100, trained := some 0 }, col := { colls := [barrier1 es n] } }
def entry1 : CEntry := barrierEntry waiting sched1 0
theorem test_witness_launchBegins : (joins [entry1] 0).resident = some waiting ∧ (joins [entry1] 0).collOf 5 0xFFF = some (barrier1 [entry1] 0) ∧
    (barrier1 [entry1] 0).hasAll sched1 = true ∧ (joins [] 0).memberOf sched1 waiting.lead = some sched1.self.toNat ∧ (joins [] 0).memberOf sched1 1 = none ∧
    (barrier1 [] 0).hasAll sched1 = false ∧ (barrier1 [] 255).counted < waiting.deadline ∧ waiting.deadline ≤ (barrier1 [] 256).counted := by decide +kernel
theorem test_barrier_complete : next (exec (.launchBarrierComplete 0) (joins [entry1] 0))
    (fun t => t.launches.map (fun l => (l.run, l.goAt)) == [(.starting, some 116)] && t.out == []) = true := by decide +kernel
theorem test_barrier_timeout : next (exec .launchBarrierTimeout (joins [] 256)) (fun t => t.launches == [] && t.err.ring.map (·.code) == [0x0504]) = true ∧
    next (exec .launchBarrierTimeout (joins [] 255)) (fun t => t.launches.length == 1) = true := by decide +kernel
def starting : Launch := { run1 with run := .starting, start := none, goAt := some 116 }
theorem test_launch_start : next (exec .launchStart { prepared starting with fab := { cnt := 116 } }) (fun t => t.launches.map (·.start) == [some 116]) = true ∧
    next (exec .launchStart { prepared starting with fab := { cnt := 115 } }) (fun t => t.launches == [starting]) = true := by decide +kernel

/-- SaveRestore: a halted launch being saved, and one being restored 40 boundaries later. -/
def halted : Launch := { run1 with run := .halted 0x0301, suspended := some 60 }
def saved : Launch := { halted with cond := .saved, saved := [(3, tokens)], resumeOrder := some 0 }
theorem test_witness_restore : ({ prepared saved with restoring := some 1 } : State).launchOf 1 = some saved ∧ ({ prepared saved with restoring := some 1 } : State).resident = none ∧
    (saved.saved.all fun e => e.2.eng.isEmpty && e.2.flight.all fun f => f.haltedAt.isNone) = true := by decide +kernel
theorem test_save : next (exec .launchSaveComplete { prepared halted with saving := some 1, cores := [(3, tokens)] })
    (fun t => t.cores == [] && t.launches.map (fun l => (l.cond, l.saved)) == [(.saved, [(3, tokens)])]) = true := by decide +kernel
theorem test_restore : next (exec .launchRestoreComplete { prepared saved with restoring := some 1, fab := { cnt := 100 } })
    (fun t => t.cores == [(3, tokens)] && t.launches.map (fun l => (l.cond, l.run, l.start)) == [(.resident, .running, some 56)]) = true := by decide +kernel

/-! ### Collectives -/

/-- CountPhase: two members along x; the other's entry comes early, joins, or is of another group; an abort comes early, or fails a collective. -/
def sched2 : Sched := { sched1 with box := (2, 1, 1), map := [(0, 0, 0), (1, 0, 0)] }
def collWords : List Word := [0x60010300, 0x00300000, 0x00010000, 0, 1, 0, 0, 0x100, 0, 0x01000000]
def coll2 (es : List CEntry) : Coll := { jobTag := 5, collId := 3, core := 0, line := 15, serial := 0, words := collWords, entries := es, epoch := 1 }
def other2 : CEntry := { member := 1, op := 0, rop := 0, fmt := 6, ragged := false, root := 0, origin := 0, sides := 0x100, tag := 0, count := 1 }
def group2 : State := { launches := [run1], scheds := [sched2], cores := [(0, {})], fab := { trained := some 0x10000000, cnt := 50, ports := [(0, { state := .up, nbr := 1 })] } }
def abort2 : CAbort := { code := 0x0501, culprit := 1, sender := 1, origin := 0, sides := 0x100 }
theorem test_witness_countPhase : group2.jobSched 5 = some sched2 ∧ (entryGroup other2).has (sched2.pos 0) = true ∧ (entryGroup other2).has (sched2.pos 1) = true ∧
    (entryGroup { other2 with sides := 0 }).has (sched2.pos 1) = false ∧ group2.collOf 5 3 = none ∧
    ({ group2 with col := { colls := [coll2 []] } } : State).collOf 5 3 = some (coll2 []) ∧ (coll2 []).failure = none ∧
    (coll2 [other2]).hasAll sched2 = false ∧ group2.jobLaunch 5 = some run1 ∧ group2.schedOf run1 = some sched2 ∧ run1.run = .running ∧
    (coll2 []).isBarrier = false ∧ (coll2 []).desc.onFail = false ∧ group2.portUp 0 = true ∧ group2.portUp 1 = false ∧
    (groupOf abort2.origin abort2.sides).has (sched2.pos 1) = true ∧ sched2.epoch = 1 ∧ ({ coll2 [] with epoch := 2 } : Coll).epoch ≠ sched2.epoch := by
  decide +kernel
theorem test_count_early : next (exec (.countPhaseEntry 0 5 3 other2 []) group2) (fun t => t.col.early == [(5, 3, other2)]) = true ∧
    next (exec (.countPhaseEntry 0 5 3 other2 []) { group2 with col := { colls := [coll2 []] } }) (fun t => t.col.colls == [coll2 [other2]]) = true := by decide +kernel
theorem test_abort : next (exec (.collAbortReceive 0 5 3 abort2) { group2 with col := { early := [(5, 3, other2)] } }) (fun t => t.col.aborts == [(5, 3, 0x0501, 1)]) = true ∧
    next (exec (.collAbortReceive 0 5 3 abort2) group2) (fun t => t == group2) = true ∧
    next (exec (.collAbortReceive 0 5 3 abort2) { group2 with col := { colls := [coll2 []] } }) (fun t => t.launches == [] && t.err.ring.map (·.code) == [0x0501]) = true := by
  decide +kernel

/-- CollectiveData: a member that is not the root, in its data phase; one that has written all and one that has not; a deadline that has passed. -/
def ended2 : Flight := { ins := { serial := 0, pc := 8, bits := 0, op := .coll 15, wt := none, sg := none, det := [] }, unit := .syn, flags := 1 }
def data2 (c : Coll) : State :=
  { launches := [run1], scheds := [{ sched2 with self := 1 }], cores := [(0, { flight := [ended2], collLines := [15] })],
    fab := { trained := some 0x10000100, cnt := 50, ports := [(1, { state := .up, nbr := 0 })] }, devid := 1, col := { colls := [c] } }
def collD : Coll := { coll2 [] with phase := .data }
theorem test_witness_collData : (data2 collD).running = some run1 ∧ (data2 collD).collOf 5 3 = some collD ∧ (data2 collD).schedOf run1 = some { sched2 with self := 1 } ∧
    collD.isBarrier = false ∧ (coll2 []).phase ≠ .data ∧ (List.replicate 256 (7 : Byte)).length = 256 ∧ (0 : BitVec 24).toNat < collD.chunks ∧
    collD.desc.reduce = false ∧ collD.desc.dstMem = false ∧ ((data2 collD).geo { sched2 with self := 1 } collD.desc.group 0).sends = [] ∧ (data2 collD).carries collD = true ∧
    (data2 collD).engineRoom 3 = true ∧ (data2 collD).portUp 1 = true ∧ (data2 collD).portUp 0 = false ∧
    (data2 collD).collAllDone { sched2 with self := 1 } collD = false ∧ collD.rerun = false ∧ ended2.marks = [] ∧
    (data2 { collD with written := 1 }).collAllDone { sched2 with self := 1 } { collD with written := 1 } = true := by decide +kernel
theorem test_witness_collDeadline : ({ coll2 [] with counted := 255 } : Coll).counted < (coll2 []).desc.deadline ∧ (coll2 []).desc.deadline = 256 ∧ run1.suspended = none ∧
    ({ coll2 [] with words := 0x60010320 :: collWords.drop 1 } : Coll).desc.onFail = true := by decide +kernel
theorem test_chunk : next (exec (.collChunkArrival 1 5 3 .x false 0 (List.replicate 256 7) []) (data2 collD))
    (fun t => (t.core 0).ost == [(256, 7), (257, 7), (258, 7), (259, 7)] && t.col.colls.map (·.written) == [1]) = true := by decide +kernel
theorem test_coll_complete : next (exec (.collComplete 5 3) (data2 { collD with written := 1, flags := 2 }))
    (fun t => t.col.colls == [] && t.col.done == 1 && (t.core 0).lineWords 15 16 == [0, 0, 0, 0, 0, 0, 0, 0, 0, 0, 0, 0x48000000, 2, 1, 50, 0] && (t.core 0).flags == 1) = true := by
  decide +kernel
theorem test_coll_deadline : next (exec (.collDeadlineExpiry 5 3) (data2 { coll2 [] with words := 0x60010320 :: collWords.drop 1, counted := 256, flags := 2 }))
    (fun t => t.col.colls == [] && t.col.failed == 1 && (t.core 0).dw 15 11 == 0x50000504 && (t.core 0).dw 15 12 == 2) = true := by decide +kernel

/-! ### Links -/

/-- A device at coordinate 0 of a ring of three along x, whose ports 0 and 1 are in service; port 0 has sent 5 and 6. -/
def data0 (b : Byte) : Flit := ⟨2, 1, 0, 0, 0, 0, List.replicate 256 b⟩
def port0 : Port := { state := .up, nbr := 1, replay := [(5, data0 1), (6, data0 2)], rxSeq := 4095, delta := 16 }
def ring3 : State :=
  { devidValid := true, fab := { coord := 0x20000000, trained := some 0x20000000, cnt := 50, live := true, liveIds := [0, 1, 2],
                                 ports := [(0, port0), (1, { state := .up, nbr := 2, delta := 16 })] } }
/-- Flits for this device, of data and of control, and one for device 2. -/
def forMe : Flit := { data0 3 with dst := 0, cls := 1, chunk := 1 }
def control0 : Flit := { forMe with chunk := 0xFFFFFF }
def for2 : Flit := { data0 3 with dst := 2, src := 1 }

/-- Flits: the expected number at the end of its range, an older one, a bad check value; the first and the second of the flits that wait, and one with no room. -/
theorem test_witness_flits : (ring3.port 0).state = .up ∧ (ring3.port 0).rxSeq = 4095 ∧ (List.replicate 271 (0 : Byte)).length ≠ 272 ∧
    port0.replay = [] ++ (5, data0 1) :: [(6, data0 2)] ∧ port0.replay = [(5, data0 1)] ++ (6, data0 2) :: [] ∧ port0.tries < 16 ∧
    (4095 - 1 - 3583 : BitVec 12).toNat = 511 ∧ (4095 - 1 - 3582 : BitVec 12).toNat = 512 ∧ ring3.devid = 0 ∧ ring3.col.colls = [] := by decide +kernel
/-- The ports on which flits have left. -/
def flitsOn (s : State) : List Nat := s.out.filterMap fun o => match o with | .flit p _ => some p.val | _ => none
theorem test_flit_for_me : next (exec (.flitReceive 0 (forMe.bytes 4095)) ring3) (fun t => t.out == [.sym 0 (.ack 4095)] && (t.port 0).rxSeq == 0) = true := by
  simp only [exec, execFlitReceive, State.flitIn, Laws.readFlit_bytes forMe 4095 List.length_replicate (by decide)]; decide +kernel
theorem test_flit_goes_on :
    next (exec (.flitReceive 0 (for2.bytes 4095)) ring3) (fun t => t.out.head? == some (.sym 0 (.ack 4095)) && flitsOn t == [1] && (t.port 1).replay == [(0, for2)]) = true := by
  simp only [exec, execFlitReceive, State.flitIn, Laws.readFlit_bytes for2 4095 List.length_replicate (by decide)]; decide +kernel
theorem test_flit_again : next (exec (.flitReceive 0 (forMe.bytes 3583)) ring3) (fun t => t.out == [.sym 0 (.ack 3583)] && (t.port 0).rxSeq == 4095) = true := by
  simp only [exec, execFlitReceive, State.flitIn, Laws.readFlit_bytes forMe 3583 List.length_replicate (by decide)]; decide +kernel
theorem test_flit_out_of_turn : next (exec (.flitReceive 0 (control0.bytes 3582)) ring3) (fun t => t == ring3) = true := by
  simp only [exec, execFlitReceive, State.flitIn, Laws.readFlit_bytes control0 3582 List.length_replicate (by decide)]; decide +kernel
theorem test_link_ack : next (exec (.linkAck 0 5 []) ring3) (fun t => (t.port 0).replay == [(6, data0 2)]) = true ∧
    next (exec (.linkAck 0 5 []) (ring3.modPort 0 fun q => { q with backlog := [data0 3], txSeq := 7 }))
      (fun t => (t.port 0).replay == [(6, data0 2), (7, data0 3)] && flitsOn t == [0]) = true ∧
    next (exec (.linkNak 0 (.flit 6) 0) ring3) (fun t => flitsOn t == [0] && (t.port 0).replay == [(6, data0 2)] && (t.port 0).tries == 1) = true := by decide +kernel
theorem test_nak_down : next (exec (.linkNak 0 (.flit 5) 0) (ring3.modPort 0 fun q => { q with tries := 16 }))
    (fun t => (t.port 0).state == .down && t.fab.dead == [⟨0, 0⟩]) = true := by decide +kernel
theorem test_flit_bad : next (exec (.flitReceive 0 (List.replicate 271 0)) ring3) (fun t => t.out == [.sym 0 (.nak (.flit 4095))] && (t.port 0).discarding) = true := by
  decide +kernel
/-- LanesAndLinks: a first event of a lane and one that its counter names permanent; the spare taken; a port in each state. -/
def spared : State := { ring3 with fab := { ring3.fab with ports := [(0, { port0 with spareUsed := true, failedLane := 3 }), (1, { state := .standby }), (2, { state := .down })] } }
def worn : State := { ring3 with err := { history := List.replicate 2 { kind := 5, unit := 3, what := .transient, second := 0 } } }
theorem test_witness_lanes : (ring3.port 0).spareUsed = false ∧ (spared.port 0).spareUsed = true ∧ (spared.port 0).failedLane.toNat ≠ 4 ∧
    (ring3.noteEvent 5 3).2 = false ∧ (worn.noteEvent 5 3).2 = true ∧ (spared.port 1).state = .standby ∧ (spared.port 2).state = .down ∧
    ring3.hasLink ring3.fab.dead ⟨0, 0⟩ = false ∧ ring3.hasLink [⟨1, 1⟩] ⟨0, 0⟩ = true := by decide +kernel
theorem test_lane_fail : next (exec (.laneFail 0 [3] false) ring3)
    (fun t => (t.port 0).spareUsed && (t.port 0).failedLane == 3 && t.err.ring.map (·.cls) == [1] && t.out == [.sym 0 (.lane 3 0)]) = true ∧
    next (exec (.laneFail 0 [3] false) worn) (fun t => (t.port 0).permanent == some 3 && t.err.ring.map (·.cls) == [2]) = true ∧
    next (exec (.laneFail 1 [3] false) spared) (fun t => (t.port 1).spareUsed && (t.port 1).state == .standby) = true := by decide +kernel
theorem test_symbol_timeout : next (exec (.controlSymbolTimeout 1) spared) (fun t => (t.port 1).state == .down && (t.port 1).downs == 1 && t.fab.dead == [⟨0, 1⟩]) = true ∧
    next (exec (.controlSymbolTimeout 0) ring3) (fun t => (t.port 0).state == .down && t.fab.dead == [⟨0, 0⟩]) = true := by decide +kernel

/-- TrainingAndMaps: a device that trains, whose neighbours are those of its coordinate on both ports and on one; a link that was lost before; a map that
brings something new. -/
def trains : State :=
  { devidValid := true, fab := { coord := 0x20000000, trained := some 0x20000000, retraining := true }, sec := { stage := 6 } }
def again : State := { trains with fab := { trains.fab with liveIds := [0, 1], dead := [⟨0, 0⟩] } }
def trained1 : List TrainResult := [.linked 0x200 0x100 6000, .noLink, .noLink, .noLink, .noLink, .noLink]
theorem test_witness_training : trains.fab.retraining = true ∧ ring3.fab.retraining = false ∧ trained1.length = 6 ∧
    (0x200 : BitVec 12) = shapeNibbles (trains.fab.trained.getD 0) ∧ (0x100 : BitVec 12) = coordNibbles 1 ∧ (6000 : BitVec 16).toNat ≤ 6000 ∧
    trains.nbrOf 0 0 = some 1 ∧ trains.nbrOf 0 1 = some 2 ∧ trains.nbrOf 0 2 = none ∧ trains.wasLost 0 1 = false ∧ again.wasLost 0 1 = true := by decide +kernel
theorem test_training : next (exec (.fabricTrainingComplete trained1) trains)
    (fun t => t.devid == 0 && t.devidValid && t.sec.fabricDone && [0, 1, 2].map (fun p => (t.port p).state) == [.up, .down, .unused]) = true ∧
    next (exec (.fabricTrainingComplete trained1) again) (fun t => (t.port 0).state == .standby) = true := by decide +kernel
/-- A device whose neighbour answers with another coordinate carries nothing on that port. -/
theorem test_wiring : next (exec (.fabricTrainingComplete [.linked 0x200 0x200 1, .noLink, .noLink, .noLink, .noLink, .noLink]) trains)
    (fun t => (t.port 0).state == .wiring && (t.port 0).nbr == 2 && t.err.ring.map (fun r => (r.code, r.cause)) == [(0x0508, 1)] && !t.fab.live) = true := by decide +kernel
/-- Training begins: an axis longer than 2, one of length 2 seen from both its ends, and a coordinate outside its shape. -/
theorem test_training_begins : next (exec (.fabCtlRetrain .queue 0) { trains with sec := { stage := 7 }, fab := { coord := 0x21000010 } })
    (fun t => t.fab.retraining && t.devid == 16 && (List.range 6).map (fun p => (t.port (Fin.ofNat 6 p)).state) == [.training, .training, .unused, .training, .unused, .unused]) = true ∧
    next (exec (.fabCtlRetrain .queue 0) { trains with sec := { stage := 7 }, fab := { coord := 0x10000200 } })
      (fun t => !t.devidValid && (List.range 6).map (fun p => (t.port (Fin.ofNat 6 p)).state) == [.down, .down, .unused, .unused, .unused, .unused]) = true := by decide +kernel
theorem test_witness_maps : (([3] : List (BitVec 12)).filter fun i => !ring3.fab.liveIds.contains i) ≠ [] ∧ (([2] : List (BitVec 12)).filter fun i => !ring3.fab.liveIds.contains i) = [] ∧
    ring3.portToward 1 = some 0 ∧ ring3.devid = 0 ∧ ring3.fab.mgmt = [] ∧ ring3.linkPorts.contains 0 = true ∧ ring3.linkPorts.contains 2 = false ∧
    ring3.ownPorts ⟨1, 0⟩ = [] ∧ ring3.ownPorts ⟨1, 1⟩ = [0] := by decide +kernel
theorem test_mgmt : next (exec (.mgmt 1 2 1 0 0 [1]) ring3) (fun t => t.out == [.sym 0 (.mgmt 2 1 0 0 [1])]) = true ∧
    next (exec (.mgmt 1 2 0 0 1 [1]) ring3) (fun t => t.fab.mgmt == [(2, 0, [1])] && t.out == []) = true := by decide +kernel
theorem test_map_grows : next (exec (.link 0 (.live [3] [⟨1, 0⟩] [])) ring3)
    (fun t => t.fab.liveIds == [0, 1, 2, 3] && t.fab.dead == [⟨1, 0⟩] && t.out.contains (.sym 1 (.link (.live [0, 1, 2, 3] [⟨1, 0⟩] [])))) = true := by decide +kernel

/-! ### The beat -/

/-- The leader of the ring of three, with nothing announced; a device that the leader 1 leads. -/
def leads : State := { ring3 with fab := { ring3.fab with isLeader := true, aLead := 10 } }
def follows : State := { ring3 with fab := { ring3.fab with leader := 1 } }
def ann (k : Dword) : Announced := { k := k, remaining := 0, loss := [], handover := none }

/-- Announcements: a boundary that is new, one that has passed and one announced; a countdown as long as the link and the retransmission; a HOLD
that reaches the leader and none; a port that carries nothing. -/
def heldLeader : State := { leads with fab := { leads.fab with holding := true, lastStretch := some (0, 1) } }
theorem test_witness_announcements : (50 : Dword) ≤ ring3.fab.cnt ∧ ring3.fab.cnt < 51 ∧ ring3.fab.announced = [] ∧ (ring3.port 0).delta.toNat + 384 = 400 ∧
    (leads.fab.isLeader && leads.fab.live) = true ∧ leads.lowestHolder = none ∧ (ring3.fab.isLeader && ring3.fab.live) = false ∧
    heldLeader.lowestHolder = some 0 ∧ heldLeader.fab.lastStretch = some (0, 1) ∧ leads.fab.lastStretch ≠ some (0, 1) ∧ ring3.portUp 1 = true ∧
    ring3.portUp 2 = false ∧ [ann 51].getLast? = some (ann 51) := by decide +kernel
theorem test_beat_passes_on : next (exec (.beat 1 (some { k := 51, remaining := 400 })) follows)
      (fun t => t.fab.announced.map (fun a => (a.k, a.remaining)) == [(51, 0)] && t.out == []) = true ∧
    next (exec (.beat 1 (some { k := 51, remaining := 401 })) { ring3 with fab := { ring3.fab with leader := 2 } })
      (fun t => t.fab.announced.map (fun a => (a.k, a.remaining)) == [(51, 1)]) = true ∧
    next (exec (.beat 1 none) follows) (fun t => t.out == [.sym 1 (.nak .beat)]) = true ∧
    next (exec (.linkNak 0 .beat 9) { follows with fab := { follows.fab with announced := [ann 51] } })
      (fun t => t.out == List.replicate 2 (.sym 0 (.beat { k := 51, remaining := 9 }))) = true := by decide +kernel
theorem test_announce : next (exec (.beatAnnounce 0) leads) (fun t => t.fab.announced.map (fun a => (a.k, a.remaining)) == [(51, 2400)] &&
    t.out == [0, 1, 0, 1].map fun p => .sym p (.beat { k := 51, remaining := 2400 })) = true := by decide +kernel
theorem test_stretch_send : next (exec (.stretchSend 7) heldLeader) (fun t => t.out.length == 4 && t.out.head? == some (.sym 0 (.stretch 51 0 7))) = true ∧
    next (exec (.stretchSend 7) leads) (fun t => t.out == []) = true := by decide +kernel

/-- Holding: no core owes an obligation; core 9 owes the present beat; a boundary that no launch awaits passes, and one held does not. -/
def owes : State := { follows with launches := [run1], cores := [(9, { obligation := some 34 })], fab := { follows.fab with announced := [ann 51] } }
def comes : State := { follows with fab := { follows.fab with announced := [ann 51, ann 52] } }
def checked : State := { owes with fab := { owes.fab with checkedTo := 51, holding := true, heldSets := [(51, 2)] } }
theorem test_witness_holding : follows.lowestHolder = none ∧ follows.fab.isLeader = false ∧ follows.holders = [] ∧ owes.holders = [9] ∧
    owes.lowestHolder = none ∧ owes.treeParent = some 0 ∧ ({ follows with fab := { follows.fab with checkedTo := 51 } } : State).asserted = [] ∧
    ({ owes with fab := { owes.fab with checkedTo := 51 } } : State).asserted = [(9, 51)] ∧ checked.lowestHolder = some 0 ∧
    (follows.modPort 1 fun q => { q with childHold := some 2 }).lowestHolder = some 2 ∧ (follows.modPort 1 fun q => { q with childHold := some 2 }).treeParent = some 0 := by
  decide +kernel
theorem test_witness_boundary : comes.fab.announced = ann 51 :: [ann 52] ∧ (∀ x ∈ comes.fab.announced, x.due = false) ∧
    comes.resident = none ∧ comes.heldObls = [] ∧ (∀ x ∈ owes.fab.announced, x.due = false) ∧ owes.resident = some run1 ∧
    (ann 51).handover = none ∧ (ann 51).loss = [] ∧ owes.holders ≠ [] ∧ owes.fab.cnt < (ann 51).k := by decide +kernel
theorem test_check_point : next (exec .checkPoint owes) (fun t => t.fab.holding && t.fab.heldSets == [(51, 2)] && t.out == [.sym 0 (.hold true 0)]) = true := by decide +kernel
theorem test_boundary : next (exec (.beatBoundary 0 3) comes) (fun t => t.fab.cnt == 51 && t.fab.announced == [ann 52] && t.fab.holdTime == 3) = true ∧
    next (exec (.beatBoundary 0 3) owes) (fun t => t.fab.cnt == 50 && t.fab.announced == [{ ann 51 with due := true }] && t.fab.holding) = true := by decide +kernel
theorem test_witness_limit : checked.residentHolds = [(9, 51)] ∧ checked.resident = some run1 ∧ checked.portUp 0 = true ∧ owes.fab.holding = false ∧
    ({ checked with fab := { checked.fab with isLeader := true } } : State).nextK = 52 ∧
    ({ checked with fab := { checked.fab with isLeader := true, announced := [] } } : State).nextK = 51 ∧ checked.fab.holdLimit = 0 := by decide +kernel
theorem test_limit_stops : next (exec (.limit 0 51) checked) (fun t => t.launches == [] && t.err.ring.map (·.code) == [0x0502]) = true ∧
    next (exec (.limit 0 52) checked) (fun t => t.launches == [run1]) = true ∧ next (exec (.limit 0 51) owes) (fun t => t.launches == [run1]) = true := by decide +kernel
theorem test_hold_limit :
    next (exec (.holdLimitExpiry 6553600) { checked with fab := { checked.fab with isLeader := true, announced := [] } }) (fun t => t.launches == []) = true ∧
    next (exec (.holdLimitExpiry 6553599) { checked with fab := { checked.fab with isLeader := true, announced := [] } }) (fun t => t.launches == [run1]) = true := by
  decide +kernel

/-- Leaders: no election, and one in which device 0 is the lowest; ids and boundaries on either side. -/
def elects : State := { ring3 with fab := { ring3.fab with election := some (1, 60) } }
theorem test_witness_leaders : ring3.fab.live = true ∧ ring3.fab.election = none ∧ elects.fab.election = some (1, 60) ∧ (1 : BitVec 12) ≤ 1 ∧ (0 : BitVec 12) < 1 ∧
    ({ leads with devid := 2 } : State).fab.liveIds.contains 1 = true ∧ (1 : BitVec 12) < 2 ∧ elects.portUp 0 = true ∧ elects.portUp 2 = false := by decide +kernel
theorem test_elect : next (exec (.elect 0 0 61) elects) (fun t => t.fab.election == some (0, 61) && t.out == [.sym 0 (.elect 0 61), .sym 1 (.elect 0 61)]) = true ∧
    next (exec (.elect 0 1 60) elects) (fun t => t == elects) = true ∧
    next (exec .electionEnd { elects with devid := 1 }) (fun t => t.fab.isLeader && t.fab.leader == 1 && t.fab.election == none) = true := by decide +kernel
theorem test_handover : next (exec (.leaderHandover 1) { leads with devid := 2 }) (fun t => t.fab.handoverNext == some 1) = true := by decide +kernel

/-! ### Power -/

/-- PowerControl: a sample over the limit and a set above point 0, and with every set there; 1 ms of pacing and just less. -/
def loud : PowerSample := ⟨[300, 300, 300, 300, 300, 300, 300, 300], 100, [], [], [0, 0, 0, 0, 0, 0, 0, 0], []⟩
def raised : State := { pwr := { offsetFused := false, sets := [(3, { point := 7 })] } }
theorem test_witness_power : (loud.raw.foldl (· + ·) 0 + loud.fixed = 2500) ∧ (((raised.pwr.calibrate 2500) :: raised.pwr.lastTen).take 10).foldl (· + ·) 0 > raised.pwr.limit * 1 ∧
    (raised.pset 3).point ≠ 0 ∧ (∀ j, j < 8 → (State.reset.pset j).point = 0) ∧ ({ paceTicks := 100, lastFloor := none } : Pwr).paceTicks = 100 := by decide +kernel
theorem test_power_tick : next (exec (.powerTick loud) raised) (fun t => (t.pset 3).lowerDue && t.pwr.pace == 16 && t.pwr.estRaw == 2500) = true ∧
    next (exec (.powerTick loud) { pwr := { offsetFused := false } }) (fun t => t.pwr.pace == 15) = true := by decide +kernel
theorem test_cap_floor : next (exec .capFloor { pwr := { paceTicks := 100 } }) (fun t => t.err.ring.length == 1 && t.pwr.lastFloor == some 0) = true ∧
    next (exec .capFloor { pwr := { paceTicks := 99 } }) (fun t => t.err.ring == []) = true := by decide +kernel
/-- A ceiling at each bound of its rules; trips at each of theirs. -/
theorem test_ceiling : next (exec (.thermalCeilingStep true [100, 99, 97, 96, 0, 0, 0, 0] [86, 0, 0, 0]) { pwr := { sets := (List.range 8).map fun c => (c, { ceiling := 5 }) } })
    (fun t => (List.range 5).map (fun c => (t.pset c).ceiling) == [4, 5, 5, 6, 6]) = true ∧
    next (exec (.thermalCeilingStep true [0, 0, 0, 0, 0, 0, 0, 0] [90, 0, 0, 0]) {}) (fun t => (t.pset 0).ceiling == 6) = true := by decide +kernel
theorem test_trips : next (exec (.thermalTrip (.set 2) 105) {}) (fun t => (t.pset 2).tripped && t.err.ring.length == 1) = true ∧
    next (exec (.thermalTrip (.set 2) 104) {}) (fun t => !(t.pset 2).tripped) = true ∧
    next (exec (.thermalTripRelease (.set 2) 95) { pwr := { sets := [(2, { tripped := true, point := 3 })] } }) (fun t => !(t.pset 2).tripped && (t.pset 2).point == 0) = true ∧
    next (exec (.thermalTripRelease (.set 2) 96) { pwr := { sets := [(2, { tripped := true, point := 3 })] } }) (fun t => (t.pset 2).tripped) = true ∧
    next (exec (.thermalTrip (.hbm 3) 95) {}) (fun t => t.pwr.hbmTrip) = true ∧
    next (exec (.thermalTripRelease (.hbm 3) 88) { pwr := { hbmTrip := true } }) (fun t => !t.pwr.hbmTrip) = true := by decide +kernel
theorem test_window : next (exec (.measurementWindow (some (48000, 1633))) {}) (fun t => t.pwr.pin == 1633 && (t.pset 7).lowerDue) = true ∧
    next (exec (.measurementWindow (some (48000, 1632))) {}) (fun t => t.pwr.pin == 1632 && !(t.pset 7).lowerDue) = true := by decide +kernel
theorem test_droop : next (exec (.droopDetect 7) {}) (fun t => (t.pset 7).drooping && (t.pset 7).droop == 1) = true := by decide +kernel

/-- GroupBudgets: a budget of exactly 600 W for each; a coordinator alone with its report; a device in no group. -/
def coords : State := { devidValid := true, pwr := { grpEn := true, budget := 600, reports := [(0, ⟨0, 500, 600, 1⟩)] }, fab := { trained := some 0 } }
theorem test_witness_group : 600 * ([⟨0, 0, 0, 600⟩] : List Member).length ≤ 600 ∧ coords.coordinates = true ∧ State.reset.coordinates = false ∧ coords.pwr.lastBudget = none ∧
    coords.pwr.reports = [(coords.devid.toNat, ⟨0, 500, 600, 1⟩)] ∧ 600 ≤ coords.pwr.budget.toNat := by decide +kernel
/-- A member whose coordinator is device 1: its report leaves in MGMT symbols on port 0. -/
def member0 : State := { ring3 with pwr := { grpEn := true, coord := 1 } }
theorem test_witness_report : member0.pwr.coord ≠ member0.devid ∧ member0.portToward member0.pwr.coord.toNat = some 0 ∧ coords.pwr.coord = coords.devid ∧
    (∀ e ∈ coords.pwr.reports, e.1 < 4096) ∧ coords.pwr.dueAgain (some 0) = false := by decide +kernel
theorem test_group_report : next (exec .groupReport ring3) (fun t => t == ring3) = true := by decide +kernel
/-- A member that is silent keeps its share: of 2,000 W, 1,600 W kept, the other gets 400 W and no more. -/
theorem test_kept_share : (allocate (2000 - 1600) [⟨1, 0, 975, 1600⟩]).1 = [(1, 400)] := by decide +kernel
theorem test_group_allocate : next (exec .groupAllocate coords) (fun t => t.pwr.nextAlloc == some 600 && t.pwr.reports == []) = true := by decide +kernel
theorem test_allocate_shares : (allocate 1300 [⟨0, 0, 500, 1600⟩, ⟨1, 0, 500, 1600⟩]).1.map (·.1) = [0, 1] ∧
    ((allocate 1300 [⟨0, 0, 500, 1600⟩, ⟨1, 0, 500, 1600⟩]).1.map (·.2)).sum ≤ 1300 := by decide +kernel
theorem test_fallback : next (exec .allocationFallback coords) (fun t => t.pwr.fallback && t.err.ring.length == 1) = true ∧
    next (exec (.allocationReceive 700) coords) (fun t => t.pwr.nextAlloc == some 700) = true := by decide +kernel

/-- InputStage: the switch closed, opened, opened and latched, and charging. -/
theorem test_witness_input : State.reset.pwr.switch = .closed ∧ ({ switch := .opened } : Pwr).latched = false ∧ ({ switch := .charging } : Pwr).switch ≠ .opened := by decide +kernel
theorem test_overcurrent : next (exec .inputOvercurrent { (runs tokens) with sec := { svn := 4 } })
    (fun t => t.pwr.switch == .opened && t.pwr.latched && t.pwr.opening == .overcurrent && t.cores == [] && t.launches == [] && !t.sec.powered && t.sec.svn == 4) = true ∧
    next (exec .inputUndervoltage {}) (fun t => !t.pwr.latched && !t.pwr.present) = true := by decide +kernel
theorem test_charge : next (exec .inputCharge { pwr := { switch := .opened } }) (fun t => t.pwr.switch == .charging && t.pwr.present) = true ∧
    next (exec .inputCharge { pwr := { switch := .opened, latched := true } }) (fun t => t.pwr.switch == .opened) = true ∧
    next (exec .inputChargeComplete { pwr := { switch := .charging }, sec := { powered := false } }) (fun t => t.pwr.switch == .closed && t.sec.powered) = true ∧
    next (exec .inputAbsentRelease { pwr := { switch := .opened, latched := true } }) (fun t => !t.pwr.latched && !t.pwr.present) = true := by decide +kernel

/-! ### The host port -/

/-- The module is ready; queue 1 is privileged, queue 2 is not, and both are of endpoint 3, with room for messages up to psn 15. -/
def ready : State :=
  { sec := { stage := 7, hostUp := true, historyLoaded := true, dynAddr := 8, meas := [] }
    qce := { ipv4En := true, ipv4 := 1, endpoints := [(3, { valid := true, port := 700, addr := 5 })],
             queues := [(1, { valid := true, priv := true, endpoint := 3, devCred := 15 }), (2, { valid := true, endpoint := 3, devCred := 15 })] } }
/-- A header of queue q with this psn and a message of n bytes, from its endpoint to the device. -/
def hdr (q : BitVec 12) (psn : Word) (n : BitVec 16 := 8) : Hdr :=
  { qid := q, version := 1, res0 := 0, res5 := 0, res7 := 0, length := n, psn := psn, ackPsn := 0xFFFFFFFF, sack := 0, credLimit := 100, cookie := 9,
    srcIpv6 := false, srcAddr := 5, srcPort := 700, dstAddr := 1, dstPort := ready.qce.port }
/-- A packet sent and not acknowledged. -/
def sent1 (tries : Nat) : TxPkt := { psn := 0, msg := { words := [0], data := [], answers := true }, tries := tries, since := 0 }
def sends (tries : Nat) : State := { ready with qce := { ready.qce with queues := [(1, { valid := true, priv := true, endpoint := 3, devCred := 15, sent := [sent1 tries] })] } }
/-- A queue that owes an acknowledgement, and addresses of both kinds. -/
def owing : State := { ready with qce := { ready.qce with ipv4En := true, ipv4 := 5, ipv6En := true, queues := [(1, { valid := true, needAck := true })] } }

theorem test_witness_addressed : ready.addressed (hdr 1 0) = true ∧ ready.addressed { hdr 1 0 with dstAddr := 2 } = false ∧ ready.addressed { hdr 1 0 with srcIpv6 := true } = false ∧
    ready.addressed { hdr 1 0 with dstPort := 9 } = false ∧ ready.heldQueues = [] ∧ (sends 0).heldQueues = [] := by decide +kernel
theorem test_witness_transport : ready.takes (hdr 1 0) = true ∧ ready.takes { hdr 1 0 with version := 2 } = false ∧ State.reset.hostReady = false ∧
    ready.hostReady = true ∧ (ready.queue 1).sent = [] ∧ (ready.queue 1).txWait = [] ∧ ((hdr 1 255).psn - (ready.queue 1).rxPsn).toNat = 255 ∧
    ((hdr 1 256).psn - (ready.queue 1).rxPsn).toNat = 256 ∧ 2 ^ 31 ≤ ((hdr 1 0xFFFFFFFF).psn - (ready.queue 1).rxPsn).toNat ∧
    ((hdr 1 15).psn - (ready.queue 1).devCred).toInt ≤ 0 := by decide +kernel
theorem test_witness_transport2 : (sends 0).takes (hdr 1 0) = true ∧ ((sends 0).queue 1).sent = [sent1 0] ∧ (sent1 0).psn = ({ hdr 1 0 with ackPsn := 0 } : Hdr).ackPsn ∧
    (sent1 0).msg.record = none ∧ (((sends 15).queue 1).sent.find? fun p => p.psn == 0) = some (sent1 15) ∧ (owing.queue 1).needAck = true ∧ (ready.queue 1).needAck = false ∧
    (owing.sec.powered = true ∧ owing.sec.hostUp = true) ∧ owing.qce.ipv4En = true ∧ (5 : BitVec 32) = owing.qce.ipv4 ∧ owing.qce.ipv6En = true ∧
    (1 : BitVec 128) ≠ owing.ipv6Addr := by decide +kernel
theorem test_drop : next (exec (.ack { hdr 1 0 with version := 2 }) ready) (fun t => t.qce.dropSource == 1 && t.qce.cached == []) = true ∧
    next (exec (.ack { hdr 1 0 with dstPort := 9 }) ready) (fun t => t.qce.dropOther == 1 && t.qce.cached == []) = true ∧
    next (exec (.ack { hdr 1 0 with ackPsn := 0 }) (sends 0)) (fun t => (t.queue 1).sent == [] && (t.queue 1).freed == 1 && (t.queue 1).hostCred == 100) = true := by decide +kernel
theorem test_ahead : next (exec (.regRead (hdr 1 15) [0, 1]) ready) (fun t => (t.queue 1).rxAhead.length == 1 && (t.queue 1).rxPsn == 0 && t.out.length == 1) = true ∧
    next (exec (.regRead (hdr 1 256) [0, 1]) ready) (fun t => (t.queue 1).rxAhead == [] && t.out == []) = true ∧
    next (exec (.regRead (hdr 1 0xFFFFFFFF) [0, 1]) ready) (fun t => (t.queue 1).rxAhead == [] && (t.queue 1).needAck) = true := by decide +kernel
theorem test_retry : next (exec (.cqtRetryTimeout 1 0) (sends 15)) (fun t => (t.queue 1).sent.map (·.tries) == [16] && t.out.length == 1) = true ∧
    next (exec (.cqtRetryTimeout 1 0) (sends 16)) (fun t => (t.queue 1).sent == [] && (t.queue 1).err && t.out == []) = true ∧
    next (exec (.cqtAckTimer 1) owing) (fun t => !(t.queue 1).needAck && t.out.length == 1) = true := by decide +kernel
theorem test_addresses : next (exec (.arpRequest 5 9 1) owing) (fun t => t.out == [.arp 5 1]) = true ∧ next (exec (.arpRequest 6 9 1) owing) (fun t => t.out == []) = true ∧
    next (exec (.neighborSolicitation owing.ipv6Addr 9 1) owing) (fun t => t.out.length == 1) = true ∧
    next (exec (.unsupportedPacket .badFcs) owing) (fun t => t.qce.dropFcs == 1) = true ∧ next (exec (.unsupportedPacket .tagged) owing) (fun t => t == owing) = true := by decide +kernel

/-- HostCommands, HostMessages: a message that comes alone on either queue; an answer after which nothing goes on. -/
theorem test_witness_awaits : ready.awaits (hdr 1 0 4) 4 ∧ ready.awaits (hdr 2 0 16) 16 ∧ ready.awaits (hdr 1 0 60) (4 + 4 * 14) := by
  unfold State.awaits; decide +kernel
theorem test_witness_heldCode : (0 : Code) ≠ heldCode ∧ eCqtMsg ≠ heldCode ∧ ePriv ≠ heldCode ∧ eHbmDetect ≠ heldCode ∧ eXltFault ≠ heldCode := by decide +kernel
theorem test_witness_still : ready.still ((ready.taken (hdr 1 0)).complete 1 9 { cmd := 3, type := 1, code := 0, result := [], data := [] }) := by
  unfold State.still
  refine ⟨by decide +kernel, by decide +kernel, ((ready.taken (hdr 1 0)).complete 1 9 { cmd := 3, type := 1, code := 0, result := [], data := [] }).out,
    by decide +kernel, by decide +kernel⟩
theorem test_fence : next (exec (.fence (hdr 1 0 4) []) ready) (fun t => (t.queue 1).sent.length == 1 && (t.queue 1).rxPsn == 1 && (t.queue 1).cur == none) = true := by decide +kernel
theorem test_submit_reserved : submitWords 0 ≠ some ([] : List Word).length ∧ submitWords 3 = some ([] : List Word).length ∧ wbits (0x03000001 : Word) 0 24 ≠ 0 := by decide +kernel
/-- A launch whose image is missing is refused; one that its checks pass stays in progress, with all that it let begin. -/
def launchBody : List Word := [1, 5, 0, 0, 0, 0, 0, 0, 0, 0, 0, 0, 0, 0]
def able : State := { ready with images := (prepared run1).images, scheds := [sched1] }
theorem test_witness_launch : ((ready.taken (hdr 1 0)).launchRefusal (parseLaunch launchBody)).isSome = true ∧ able.awaits (hdr 1 0 60) (4 + 4 * launchBody.length) ∧ launchBody.length = 14 ∧
    (able.taken (hdr 1 0)).launchRefusal (parseLaunch launchBody) = none ∧
    (let v := (able.taken (hdr 1 0)).modQueue 1 fun q =>
       { q with cur := some ({ psn := 0, cookie := 9, overrun := false, formed := true, msg := .submit 0x02000000 launchBody ⟨false, false⟩ }, .launchWait launchBody) }
     v.nextQueue = none ∧ v.goesOnOnce.nextQueue = none) := by unfold State.awaits; decide +kernel
/-- A SUBMIT: a FENCE, a launch, and a reserved command. -/
theorem test_submit : next (exec (.submit (hdr 1 0 4) 0x03000000 [] ⟨false, false⟩) ready) (fun t => (t.queue 1).sent.map (fun x => x.msg.words.take 2) == [[0x03010000, 9]]) = true ∧
    next (exec (.submit (hdr 1 0 60) 0x02000000 launchBody ⟨false, false⟩) able) (fun t => ((t.queue 1).cur.map (·.2)) == some (.launchWait launchBody)) = true ∧
    next (exec (.submit (hdr 1 0 4) 0x03000001 [] ⟨false, false⟩) ready) (fun t => (t.queue 1).sent.map (fun x => x.msg.words.take 2) == [[0x03010603, 9]]) = true := by decide +kernel
theorem test_launch : next (exec (.launch (hdr 1 0 60) launchBody) able) (fun t => t.out == [] && ((t.queue 1).cur.map (·.2)) == some (.launchWait launchBody)) = true := by
  decide +kernel

/-- LaunchAccepted: a queue in the error state, a refused launch, four launches in progress, and room for one. -/
def accepts (e : Bool) (ls : List Launch) (b : List Word) : State :=
  let m : RxMsg := { psn := 0, cookie := 9, overrun := false, formed := true, msg := .submit 0x02000000 b ⟨false, false⟩ }
  let q : Queue := { valid := true, priv := true, endpoint := 3, devCred := 15, err := e, cur := some (m, .launchWait b) }
  { able with launches := ls, qce := { able.qce with queues := [(1, q)] } }
theorem test_witness_accept : ((accepts false [] launchBody).queue 1).err = false ∧ ((accepts true [] launchBody).queue 1).err = true ∧
    (accepts false [] launchBody).launchRefusal (parseLaunch launchBody) = none ∧ ((accepts false [] (0 :: launchBody.drop 1)).launchRefusal (parseLaunch (0 :: launchBody.drop 1))).isSome = true ∧
    4 ≤ (accepts false (List.replicate 4 saved) launchBody).launches.length ∧ ¬4 ≤ (accepts false (List.replicate 3 saved) launchBody).launches.length ∧
    (((accepts false [] launchBody).acceptMemory 0 (parseLaunch launchBody)).2.toOption) = some [] ∧
    (((accepts false [] (launchBody.set 3 1)).acceptMemory 0 (parseLaunch (launchBody.set 3 1))).2.toOption) = none := by decide +kernel
theorem test_accept : next (exec (.launchAccept 1) (accepts false [] launchBody))
    (fun t => t.launches.map (fun l => (l.cookie, l.jobTag, l.cond)) == [(9, 5, .pending)] && (t.queue 1).qstate == 1) = true ∧
    next (exec (.launchAccept 1) (accepts false (List.replicate 4 saved) launchBody)) (fun t => t.launches.length == 4) = true := by decide +kernel

/-- HostMessages: a burst that is whole, the last byte of the stacks and the byte past it; lost data; queue 2 is not privileged. -/
theorem test_witness_memory : (ready.queue 1).priv = true ∧ (ready.queue 2).priv = false ∧ 95999999999 + 1 ≤ 96000000000 ∧ 96000000000 < 96000000000 + 1 ∧
    ((ready.taken (hdr 1 0)).hbm.poisonIn 64 32 = none) ∧ (({ code := [(2, 0xFFFF)] } : Hbm).poisonIn 64 32).isSome = true ∧
    (∀ i, i < 32 → ready.inHeaders (64 + i) = false) ∧ 64 % 32 + 32 ≤ 32 ∧ 0x03FFFFFC % 4 = 0 ∧ 0x03FFFFFC < 0x04000000 := by decide +kernel
theorem test_write_mem : next (exec (.writeMem (hdr 1 0 18) [64, 0, 2, 1] [7, 8]) ready) (fun t => t.hbm.mem == [(64, 7), (65, 8)] && (t.queue 1).sent.length == 1) = true ∧
    next (exec (.writeMem (hdr 2 0 18) [64, 0, 2, 1] [7, 8]) ready) (fun t => t.hbm.mem == [] && (t.queue 2).sent.length == 1) = true := by decide +kernel
theorem test_reg_write : next (exec (.regWrite (hdr 1 0) [0x00000014, 7]) ready) (fun t => (t.queue 1).sent.length == 1) = true := by decide +kernel

/-- QueuePairs: a queue pair of no subscriber; a subscriber with packets outstanding at the wrap of the psn, at its last try and before it, waiting for
room and not; a close with a page outstanding and with none. -/
def pairs (tries rnr : Nat) (wait : Option Nat) : State :=
  { exp := { seqs := [(9, { closing := some 1, subs := [(3, { isOpen := true, opened := true, lqpn := 7, psn := 1, una := 0xFFFFFF, window := 2, tries := tries,
                                                              rnrTries := rnr, rnrWait := wait, rate := 65535, queue := [{ handed with psn := some 0xFFFFFF }] })] })] },
    qce := { queues := [(1, { valid := true, cur := some ({ psn := 0, cookie := 9, overrun := false, formed := true, msg := .bad 0 }, .closing 9) })] } }
theorem test_witness_pairs : (pairs 6 6 none).subOf 8 = none ∧ (pairs 6 6 none).subOf 7 = some (9, 3) ∧
    (let b := (pairs 6 6 none).sub 9 3
     b.una ≠ b.psn ∧ psnLe b.una 0 = true ∧ psnLe 0 (b.psn - 1) = true ∧ psnLe b.una 0xFFFFFE = false ∧ b.tries < 7 ∧ b.rnrTries < 7 ∧ b.rnrWait = none) ∧
    7 ≤ ((pairs 7 7 none).sub 9 3).tries ∧ 7 ≤ ((pairs 7 7 none).sub 9 3).rnrTries ∧ ((pairs 0 0 (some 5)).sub 9 3).rnrWait ≠ none := by decide +kernel
theorem test_witness_close : ((pairs 0 0 none).expSeq 9).closing = some 1 ∧ (((pairs 0 0 none).expSeq 9).openSubs.any fun u => !((pairs 0 0 none).sub 9 u).queue.isEmpty) = true ∧
    (({ pairs 0 0 none with exp := { seqs := [(9, { closing := some 1 })] } } : State).expSeq 9).openSubs = [] ∧
    ((pairs 0 0 none).queue 1).cur.isSome = true := by decide +kernel
theorem test_roce_ack : next (exec (.roceAck 7 0) (pairs 6 6 none)) (fun t => (t.sub 9 3).una == 1 && (t.sub 9 3).tries == 0) = true ∧
    next (exec (.roceAck 7 0xFFFFFE) (pairs 6 6 none)) (fun t => t == pairs 6 6 none) = true := by decide +kernel
theorem test_roce_drop : next (exec (.roceNakRemoteError 7) (pairs 6 6 none)) (fun t => !(t.sub 9 3).isOpen && (t.sub 9 3).cause == 3) = true ∧
    next (exec (.roceRetryTimeout 7) (pairs 7 0 none)) (fun t => (t.sub 9 3).cause == 2) = true := by decide +kernel
theorem test_rate : next (exec (.cnp 7) (pairs 0 0 none)) (fun t => (t.sub 9 3).rate == 32767) = true ∧
    next (exec (.rateIncrease 7) (pairs 0 0 none)) (fun t => (t.sub 9 3).rate == 65536) = true := by decide +kernel
theorem test_rnr : next (exec (.roceNakRnr 7 0xFFFFFF 5) (pairs 6 6 none)) (fun t => (t.sub 9 3).rnrWait == some 5 && (t.sub 9 3).rnrTries == 7) = true ∧
    next (exec (.rnrTimerExpiry 7) (pairs 0 0 (some 5))) (fun t => (t.sub 9 3).rnrWait == none) = true := by decide +kernel

/-! ### Registers -/

/-- A ready module whose pool 0 is enabled, initialised and whole, and whose context 0 runs; queue path selections are 0. -/
def pool0 : Pool := { en := true, count := 2, free := 2, frames := 16, hdr := 0x4000, stack := 0x5000, recl := 0x6000 }
def poolState (p : Pool) : State := { ready with xlt := { pools := [(0, p)] } }
def busyCtx : State := { ready with launches := [run1] }

/-- TranslationRegisters, contexts: a context that runs and one that does not, gran 4 and 5, lshift 0, 20, 21, 40, 41, a range that meets another. -/
theorem test_witness_ctx : busyCtx.ctxBusy busyCtx.pathQ.ctx = true ∧ ready.ctxBusy ready.pathQ.ctx = false ∧ ((0xA0000000 : Word).extractLsb' 27 4).toNat = 4 ∧
    ((0xA8000000 : Word).extractLsb' 27 4).toNat > 4 ∧ (∀ j, j < 8 → (({ valid := true, gran := 4 } : Region).meets ((ready.ctxOf 0).region j)) = false) ∧
    ((21 : Word).extractLsb' 0 6).toNat = 21 ∧ ((40 : Word).extractLsb' 0 6).toNat = 40 ∧ ready.xlt.invBusy = false ∧ (0x40000000 : Word).getLsbD 30 = true := by
  decide +kernel
theorem test_ctx : next (exec (.xltCtxKvbaseWrite .queue 0xA0000001) ready) (fun t => ((t.ctxOf 0).region 0).base == 1 && ((t.ctxOf 0).region 0).gran == 4) = true ∧
    next (exec (.xltCtxKvbaseWrite .queue 0xA8000001) ready) (fun t => t.pathQ.ctxErr && t.xlt == ready.xlt) = true ∧
    next (exec (.xltCtxRootWrite .queue 0x80000001) busyCtx) (fun t => t.pathQ.ctxErr && t.xlt == busyCtx.xlt) = true ∧
    next (exec (.xltCtxKvlshWrite .queue 40) ready) (fun t => ((t.ctxOf 0).region 0).lshift == 40) = true := by decide +kernel
theorem test_inv : next (exec .xltInvComplete { xlt := { invBusy := true, invScope := 1, invCtx := 3, sharedTlb := [⟨3, 0, 12, 0, true⟩, ⟨4, 0, 12, 0, true⟩] } })
    (fun t => !t.xlt.invBusy && t.xlt.sharedTlb.map (·.ctx) == [4]) = true := by decide +kernel

/-- TranslationRegisters, pools: disabled with a layout that fits and with none, enabled and whole, enabled and in use, being initialised. -/
theorem test_witness_pools : (({} : Pool).en = false ∧ (poolState { pool0 with en := false }).poolOk 0 { pool0 with en := false, heads := 0, dim := 0 } = true) ∧
    State.reset.poolOk 0 {} = false ∧ pool0.en = true ∧ pool0.busy = false ∧ { pool0 with heads := (0 : Word).extractLsb' 8 4, dim := (0 : Word).extractLsb' 0 7 } = pool0 ∧
    pool0.free = pool0.count ∧ (poolState pool0).noCandidate 0 = true ∧ ({ pool0 with free := 1 } : Pool).free ≠ pool0.count ∧
    ((poolState { pool0 with busy := true }).pool 0).busy = true := by decide +kernel
theorem test_pool_enable : next (exec (.xltKvpEnable .queue 0x80000000) (poolState { pool0 with en := false })) (fun t => (t.pool 0).en && (t.pool 0).busy && !t.pathQ.poolErr) = true ∧
    next (exec (.xltKvpEnable .queue 0x80000000) (poolState pool0)) (fun t => t.pathQ.poolErr && t.pool 0 == pool0) = true := by decide +kernel
theorem test_pool_disable : next (exec (.xltKvpDisable .queue 0) (poolState pool0)) (fun t => !(t.pool 0).en && !t.pathQ.poolErr) = true ∧
    next (exec (.xltKvpDisable .queue 0) (poolState { pool0 with free := 1 })) (fun t => (t.pool 0).en && t.pathQ.poolErr) = true := by decide +kernel
theorem test_pool_init : next (exec (.poolInitComplete 0) (poolState { pool0 with busy := true, free := 0 })) (fun t => (t.pool 0).free == 2 && !(t.pool 0).busy &&
    t.hbm.read (0x5000 * 64) 8 == [1, 0, 0, 0, 0, 0, 0, 0]) = true := by decide +kernel
/-- The prefix table: 2^16 and 2^24 buckets, 2^15, and one that meets a pool. -/
theorem test_prefix_cfg : next (exec (.xltPfxCfgWrite .queue 0x80000010) ready) (fun t => t.xlt.pfxEn && t.xlt.pfxLog2 == 16) = true ∧
    next (exec (.xltPfxCfgWrite .queue 0x80000018) ready) (fun t => t.xlt.pfxLog2 == 24) = true ∧
    next (exec (.xltPfxCfgWrite .queue 0x8000000F) ready) (fun t => t == ready) = true ∧ next (exec (.xltPfxCfgWrite .queue 0x80000010) (poolState pool0)) (fun t => t == poolState pool0) = true := by
  decide +kernel

/-- KvOperations: an operation under way, one that is refused because its context runs, and one of a page that is not mapped. -/
def kvState : State :=
  { ready with xlt := { opVa := 0, opCnt := 0, pools := [(0, { en := true })], ctxs := [(0, { rootValid := true, rootPfn := 1, regions := [(0, { valid := true, len := 1 })] })] },
               hbm := { mem := [(4097, 0x20), (4103, 0x40), (8193, 0x30), (8199, 0x40), (12289, 0x40), (12295, 0x40)] } }
theorem test_witness_kv : ({ kvState with launches := [run1] } : State).kvRefusal 0 0 1 0 = 1 ∧ kvState.kvRefusal 0 0 1 0 = 0 ∧ (kvState.kvUse 0 0).isSome = true ∧
    kvState.xlt.opBusy = false ∧ run1.ctx = 0 ∧ (∀ e, run1.run ≠ .halted e) := by
  refine ⟨by decide +kernel, by decide +kernel, by decide +kernel, rfl, rfl, ?_⟩
  intro e h; cases h
theorem test_kv : next (exec (.drop .queue 0) kvState) (fun t => t.xlt.opBusy && t.xlt.opKind == 1) = true ∧
    next (exec (.release .queue 0) { kvState with launches := [run1] }) (fun t => !t.xlt.opBusy && t.xlt.opResult == 1 && t.xlt.opKind == 2) = true ∧
    next (exec .xltKvopComplete { kvState with xlt := { kvState.xlt with opBusy := true, opResult := 3 } }) (fun t => !t.xlt.opBusy && t.xlt.opResult == 0) = true := by decide +kernel

/-- ControlRegisters: each bound of each field. -/
theorem test_credit : next (exec (.stmCreditWrite .queue 0x168285) ready) (fun t => t.stm.next == some (90, 5, 5) && !t.stm.err) = true ∧
    next (exec (.stmCreditWrite .queue 0x16C285) ready) (fun t => t.stm.next == none && t.stm.err) = true ∧
    next (exec (.stmCreditWrite .queue 0x16C205) ready) (fun t => t.stm.err) = true := by decide +kernel
theorem test_err_ctl : next (exec (.errCtlWrite .queue 0xA0000000) ready) (fun t => t.err.hold && t.err.strict == 4 && !t.err.err) = true ∧
    next (exec (.errCtlWrite .queue 0xA8000000) ready) (fun t => !t.err.hold && t.err.strict == 0 && t.err.err) = true := by decide +kernel
def handledRec : Rec := ⟨1, 0, 0, 0, false, 0, 0, none, none, 0, 0, 0, 0, true, false⟩
def ringed : State := { ready with err := { hold := true, ring := List.replicate 3 handledRec } }
theorem test_ring_retire : ringed.err.hold = true ∧ (∀ r ∈ ringed.err.ring, r.handled = true) ∧ next (exec (.errRingRetire .queue 2) ringed) (fun t => t.err.ring.length == 1) = true ∧
    next (exec (.errRingRetire .queue 64) ringed) (fun t => t.err.ring == []) = true ∧ next (exec (.errRingRetire .queue 65) ringed) (fun t => t == ringed) = true ∧
    next (exec (.errRingRetire .queue 0) ringed) (fun t => t == ringed) = true := by decide +kernel
theorem test_drain : next (exec (.errDrainReq .queue 0x1234) ready) (fun t => t.err.drained && t.err.cause == 0x1234) = true := by decide +kernel
theorem test_retrain : next (exec (.fabCtlRetrain .queue 0) { ready with fab := { coord := 0x00200000 } }) (fun t => t.fab.retraining && (t.port 5).state == .training && (t.port 3).state == .unused) = true ∧
    next (exec (.fabCtlRetrain .queue 0) busyCtx) (fun t => t.fab.err && !t.fab.retraining) = true := by decide +kernel
theorem test_power_registers : next (exec (.pwrCapWrite .queue 600) ready) (fun t => t.pwr.cap == 600 && !t.pwr.capErr) = true ∧
    next (exec (.pwrCapWrite .service 599) ready) (fun t => t.pwr.cap == 1600 && t.pwr.capErr) = true ∧ next (exec (.pwrCapWrite .queue 1601) ready) (fun t => t.pwr.capErr) = true ∧
    next (exec (.pwrSlewWrite .queue 200) ready) (fun t => t.pwr.ramp == 200) = true ∧ next (exec (.pwrSlewWrite .queue 49) ready) (fun t => t == ready) = true ∧
    next (exec (.pwrGroupWrite .queue true 600) ready) (fun t => t.pwr.budget == 600) = true ∧ next (exec (.pwrGroupWrite .queue true 599) ready) (fun t => t.pwr.grpErr) = true ∧
    ready.pathOpen .service = true := by decide +kernel
theorem test_endpoint : next (exec (.qceEpData7Commit .queue 0) { ready with pathQ := { ep := 9, epData := [(0, 0xC0000007), (4, 6), (5, 0x11223344), (6, 0x5566)] } })
    (fun t => sget {} t.qce.endpoints 9 == { valid := true, ipv6 := true, port := 7, addr := 6, mac := 0x556611223344 }) = true ∧
    next (exec (.qceEpData7Commit .queue 1) ready) (fun t => t == ready) = true := by decide +kernel
theorem test_tst_ctl : next (exec (.tstCtlWrite .queue false 0x8000003C) ready) (fun t => t.tst.rotEn && t.tst.interval == 60) = true ∧
    next (exec (.tstCtlWrite .queue false 0x8000003B) ready) (fun t => t.tst.err && !t.tst.rotEn) = true ∧
    next (exec (.tstCtlWrite .queue true 0x00050004) ready) (fun t => t.tst.period == 5 && t.tst.phase == 4) = true := by decide +kernel
theorem test_latches : next (exec (.beatCntLoRead .queue) { ready with fab := { cnt := 0x500000000 } }) (fun t => t.pathQ.beatHi == 5) = true ∧
    next (exec (.pwrEnergyLoRead .queue true) { ready with pwr := { total := 0x600000000 } }) (fun t => t.pathQ.totalHi == 6 && t.pathQ.idleHi == 0) = true := by decide +kernel

/-! ### Service, firmware -/

/-- The service target answers, before stage 2 and with the whole map. -/
def early : State := { sec := { dynAddr := 8, stage := 1 } }
theorem test_witness_service : ready.svcAlive = true ∧ ready.fullMap = true ∧ ready.responder = true ∧ early.svcAlive = true ∧ early.responder = true ∧ early.fullMap = false ∧
    (early.modSec fun c => { c with stage := 0 }).responder = false ∧ State.reset.svcAlive = false ∧ ready.sec.svcConn = .fresh ∧ ready.numericSensor 21 = none := by decide +kernel
theorem test_witness_registers : (ready.readAt .service 0x80020).2 = none ∧ (ready.readAt .service 0x3FFFFFC).2 = some 0 ∧ (ready.readAt .service 0x80000).2.isSome = true ∧ (ready.readAt .service 0x80000).1.svcAlive = true := by
  decide +kernel
theorem test_svc_register : next (exec (.svcRegisterRead [1, 1, 0, 0, 0x20, 0, 8, 0]) ready) (fun t => t.out == [.svc (.registers [1, 1, 0, 0])]) = true ∧
    next (exec (.svcRegisterRead [1, 1, 0, 0, 0x20, 0, 8, 0]) early) (fun t => t.out == [.svc (.registers [2, 1, 0, 0])]) = true := by decide +kernel
theorem test_endpoint_id : next (exec (.setEndpointId 0xFE) ready) (fun t => t.sec.eid == 0xFE) = true ∧ next (exec (.setEndpointId 0xFF) ready) (fun t => t.sec.eid == 0) = true ∧
    next (exec .svc3v3Loss ready) (fun t => !t.svcAlive && t.sec.dynAddr == 0) = true := by decide +kernel
theorem test_sensors : next (exec (.getSensorReading 1) ready) (fun t => t.out == [.svc (.sensor 1)]) = true ∧ next (exec (.getStateSensorReadings 3) ready) (fun t => t.out == [.svc (.sensor 7)]) = true ∧
    next (exec (.getSensorReading 21) ready) (fun t => t.out == [.svc (.pldmError 0x80)]) = true := by decide +kernel
theorem test_spdm_order : next (exec (.getCapabilities .service) (ready.modSec fun c => { c with svcConn := .version })) (fun t => t.sec.svcConn == .capabilities) = true ∧
    next (exec (.getDigests .service) ready) (fun t => t.out == [.svc (.spdm (.error .unexpectedRequest))]) = true := by decide +kernel
theorem test_mailbox : next (exec (.secSpdmCtlGo .queue 4096) ready) (fun t => t.sec.spdmBusy && t.sec.spdmLen == 4096) = true ∧
    next (exec (.secSpdmCtlGo .queue 4097) ready) (fun t => !t.sec.spdmBusy && t.sec.spdmErr) = true ∧
    next (exec .spdmMailboxComplete (ready.modSec fun c => { c with spdmBusy := true, spdmOut := some [1, 2, 3, 4, 5] })) (fun t => !t.sec.spdmBusy && t.sec.spdmLen == 5 &&
      t.sec.spdmRsp == [(0, 0x04030201), (1, 5)]) = true := by decide +kernel

/-- FirmwareUpdate: in each of its states, a size at its bound, and the byte that completes a component. -/
theorem test_witness_update : (1 : BitVec 16) ∈ [1, 2] ∧ 0 < (stageArea false).2 ∧ 0 < (stageArea true).2 ∧ ([1, 2] : List Byte).length + ([3] : List Byte).length < 4 ∧
    ([1, 2] : List Byte).length + ([3, 4] : List Byte).length = 4 := by decide +kernel
theorem test_update : next (exec .requestUpdate ready) (fun t => t.sec.update == .started) = true ∧
    next (exec (.passComponentTable [1]) (ready.modSec fun c => { c with update := .started })) (fun t => t.sec.update == .ready [1]) = true ∧
    next (exec (.updateComponent 1 4) (ready.modSec fun c => { c with update := .ready [1] })) (fun t => t.sec.update == .loading [1] 1 4 []) = true ∧
    next (exec (.updateComponent 2 4) (ready.modSec fun c => { c with update := .ready [1] })) (fun t => t.sec.update == .ready [1]) = true ∧
    next (exec .activateFirmware (ready.modSec fun c => { c with update := .ready [1] })) (fun t => t.sec.pendingFw && t.sec.update == .idle) = true ∧
    next (exec .cancelUpdate (ready.modSec fun c => { c with update := .started })) (fun t => t.sec.update == .idle) = true := by decide +kernel
theorem test_firmware_data : next (exec (.firmwareDataReceive [3] ⟨true, true⟩ ⟨true, true⟩) (ready.modSec fun c => { c with update := .loading [1] 1 4 [1, 2] }))
    (fun t => t.sec.update == .loading [1] 1 4 [1, 2, 3]) = true := by decide +kernel

/-! ### Boot -/

def yes : SigVerdict := ⟨true, true⟩
def allYes : BootVerdicts := ⟨yes, yes, yes, yes, yes, true⟩
/-- A stage image of 64 header bytes and its block, at the offset of its area; bytes that are not listed read 0xFF. -/
def stageBytes (two : Bool) : List Byte :=
  leBytes 4 (if two then 0x53544702 else 0x53544701) ++ leBytes 4 0x01000007 ++ leBytes 4 1628 ++ leBytes 4 0 ++ leBytes 4 64 ++ List.replicate 44 0 ++
    leBytes 4 0x53494701 ++ leBytes 4 0 ++ leBytes 4 1452 ++ leBytes 4 0
def imageCells (two : Bool) : List Host.Cell := (stageBytes two).zipIdx.map fun x => ((stageArea two).1 + x.2, x.1)
def atRom (sec : Sec) : State := { sec := { sec with powered := true } }

/-- Boot: the ROM may run and may not; an empty bank is malformed, bank A starts, bank B starts, both are refused for their signature. -/
theorem test_witness_rom : (atRom {}).sec.powered = true ∧ (atRom {}).sec.stage = 0 ∧ (atRom {}).sec.secretLocked = false ∧
    ((atRom {}).sec.verifyBank false false yes).toOption.isSome = false := by decide +kernel
theorem test_rom_empty : next (exec (.bootRom allYes) (atRom {})) (fun t => t.sec.stage == 0xF && t.sec.cause == 1 && t.sec.secretLocked && t.sec.tries == [4, 4]) = true := by
  decide +kernel
theorem test_witness_stage1 : (({ flashA := imageCells false } : Sec).verifyBank false false yes).toOption.map (fun i => (i.svn, i.version)) = some (1, 7) := by decide +kernel
theorem test_witness_stage1_b : (({ flashB := imageCells false } : Sec).verifyBank false true yes).toOption.isSome = true := by decide +kernel
theorem test_witness_stage1_bad : ({ flashA := imageCells false } : Sec).tryBanks false false { allYes with s1a := ⟨true, false⟩ } = (none, [2, 4]) := by decide +kernel
theorem test_witness_stage2 : (({ flashA := imageCells true } : Sec).tryBanks true false allYes).1.isSome = true := by decide +kernel
theorem test_stage2_none : ((atRom { stage := 1 }).sec.tryBanks true false allYes).1 = none ∧
    next (exec (.bootStage2 allYes ⟨true, true, true, true⟩) (atRom { stage := 1 })) (fun t => t.sec.stage == 0xF && t.sec.cause == 2) = true := by decide +kernel

def atStage (n : BitVec 4) : State := ready.modSec fun c => { c with stage := n, hostUp := false }
theorem test_witness_configure : (atStage 5).svcAlive = true ∧ (atStage 5).fullMap = true ∧ (atStage 5).sec.stage = 5 ∧ ready.sec.stage ≠ 5 := by decide +kernel
theorem test_configure : next (exec (.cfgDone .service 0) { atStage 5 with fab := { coord := 0x02000000 } }) (fun t => t.sec.stage == 6 && (t.port 3).state == .training && (t.port 5).state == .unused) = true ∧
    next (exec (.cfgDone .service 0) ready) (fun t => t == ready) = true := by decide +kernel
theorem test_host_port : next (exec (.hostPortRetry true) (atStage 6)) (fun t => t.sec.hostUp) = true ∧ next (exec (.hostPortRetry true) (atStage 5)) (fun t => t == atStage 5) = true := by
  decide +kernel
theorem test_ready : next (exec (.bootReady 9) ((atStage 6).modSec fun c => { c with hostUp := true, fabricDone := true })) (fun t => t.sec.stage == 7 && t.sec.tReady == 9 && t.out == [.pwrGood true]) = true ∧
    next (exec (.bootReady 9) (atStage 6)) (fun t => t == atStage 6) = true ∧ ready.err.drained = false := by decide +kernel
theorem test_clear_drain : next (exec (.clearDrain .service 0) (ready.modErr fun e => { e with bootDrain := true, drained := true, flagged := true }))
      (fun t => !t.err.drained && !t.err.flagged && t.out == [.pwrGood true]) = true ∧
    next (exec (.clearDrain .service 0) (ready.modErr fun e => { e with drained := true, flagged := true })) (fun t => t.err.drained && !t.err.flagged && t.out == []) = true := by decide +kernel
/-- A device with a link port up, drained for its history, that may be live again (14 R420). -/
def drainedUp : State := { ready.modErr (fun e => { e with bootDrain := true, drained := true }) with devidValid := true, fab := { ready.fab with ports := [(1, { state := .up })] } }
theorem test_clear_drain_live : (drainedUp.port 1).state = .up ∧ drainedUp.fab.parted = false ∧
    next (exec (.clearDrain .service 0) drainedUp) (fun t => t.fab.live && t.fab.liveIds.contains t.devid) = true := by decide +kernel
/-- The first event within a million seconds after a rejoin is permanent; a later one is not (15 R451). -/
theorem test_rejoin_event : (({ ready with err := { history := [⟨1, 4, .rejoin, 0⟩], opsec := 1000000 } } : State).noteEvent 1 4).2 = true ∧
    (({ ready with err := { history := [⟨1, 4, .rejoin, 0⟩], opsec := 1000001 } } : State).noteEvent 1 4).2 = false := by decide +kernel
theorem test_second : next (exec (.operatingSecond true) ready) (fun t => t.err.opsec == ready.err.opsec + 1) = true ∧ (∀ h ∈ ready.err.history, h.second ≠ ready.err.opsec) ∧
    next (exec (.operatingSecond false) ready) (fun t => t.err.opsec == ready.err.opsec + 1) = true := by decide +kernel

/-! ### Testing -/

/-- A pack of one case whose core outputs nothing, and a test of the core that left set 2. -/
def case0 : TCase := ⟨false, 1, [], 0, 0⟩
def pack1 : Pack := ⟨5, [case0, { case0 with port := true }], []⟩
def test0 : Test := { pcore := 3, why := .swap, pack := pack1, case := 0, retried := false, verdict := .running }
def slotted (t : Test) : State := (ready.setRole 2 3 0xA).setSlot 2 (some t)
theorem test_witness_rotation : (ready.tst.rotEn = true) = False ∧ ready.coreWith 2 8 ≠ none ∧ sget 0 ready.tst.lastSwap 2 = 0 := by
  refine ⟨by simp [show ready.tst.rotEn = false from rfl], by decide +kernel, by decide +kernel⟩
theorem test_rotation : next (exec (.rotationDue 2) { ready with tst := { rotEn := true, interval := 60 }, err := { opsec := 60 } }) (fun t => t.tst.due == 4) = true ∧
    next (exec (.rotationDue 2) { ready with tst := { rotEn := true, interval := 61 }, err := { opsec := 60 } }) (fun t => t.tst.due == 0) = true := by decide +kernel
theorem test_witness_test : (slotted test0).slotTest 2 = some test0 ∧ pack1.cases[test0.case]? = some case0 ∧ pack1.nextCase false 1 = none ∧
    ({ pack1 with cases := [case0, case0] } : Pack).nextCase false 1 = some 1 ∧ ([] : List Byte).length = case0.outLen ∧ (slotted test0).tst.requests = [] ∧
    (slotted test0).role 2 3 = 0xA ∧ (∀ x ∈ (slotted test0).err.takeovers, x.set ≠ 2) := by decide +kernel
/-- The same state one boundary later: the limit of case0 has passed. -/
def late (t : Test) : State := { slotted t with fab := { (slotted t).fab with cnt := (slotted t).fab.cnt + 1 } }
theorem test_witness_case : ((slotted test0).fab.cnt - test0.began).toNat < case0.limit ∧ case0.limit ≤ ((late test0).fab.cnt - test0.began).toNat := by decide +kernel
theorem test_case_limit : next (exec (.testCaseLimit (.slot 2)) (late test0)) (fun t => (t.slotTest 2).map (·.verdict) == some .limit) = true ∧
    next (exec (.testCaseLimit (.slot 2)) (slotted test0)) (fun t => (t.slotTest 2).map (·.verdict) == some .running) = true ∧
    next (exec (.testCaseRun (.slot 2) (.ended [])) (late test0)) (fun t => (t.slotTest 2).map (·.verdict) == some .limit) = true ∧
    next (exec (.testCaseLimit (.slot 2)) (slotted { test0 with verdict := .pass })) (fun t => (t.slotTest 2).map (·.verdict) == some .pass) = true := by decide +kernel
theorem test_case_run : next (exec (.testCaseRun (.slot 2) .detection) (slotted test0)) (fun t => (t.slotTest 2).map (·.verdict) == some .detection) = true ∧
    next (exec (.testCaseRun (.slot 2) (.hbmDetect 0x1FFFFF0)) (slotted test0)) (fun t => (t.slotTest 2).map (·.retried) == some true) = true := by decide +kernel
/-- The digest of no bytes, from the definition of SHA-256. -/
theorem test_digest : digest128 [] = 0xE3B0C44298FC1C149AFBF4C8996FB924 := by decide +kernel
theorem test_test_end : next (exec (.testEnd (.slot 2)) (slotted { test0 with verdict := .pass, case := 1 }))
      (fun t => t.slotTest 2 == none && t.role 2 3 == 8 && t.tst.passes == 1 && t.tst.last == 0x23200001) = true ∧
    next (exec (.testEnd (.slot 2)) (slotted test0)) (fun t => t == slotted test0) = true := by decide +kernel

/-! ### Canonical forms -/

theorem test_witness_forms : ({ ready with hbm := { mem := [(64, 1)] } } : State).wf = true ∧ (64 : BitVec 37).toNat % 32 + [0#8, 2#8].length ≤ 32 ∧
    ({ ready with hbm := { mem := [(64, 1)] } } : State).hbm.poisoned 2 = false ∧ (runs { pc := 1 }).wf = true := by decide +kernel
theorem test_forms_write : next (exec (.hbmWrite 64 [0, 2] (.code 1) 0) { ready with hbm := { mem := [(64, 1)] } }) (fun t => t.hbm.mem == [(65, 2)] && t.wf) = true := by decide +kernel

end Sys2Proof.Tests
end

section
/-!
The launch barrier and the boundary at which a launch begins (01 R25, 11 R334, 12 R361): what control flits leave alone, what links do
that enter service, and the statement about both.
-/

namespace Sys2Proof.Machine

variable {s t u : State}

/-! ### What touches only the fabric block and what leaves -/

/-- `t` differs from `s` in the fabric block and in what has left the module, and in nothing else. -/
def State.OnlyFab (s t : State) : Prop := t = { s with fab := t.fab, out := t.out }

theorem State.OnlyFab.refl (s : State) : s.OnlyFab s := rfl

theorem State.OnlyFab.trans (h : s.OnlyFab t) (h' : t.OnlyFab u) : s.OnlyFab u :=
  Eq.trans h' (congrArg (fun v : State => { v with fab := u.fab, out := u.out }) h)

theorem State.OnlyFab.cores (h : s.OnlyFab t) : t.cores = s.cores := by rw [h]

theorem State.onlyFab_modPort (s : State) (p : Fin 6) (f : Port → Port) : s.OnlyFab (s.modPort p f) := rfl

theorem State.onlyFab_emit (s : State) (o : Out) : s.OnlyFab (s.emit o) := rfl

theorem drainGo_onlyFab (p : Fin 6) (fuel : Nat) (s : State) : s.OnlyFab (drainGo p fuel s) := by
  induction fuel generalizing s with
  | zero => exact .refl s
  | succ fuel ih =>
    simp only [drainGo]
    split
    · split
      · exact .refl s
      · exact ((s.onlyFab_modPort p _).trans (State.onlyFab_emit _ _)).trans (ih _)
    · exact .refl s

theorem State.pushFlit_onlyFab (s : State) (p : Fin 6) (f : Flit) : s.OnlyFab (s.pushFlit p f) := by
  simp only [State.pushFlit]
  split
  · exact (s.onlyFab_modPort p _).trans (drainGo_onlyFab p _ _)
  · exact .refl s

theorem State.sendFlit_onlyFab (s : State) (p : Fin 6) (cls : BitVec 2) (dst : Nat) (core : BitVec 6) (tag : BitVec 12) (chunk : Nat)
    (data : List Byte) : s.OnlyFab (s.sendFlit p cls dst core tag chunk data) := by
  simp only [State.sendFlit]
  split
  · exact .refl s
  · exact s.pushFlit_onlyFab p _

/-- Control flits of a collective leave through the ports; the rest of the device stays (12 R347). -/
theorem State.sendControl_onlyFab (s : State) (x : Sched) (g : Group) (tag : Word) (id : BitVec 12) (dirs : List (Axis × Bool)) (c : CollCtl) :
    s.OnlyFab (s.sendControl x g tag id dirs c) := by
  refine List.foldlRecOn (motive := s.OnlyFab) dirs _ (.refl s) fun v hv d _ => hv.trans ?_
  dsimp only
  split
  · exact (v.onlyFab_emit _).trans (State.sendFlit_onlyFab _ _ _ _ _ _ _ _)
  · exact v.sendFlit_onlyFab _ _ _ _ _ _ _

theorem State.sendAbort_onlyFab (s : State) (l : Launch) (c : Coll) (code : Code) (culprit : BitVec 12) :
    s.OnlyFab (s.sendAbort l c code culprit) := by
  simp only [State.sendAbort]
  split
  · exact s.sendControl_onlyFab _ _ _ _ _ _
  · exact .refl s

/-- An abort leaves every core as it is. -/
theorem State.core_sendAbort (s : State) (l : Launch) (c : Coll) (code : Code) (culprit : BitVec 12) (i : Nat) :
    (s.sendAbort l c code culprit).core i = s.core i := by
  simp only [State.core, (s.sendAbort_onlyFab l c code culprit).cores]

/-! ### Ports -/

@[simp] theorem State.port_modPort_same (s : State) (p : Fin 6) (f : Port → Port) : (s.modPort p f).port p = f (s.port p) := by
  simp [State.port, State.modPort]

@[simp] theorem State.port_modPort_other (s : State) {p q : Fin 6} (f : Port → Port) (h : q ≠ p) : (s.modPort p f).port q = s.port q := by
  simp [State.port, State.modPort, Fin.val_ne_of_ne h]

/-! ### Links that enter service (11 R334) -/

/-- What links that enter service do, from `s` to `t`: they reach the fabric block only and count no boundary, symbols leave and no stream
bytes, and a port that was not in standby keeps all but the HOLD of its child. -/
structure State.EntersService (s t : State) : Prop where
  onlyFab : s.OnlyFab t
  cnt : t.fab.cnt = s.fab.cnt
  sends : ∃ o, t.out = s.out ++ o ∧ ∀ x ∈ o, x.isRemote = false
  port : ∀ p, (s.port p).state ≠ .standby → { t.port p with childHold := (s.port p).childHold } = s.port p

namespace State.EntersService

theorem refl (s : State) : s.EntersService s := ⟨.refl s, rfl, ⟨[], by simp⟩, fun _ _ => rfl⟩

theorem trans (h : s.EntersService t) (h' : t.EntersService u) : s.EntersService u where
  onlyFab := h.onlyFab.trans h'.onlyFab
  cnt := h'.cnt.trans h.cnt
  sends := by
    obtain ⟨o, ho, hr⟩ := h.sends
    obtain ⟨o', ho', hr'⟩ := h'.sends
    exact ⟨o ++ o', by rw [ho', ho, List.append_assoc], List.forall_mem_append.2 ⟨hr, hr'⟩⟩
  port p hp := by
    have hs : (t.port p).state = (s.port p).state := (congrArg Port.state (h.port p hp) :)
    have ht := h'.port p (by rwa [hs])
    exact (congrArg (fun q : Port => { q with childHold := (s.port p).childHold }) ht).trans (h.port p hp)

/-- The tables of the fabric block may change, but for its ports and the boundary count. -/
theorem of_fab (s : State) (f : Fab) (hp : f.ports = s.fab.ports) (hc : f.cnt = s.fab.cnt) : s.EntersService { s with fab := f } where
  onlyFab := rfl
  cnt := hc
  sends := ⟨[], by simp⟩
  port p _ := by simp only [State.port, hp]

/-- A port that was in standby may change at will, and another in the HOLD of its child. -/
theorem modPort (h : s.EntersService t) (p : Fin 6) (f : Port → Port)
    (hf : (s.port p).state ≠ .standby → { f (t.port p) with childHold := (s.port p).childHold } = s.port p) : s.EntersService (t.modPort p f) where
  onlyFab := h.onlyFab.trans (t.onlyFab_modPort p f)
  cnt := h.cnt
  sends := h.sends
  port q hq := by
    by_cases hqp : q = p
    · subst hqp; simpa using hf hq
    · simpa [hqp] using h.port q hq

theorem emitAll (s : State) (o : List Out) (ho : ∀ x ∈ o, x.isRemote = false) : s.EntersService (s.emitAll o) :=
  ⟨rfl, rfl, ⟨o, rfl, ho⟩, fun _ _ => rfl⟩

theorem symOn (s : State) (ps : List (Fin 6)) (y : Sym) : s.EntersService (s.symOn ps y) :=
  emitAll s _ fun x hx => by
    obtain ⟨p, -, rfl⟩ := List.mem_map.1 hx
    rfl

theorem mapChanged (s : State) : s.EntersService s.mapChanged := by
  have hHolds : s.EntersService (allPorts.foldl (fun t p =>
      if s.treeChildren.contains p then t else t.modPort p fun q => { q with childHold := none }) s) := by
    refine List.foldlRecOn (motive := s.EntersService) allPorts _ (refl s) fun v hv p _ => ?_
    split
    · exact hv
    · exact hv.modPort p _ (hv.port p)
  simp only [State.mapChanged]
  refine trans ?_ (of_fab _ _ rfl rfl)
  split
  · exact hHolds.trans (emitAll _ [_] (by simp [Out.isRemote]))
  · exact hHolds

theorem learnService (s : State) (k : LinkId) (but : Option (Fin 6)) : s.EntersService (s.learnService k but) := by
  simp only [State.learnService]
  split
  · exact refl s
  · refine (trans ?_ (symOn _ _ _)).trans (mapChanged _)
    refine List.foldlRecOn (motive := s.EntersService) _ _ (of_fab s _ rfl rfl) fun v hv p hp => hv.modPort p _ fun hne => ?_
    have hstandby : (s.port p).state = .standby := by simpa using (List.mem_filter.1 hp).2
    exact absurd hstandby hne

end State.EntersService

/-- At the boundary at which a launch begins only links in standby change. -/
theorem State.enterService_entersService (s : State) (l : Launch) : s.EntersService (s.enterService l) := by
  simp only [State.enterService]
  split
  · exact .refl s
  · refine List.foldlRecOn (motive := s.EntersService) _ _ (.refl s) fun v hv k _ => ?_
    split
    · exact hv.trans (.learnService v k none)
    · exact hv

/-- A command that has done no more than this ends there: nothing else goes on. -/
theorem State.EntersService.finish (h : s.EntersService t) : Machine.finish s (t, false) = .next t := by
  obtain ⟨o, ho, hr⟩ := h.sends
  have hl : t.hbm.ownedLost = s.hbm.ownedLost := by rw [h.onlyFab]
  rw [finish_flits s t hl, State.sendFlits_append s t o ho hr]

end Sys2Proof.Machine
end

section
/-!
The launch barrier's end and the launch's begin: one equation for each way that the three commands can go (01 R25).
-/

namespace Sys2Proof.Machine

variable {s : State} {l : Launch} {x : Sched} {c : Coll}

/-! ### The barrier is complete -/

/-- The launch is to start at the boundary `b`: its barrier is over, and the start beat goes on from this member (01 R25, 12 R353). -/
def State.startsAt (s : State) (l : Launch) (x : Sched) (c : Coll) (b : Dword) : State :=
  ((s.dropColl c).sendControl x (c.group x) l.jobTag 0xFFF (s.geo x (c.group x) ((s.memberOf x l.lead).getD 0)).sends (.start b)).modLaunch l.qid
    fun m => { m with run := .starting, goAt := some b }

/-- A barrier with every entry is over: the root says when the launch starts, and another member hears it. -/
theorem State.barrierDone_complete (start : Dword) (hl : s.resident = some l) (hx : s.schedOf l = some x) (hc : s.collOf l.jobTag 0xFFF = some c)
    (hrun : l.run = .barrier) (hall : c.hasAll x = true) (hok : c.failure = none) :
    s.barrierDone start = s.startsAt l x c (if s.memberOf x l.lead = some x.self.toNat then s.fab.cnt + 16 else start) := by
  simp only [State.barrierDone, hl, hx, hc]
  simp [hrun, hall, hok, State.startsAt, State.geo]

/-- A barrier that lacks an entry goes on. -/
theorem State.barrierDone_incomplete (start : Dword) (hl : s.resident = some l) (hx : s.schedOf l = some x)
    (hc : s.collOf l.jobTag 0xFFF = some c) (hall : c.hasAll x = false) : s.barrierDone start = s := by
  simp only [State.barrierDone, hl, hx, hc]
  simp [hall]

theorem exec_launchBarrierComplete (start : Dword) (s : State) : exec (.launchBarrierComplete start) s = .next (s.barrierDone start) := rfl

/-! ### The barrier's deadline -/

/-- Why a launch stops whose barrier did not end in time: E_COLL_TIMEOUT, with the first member that is missing (12 R360). -/
def State.barrierStop (s : State) (x : Sched) (c : Coll) : StopInfo :=
  { code := eCollTimeout, source := 1, pc := (s.core c.core.val).flightPc c.serial, detail := (c.missing x).setWidth 64 }

theorem State.isBarrier_of_collOf {tag : Word} (hc : s.collOf tag 0xFFF = some c) : c.isBarrier = true := by
  have h := List.find?_some hc
  simp only [Bool.and_eq_true] at h
  exact h.2

/-- Before its deadline the barrier goes on. -/
theorem State.barrierLate_early (hl : s.resident = some l) (hx : s.schedOf l = some x) (hc : s.collOf l.jobTag 0xFFF = some c)
    (hd : c.counted < l.deadline) : s.barrierLate = (s, false) := by
  simp only [State.barrierLate, hl, hx, hc]
  simp [hd]

/-- At its deadline an abort leaves, the barrier is over, and the launch stops. -/
theorem State.barrierLate_due (hl : s.resident = some l) (hx : s.schedOf l = some x) (hc : s.collOf l.jobTag 0xFFF = some c)
    (hrun : l.run = .barrier) (hd : l.deadline ≤ c.counted) :
    s.barrierLate = (((s.sendAbort l c eCollTimeout (c.missing x)).dropColl c).stop l (s.barrierStop x c), true) := by
  have hcore : ((s.sendAbort l c eCollTimeout (c.missing x)).dropColl c).core c.core.val = s.core c.core.val := s.core_sendAbort l c _ _ _
  simp only [State.barrierLate, hl, hx, hc]
  simp [State.failColl, State.barrierStop, hrun, Nat.not_lt.2 hd, State.isBarrier_of_collOf hc, hcore]

theorem exec_launchBarrierTimeout (s : State) : exec .launchBarrierTimeout s = finish s s.barrierLate := rfl

/-! ### The boundary of the start beat -/

/-- The launch runs from the boundary `g`. -/
def State.runsFrom (s : State) (l : Launch) (g : Dword) : State :=
  { s with launches := s.launches.map fun m =>
      if m.qid = l.qid then { m with run := .running, start := some g, goAt := none, suspended := none } else m }

/-- Before the boundary of its start beat the launch waits. -/
theorem State.beginLaunch_early {g : Dword} (hl : s.resident = some l) (hg : l.goAt = some g) (h : s.fab.cnt < g) : s.beginLaunch = (s, false) := by
  simp [State.beginLaunch, hl, hg, BitVec.lt_def.1 h]

/-- At that boundary a launch that has not begun yet begins, and the links of its epoch enter service (11 R334). -/
theorem State.beginLaunch_due {g : Dword} (hl : s.resident = some l) (hg : l.goAt = some g) (hrun : l.run = .starting) (hs : l.start = none)
    (h : g ≤ s.fab.cnt) : s.beginLaunch = ((s.runsFrom l g).enterService l, false) := by
  simp [State.beginLaunch, State.runsFrom, hl, hg, hrun, hs, Nat.not_lt.2 (BitVec.le_def.1 h)]

theorem exec_launchStart (s : State) : exec .launchStart s = finish s s.beginLaunch := rfl

theorem exec_launchStart_due {g : Dword} (hl : s.resident = some l) (hg : l.goAt = some g) (hrun : l.run = .starting) (hs : l.start = none)
    (h : g ≤ s.fab.cnt) : exec .launchStart s = .next ((s.runsFrom l g).enterService l) := by
  rw [exec_launchStart, State.beginLaunch_due hl hg hrun hs h]
  exact ((s.runsFrom l g).enterService_entersService l).finish

/-! ### The statement -/

/-- Settles O35: each command is one of the equations above, and the links that enter service at the start beat leave every port alone that
was not in standby, but for the HOLD of its child. -/
theorem launchBegins : Obligations.LaunchBegins := by
  intro s l hl
  refine ⟨fun x c start hx hc hrun => ⟨fun hall hok => ?complete, fun hall => ?waits, fun hd => ?early, fun hd => ?late⟩,
    fun g hg hrun hs => ⟨fun hlt => ?before, fun hle => ?begins⟩⟩
  case complete =>
    rw [exec_launchBarrierComplete, State.barrierDone_complete start hl hx hc hrun hall hok]
    exact ⟨fun hroot => by rw [if_pos hroot]; rfl, fun hroot => by rw [if_neg hroot]; rfl⟩
  case waits => rw [exec_launchBarrierComplete, State.barrierDone_incomplete start hl hx hc hall]
  case early => rw [exec_launchBarrierTimeout, State.barrierLate_early hl hx hc hd, finish_false s s rfl rfl]
  case late => rw [exec_launchBarrierTimeout, State.barrierLate_due hl hx hc hrun hd, finish_true, State.barrierStop]
  case before => rw [exec_launchStart, State.beginLaunch_early hl hg hlt, finish_false s s rfl rfl]
  case begins =>
    have hservice := (s.runsFrom l g).enterService_entersService l
    have hlaunches : ((s.runsFrom l g).enterService l).launches = (s.runsFrom l g).launches := by rw [hservice.onlyFab]
    refine ⟨_, exec_launchStart_due hl hg hrun hs hle, hlaunches, ?_, hservice.cnt, hservice.port⟩
    rw [hlaunches]
    exact hservice.onlyFab

end Sys2Proof.Machine
end

section
/-!
O11: RDFLG and the sticky flag word (07 R210, 04 R106).
-/

namespace Sys2Proof.Machine

/-- The core after RDFLG: the flag word stands in rd, and a clear empties it (07 R210). -/
def Core.readFlags (k : Core) (rd : BitVec 5) (clear : Bool) : Core :=
  if clear then { k.setS rd (k.flags.setWidth 32) with flags := 0 } else k.setS rd (k.flags.setWidth 32)

theorem exec_rdflg (h : Ih) (rd : BitVec 5) (clear : Bool) (s : State) :
    exec (.rdflg h rd clear) s = s.seqCore h (bitsOf (.rdflg h rd clear)) fun k => k.readFlags rd clear := rfl

@[simp] theorem Core.flags_seqStart (k : Core) (h : Ih) : (k.seqStart h).flags = k.flags := by rw [Core.seqStart_frame]

@[simp] theorem Core.k_readFlags (k : Core) (rd : BitVec 5) (clear : Bool) : (k.readFlags rd clear).k = k.k := by
  cases clear <;> exact k.k_setS rd _

/-- A ready RDFLG reads and clears the flags of its own core, and signals its token. -/
theorem exec_rdflg_ready {s : State} {h : Ih} {l : Launch} (r : s.seqReady h l) (rd : BitVec 5) (clear : Bool) :
    ∃ t, exec (.rdflg h rd clear) s = .next t ∧
      s.onlyCore t h.core.val ((((s.core h.core.val).seqStart h).readFlags rd clear).giveTok h.sg) := by
  rw [exec_rdflg]
  exact s.seqCore_ready h l _ (fun k => k.readFlags rd clear) r (Core.k_readFlags _ rd clear)

/-- Settles O11: the start of a SEQ instruction leaves the flag word as it was, so RDFLG reads the word from before its own cycle. -/
theorem stickyFlags : Obligations.StickyFlags := by
  intro s h l rd ready
  have hread := exec_rdflg_ready ready rd false
  have hclear := exec_rdflg_ready ready rd true
  simp only [Core.readFlags, Core.flags_seqStart, Bool.false_eq_true, if_true, if_false] at hread hclear
  exact ⟨hread, hclear⟩

end Sys2Proof.Machine
end

section
/-!
O54: the KV operations DROP and RELEASE and their end (10 R294-R296).
-/

namespace Sys2Proof.Machine

/-! ### Fields of a register's value -/

theorem ofNat_wbits (w : Word) (lo n : Nat) : BitVec.ofNat n (wbits w lo n) = w.extractLsb' lo n := by
  apply BitVec.eq_of_toNat_eq
  rw [BitVec.toNat_ofNat, BitVec.extractLsb'_toNat, wbits, Nat.mod_mod]

/-- The mask of the operation's field keeps bits [7:0] and clears bits [9:8]. -/
theorem opMask_low : ∀ i < 8, (0xFFFFFCFF#32).getLsbD i = true := by decide

theorem opMask_op : ∀ i < 2, (0xFFFFFCFF#32).getLsbD (8 + i) = false := by decide

/-- The operation's number has a field of its own, so the context number reaches the register as it was given. -/
theorem ctx_withOp (v op : Word) : (withOp v op).extractLsb' 0 8 = v.extractLsb' 0 8 := by
  apply BitVec.eq_of_getLsbD_eq
  intro i hi
  simp only [withOp, BitVec.getLsbD_extractLsb', BitVec.getLsbD_or, BitVec.getLsbD_and, BitVec.getLsbD_shiftLeft, Nat.zero_add, hi,
    opMask_low i hi, decide_true, Bool.not_true, Bool.and_true, Bool.true_and, Bool.and_false, Bool.false_and, Bool.or_false]

/-- Field [9:8] holds the operation's number, whatever stood there. -/
theorem op_withOp (v : Word) (op : BitVec 2) : wbits (withOp v (op.setWidth 32)) 8 2 = op.toNat := by
  have hfield : (withOp v (op.setWidth 32)).extractLsb' 8 2 = op := by
    apply BitVec.eq_of_getLsbD_eq
    intro i hi
    simp only [withOp, BitVec.getLsbD_extractLsb', BitVec.getLsbD_or, BitVec.getLsbD_and, BitVec.getLsbD_shiftLeft, BitVec.getLsbD_setWidth, hi,
      opMask_op i hi, Bool.and_false, Bool.false_or, Nat.not_lt.2 (Nat.le_add_right 8 i), Nat.add_sub_cancel_left, decide_false, Bool.not_false,
      Bool.and_true, Bool.true_and, decide_true, show 8 + i < 32 by omega, show i < 32 by omega]
  rw [wbits, ← BitVec.extractLsb'_toNat, hfield]

/-- XLT_KVOP_CNT holds the pages in [23:0] and the layers, less one, in [31:24]. -/
theorem wbits_pages (w : Word) : wbits w 0 24 = w.toNat % 2 ^ 24 := rfl

theorem wbits_layers (w : Word) : wbits w 24 8 = w.toNat / 2 ^ 24 := by
  have := w.isLt
  simp only [wbits, Nat.shiftRight_eq_div_pow]
  omega

/-! ### The write of the command -/

/-- The operation's number (10 R310): 1 DROP, 2 RELEASE. -/
def kvOpNo (isDrop : Bool) : BitVec 2 := if isDrop then 1 else 2

/-- The state whose register names the operation and its context. -/
def State.kvNamed (s : State) (isDrop : Bool) (ctx : BitVec 8) : State :=
  { s with xlt := { s.xlt with opKind := kvOpNo isDrop, opCtx := ctx } }

/-- Every entry of the range visited in its order, the context's translations gone, and the operation under way. -/
def State.kvBegun (s : State) (r : Region) (isDrop : Bool) (ctx : BitVec 8) (va layers pages : Nat) : State :=
  let w := ((kvVisits r va layers pages).foldl (fun x e => x.kvVisit ctx r isDrop e) s).invalidate false ctx
  { w with xlt := { w.xlt with opBusy := true } }

/-- What XLT_KVOP_CMD does with a DROP or RELEASE: nothing while one is under way; else the refusal's result, or the visits of the range. -/
theorem State.wKvOp_withOp (s : State) (v : Word) (isDrop : Bool) :
    s.wKvOp (withOp v ((kvOpNo isDrop).setWidth 32)) =
      if s.xlt.opBusy then s
      else
        let ctx : BitVec 8 := v.extractLsb' 0 8
        let va := s.xlt.opVa.toNat
        let layers := s.xlt.opCnt.toNat / 2 ^ 24 + 1
        let pages := s.xlt.opCnt.toNat % 2 ^ 24
        let u := s.kvNamed isDrop ctx
        let no := u.kvRefusal ctx va layers pages
        if no ≠ 0 then { u with xlt := { u.xlt with opResult := no } }
        else
          match u.kvUse ctx va with
          | none => u
          | some k => u.kvBegun k.r isDrop ctx va layers pages := by
  have hknown : ((kvOpNo isDrop).toNat != 1 && (kvOpNo isDrop).toNat != 2) = false := by cases isDrop <;> rfl
  unfold State.wKvOp
  simp only [op_withOp, ofNat_wbits, ctx_withOp, wbits_layers, wbits_pages, hknown, Bool.or_false]
  cases isDrop <;> rfl

/-- A host that is up writes the operation into XLT_KVOP_CMD. -/
theorem exec_dropOrRelease {s : State} (hup : s.hostReady = true) (isDrop : Bool) (v : Word) :
    exec (if isDrop then .drop .queue v else .release .queue v) s = .next (s.wKvOp (withOp v ((kvOpNo isDrop).setWidth 32))) := by
  have hset (w : Word) : s.setReg .queue .xltKvopCmd w = s.wKvOp w := by
    have hopen : s.pathOpen .queue = true := hup
    rw [State.setReg, hopen]
    rfl
  cases isDrop <;> exact congrArg Host.Outcome.next (hset _)

/-- A launch of the context that is not halted refuses the operation before any other check (10 R295). -/
theorem State.kvRefusal_running {s : State} {l : Launch} {ctx : BitVec 8} (hl : l ∈ s.launches) (hctx : l.ctx = ctx)
    (hrun : ∀ e, l.run ≠ .halted e) (va layers pages : Nat) : s.kvRefusal ctx va layers pages = 1 := by
  unfold State.kvRefusal
  rw [if_pos]
  refine List.any_eq_true.2 ⟨l, hl, ?_⟩
  rw [hctx, beq_self_eq_true, Bool.true_and]
  split
  · next e he => exact absurd he (hrun e)
  · rfl

/-! ### The end of the operation -/

/-- No translation of an invalidated context is left in the shared TLB (08 R237). -/
theorem State.ctx_ne_of_mem_invalidate {s : State} {ctx : BitVec 8} {e : Tlb} (h : e ∈ (s.invalidate false ctx).xlt.sharedTlb) :
    e.ctx ≠ ctx := by
  simp only [State.invalidate, Bool.false_eq_true, if_false, List.mem_filter, bne_iff_ne] at h
  exact h.2

theorem exec_xltKvopComplete (s : State) : exec .xltKvopComplete s = .next s.kvOpDone := rfl

theorem State.kvOpDone_idle {s : State} (h : s.xlt.opBusy = false) : s.kvOpDone = s := by
  simp only [State.kvOpDone, h, Bool.not_false, if_true]

theorem State.kvOpDone_busy {s : State} (h : s.xlt.opBusy = true) :
    s.kvOpDone = { s.invalidate false s.xlt.opCtx with
      xlt := { (s.invalidate false s.xlt.opCtx).xlt with opBusy := false, opResult := 0 } } := by
  simp only [State.kvOpDone, h, Bool.not_true, Bool.false_eq_true, if_false]

/-! ### The statement -/

/-- Settles O54: the command is a write of XLT_KVOP_CMD, whose cases are those of the statement, and the end invalidates the context that the
register names (log entry 42: the entries change when the operation begins, and a launch runs from its acceptance until it is halted). -/
theorem kvOperations : Obligations.KvOperations := by
  intro s v isDrop hup c ctx va layers pages u no
  have hc : exec c s = .next (s.wKvOp (withOp v ((kvOpNo isDrop).setWidth 32))) := exec_dropOrRelease hup isDrop v
  rw [State.wKvOp_withOp] at hc
  refine ⟨fun hbusy => ?underWay, fun hidle hno => ?refused, fun hidle hno k hk => ?begins, fun l hl hctx hrun => ?running,
    fun hidle => ?noneToEnd, fun hbusy => ?ends⟩
  case underWay => rw [hc, if_pos hbusy]
  case refused =>
    rw [hc, if_neg (Bool.eq_false_iff.1 hidle)]
    exact congrArg Host.Outcome.next (if_pos hno)
  case begins =>
    have hallowed : (s.kvNamed isDrop (v.extractLsb' 0 8)).kvRefusal (v.extractLsb' 0 8) s.xlt.opVa.toNat (s.xlt.opCnt.toNat / 2 ^ 24 + 1)
        (s.xlt.opCnt.toNat % 2 ^ 24) = 0 := hno
    have hregion : (s.kvNamed isDrop (v.extractLsb' 0 8)).kvUse (v.extractLsb' 0 8) s.xlt.opVa.toNat = some k := hk
    rw [hc, if_neg (Bool.eq_false_iff.1 hidle)]
    simp only [hallowed, hregion, ne_eq, not_true_eq_false, if_false]
    rfl
  case running => exact State.kvRefusal_running hl hctx hrun va layers pages
  case noneToEnd => rw [exec_xltKvopComplete, State.kvOpDone_idle hidle]
  case ends =>
    refine ⟨_, exec_xltKvopComplete s, ?_⟩
    rw [State.kvOpDone_busy hbusy]
    exact ⟨rfl, rfl, rfl, fun _ he => State.ctx_ne_of_mem_invalidate he⟩

end Sys2Proof.Machine
end

section
/-!
What of a collective leaves the module and what stays (12 R347, R361): control flits carry no stream bytes and leave all but the fabric
block alone; a collective is found again after it was put back, and not after it was dropped; chunks start in a data phase only.
-/

namespace Sys2Proof.Machine

variable {s t u : State} {c : Coll} {l : Launch} {x : Sched} {tag : Word} {id : BitVec 12}

/-! ### No stream bytes leave -/

/-- From `s` to `t` outputs may have left, and none of them holds stream bytes. -/
def State.LeavesNoStream (s t : State) : Prop := ∃ o, t.out = s.out ++ o ∧ ∀ y ∈ o, y.isRemote = false

theorem State.LeavesNoStream.of_out_eq (h : t.out = s.out) : s.LeavesNoStream t := ⟨[], by simp [h]⟩

theorem State.LeavesNoStream.trans (h : s.LeavesNoStream t) (h' : t.LeavesNoStream u) : s.LeavesNoStream u := by
  obtain ⟨o, ho, hr⟩ := h
  obtain ⟨o', ho', hr'⟩ := h'
  exact ⟨o ++ o', by rw [ho', ho, List.append_assoc], List.forall_mem_append.2 ⟨hr, hr'⟩⟩

theorem State.leavesNoStream_emit (s : State) (o : Out) (ho : o.isRemote = false) : s.LeavesNoStream (s.emit o) := ⟨[o], rfl, by simpa using ho⟩

/-- A command that has done no more than this ends there, whatever it changed besides. -/
theorem State.LeavesNoStream.finish (h : s.LeavesNoStream u) (ho : t.out = u.out) (hl : t.hbm.ownedLost = s.hbm.ownedLost) :
    Machine.finish s (t, false) = .next t := by
  obtain ⟨o, hu, hr⟩ := h
  rw [finish_flits s t hl, State.sendFlits_append s t o (ho.trans hu) hr]

theorem drainGo_leavesNoStream (p : Fin 6) (fuel : Nat) (s : State) : s.LeavesNoStream (drainGo p fuel s) := by
  induction fuel generalizing s with
  | zero => exact .of_out_eq rfl
  | succ fuel ih =>
    simp only [drainGo]
    split
    · split
      · exact .of_out_eq rfl
      · exact (State.leavesNoStream_emit (s.modPort p _) _ rfl).trans (ih _)
    · exact .of_out_eq rfl

theorem State.sendFlit_leavesNoStream (s : State) (p : Fin 6) (cls : BitVec 2) (dst : Nat) (core : BitVec 6) (tag : BitVec 12) (chunk : Nat)
    (data : List Byte) : s.LeavesNoStream (s.sendFlit p cls dst core tag chunk data) := by
  simp only [State.sendFlit, State.pushFlit]
  split
  · exact .of_out_eq rfl
  · split
    · exact drainGo_leavesNoStream p _ (s.modPort p _)
    · exact .of_out_eq rfl

theorem State.sendControl_leavesNoStream (s : State) (x : Sched) (g : Group) (tag : Word) (id : BitVec 12) (dirs : List (Axis × Bool))
    (m : CollCtl) : s.LeavesNoStream (s.sendControl x g tag id dirs m) := by
  refine List.foldlRecOn (motive := s.LeavesNoStream) dirs _ (.of_out_eq rfl) fun v hv d _ => hv.trans ?_
  dsimp only
  split
  · exact (v.leavesNoStream_emit _ rfl).trans (State.sendFlit_leavesNoStream _ _ _ _ _ _ _ _)
  · exact v.sendFlit_leavesNoStream _ _ _ _ _ _ _

theorem State.sendAbort_leavesNoStream (s : State) (l : Launch) (c : Coll) (code : Code) (culprit : BitVec 12) :
    s.LeavesNoStream (s.sendAbort l c code culprit) := by
  simp only [State.sendAbort]
  split
  · exact s.sendControl_leavesNoStream _ _ _ _ _ _
  · exact .of_out_eq rfl

/-! ### What a change of the fabric block leaves alone -/

theorem State.OnlyFab.col (h : s.OnlyFab t) : t.col = s.col := by rw [h]
theorem State.OnlyFab.hbm (h : s.OnlyFab t) : t.hbm = s.hbm := by rw [h]
theorem State.OnlyFab.collOf (h : s.OnlyFab t) : t.collOf tag id = s.collOf tag id := by simp only [State.collOf, h.col]
theorem State.OnlyFab.jobLaunch (h : s.OnlyFab t) : t.jobLaunch tag = s.jobLaunch tag := by rw [h]; rfl
theorem State.OnlyFab.schedOf (h : s.OnlyFab t) : t.schedOf l = s.schedOf l := by rw [h]; rfl
theorem State.OnlyFab.core (h : s.OnlyFab t) (i : Nat) : t.core i = s.core i := by simp only [State.core, h.cores]

@[simp] theorem State.col_sendControl (s : State) (x : Sched) (g : Group) (tag : Word) (id : BitVec 12) (dirs : List (Axis × Bool)) (m : CollCtl) :
    (s.sendControl x g tag id dirs m).col = s.col := (s.sendControl_onlyFab x g tag id dirs m).col
@[simp] theorem State.collOf_sendControl (s : State) (x : Sched) (g : Group) (tag tag' : Word) (id id' : BitVec 12) (dirs : List (Axis × Bool))
    (m : CollCtl) : (s.sendControl x g tag id dirs m).collOf tag' id' = s.collOf tag' id' := (s.sendControl_onlyFab x g tag id dirs m).collOf
@[simp] theorem State.jobLaunch_sendControl (s : State) (x : Sched) (g : Group) (tag tag' : Word) (id : BitVec 12) (dirs : List (Axis × Bool))
    (m : CollCtl) : (s.sendControl x g tag id dirs m).jobLaunch tag' = s.jobLaunch tag' := (s.sendControl_onlyFab x g tag id dirs m).jobLaunch

/-! ### The collective of a job tag and an id -/

theorem State.collOf_key (h : s.collOf tag id = some c) : c.jobTag = tag ∧ c.collId = id := by
  simpa using List.find?_some h

theorem State.collOf_dropColl (s : State) (c : Coll) : (s.dropColl c).collOf c.jobTag c.collId = none := by
  simp only [State.collOf, State.dropColl, List.find?_eq_none, List.mem_filter]
  rintro d ⟨-, hd⟩ he
  simp [he] at hd

/-- A collective that was put back is found, as it is now. -/
theorem State.collOf_putColl (h : s.collOf c.jobTag c.collId ≠ none) : (s.putColl c).collOf c.jobTag c.collId = some c := by
  obtain ⟨d, hd⟩ := Option.ne_none_iff_exists'.1 h
  have hkey : ((fun e : Coll => e.jobTag == c.jobTag && e.collId == c.collId) ∘
      fun e => if e.jobTag == c.jobTag && e.collId == c.collId then c else e) = fun e => e.jobTag == c.jobTag && e.collId == c.collId := by
    funext e
    by_cases he : (e.jobTag == c.jobTag && e.collId == c.collId) = true
    · rw [Function.comp_apply, if_pos he, he]
      simp
    · simp only [Function.comp_apply, if_neg he]
  simp only [State.collOf] at hd
  simp only [State.collOf, State.putColl, List.find?_map, hkey, hd, Option.map_some, if_pos (List.find?_some hd :)]

/-! ### A running launch -/

theorem State.jobLaunch_of_running (h : s.running = some l) : s.jobLaunch l.jobTag = some l ∧ l.run = .running := by
  simp only [State.running] at h
  split at h
  · next m hm =>
    split at h
    · next hrun =>
      cases h
      simp only [Bool.and_eq_true, beq_iff_eq] at hrun
      exact ⟨by simp [State.jobLaunch, hm], hrun.1.1⟩
    · cases h
  · cases h

/-! ### Nothing starts outside a data phase (12 R357) -/

/-- With no collective in its data phase no chunk starts. -/
theorem State.pump_of_no_data (h : ∀ c ∈ s.col.colls, c.phase ≠ .data) (det : List Bool) : s.pump det = (s, false) := by
  have hzero : s.col.colls.foldl (fun n c => if c.phase == .data then n + (c.chunks - c.started) else n) 0 = 0 := by
    refine List.foldlRecOn (motive := (· = 0)) s.col.colls _ rfl fun n hn c hc => ?_
    rw [if_neg (by simpa using h c hc), hn]
  rw [State.pump, hzero]
  rfl

end Sys2Proof.Machine
end

section
/-!
O37: entries and aborts of a count phase (12 R346, R347, R361, R366).
-/

namespace Sys2Proof.Machine

variable {s t : State} {c : Coll} {l : Launch} {x : Sched} {tag : Word} {id : BitVec 12}

/-! ### What a count phase decides -/

/-- A collective that lacks an entry, and for which no abort has come, is not decided. -/
theorem State.judge_incomplete (hf : c.failure = none) (hx : s.schedOf l = some x) (hall : c.hasAll x = false) : s.judge l c = (s, false) := by
  simp only [State.judge, hf, hx, hall, Bool.not_false, if_true]

theorem State.decideAll_of_no_colls (h : s.col.colls = []) (det : List Bool) : s.decideAll det = (s, false) := by
  have hpump : s.pump det = (s, false) := State.pump_of_no_data (by simp [h]) det
  simp only [State.decideAll, h, List.filter_nil, List.foldl_nil, hpump, Bool.or_false]

/-- Nothing is decided and nothing starts while the only collective lacks an entry. -/
theorem State.decideAll_incomplete (hcs : s.col.colls = [c]) (hp : c.phase = .count) (hf : c.failure = none)
    (hl : s.jobLaunch c.jobTag = some l) (hx : s.schedOf l = some x) (hall : c.hasAll x = false) (det : List Bool) :
    s.decideAll det = (s, false) := by
  have hpump : s.pump det = (s, false) := State.pump_of_no_data (by simp [hcs, hp]) det
  have hc : s.collOf c.jobTag c.collId = some c := by simp [State.collOf, hcs]
  have hfilter : s.col.colls.filter (fun d => d.phase == .count) = [c] := by simp [hcs, hp]
  simp only [State.decideAll, hfilter, List.foldl_cons, List.foldl_nil, hl, hc, State.judge_incomplete hf hx hall, Bool.or_false, ite_self,
    hpump]

/-! ### Where an entry goes -/

theorem State.keepEntry_first (e : CEntry) (h : ∀ q ∈ s.col.early, q.1 = tag → q.2.1 = id → q.2.2.member ≠ e.member) :
    s.keepEntry tag id e = { s with col := { s.col with early := s.col.early ++ [(tag, id, e)] } } := by
  refine if_neg ?_
  simp only [List.any_eq_true, Bool.and_eq_true, beq_iff_eq]
  rintro ⟨q, hq, ⟨htag, hid⟩, hm⟩
  exact h q hq htag hid hm

theorem State.keepEntry_known (e : CEntry) (h : ¬∀ q ∈ s.col.early, q.1 = tag → q.2.1 = id → q.2.2.member ≠ e.member) :
    s.keepEntry tag id e = s := by
  refine if_pos ?_
  simp only [List.any_eq_true, Bool.and_eq_true, beq_iff_eq]
  refine Classical.byContradiction fun hno => ?_
  exact h fun q hq htag hid hm => hno ⟨q, hq, ⟨htag, hid⟩, hm⟩

/-- The control flit of a member for a group has come to this member: its port is in service, and both are of the group. -/
def State.hears (s : State) (x : Sched) (p : Fin 6) (g : Group) (sender : BitVec 12) : Prop :=
  s.portUp p = true ∧ g.has (x.pos x.self.toNat) = true ∧ g.has (x.pos sender.toNat) = true

theorem State.hears_iff {p : Fin 6} {g : Group} {sender : BitVec 12} :
    (!s.portUp p || !g.has (x.pos x.self.toNat) || !g.has (x.pos sender.toNat)) = false ↔ s.hears x p g sender := by
  simp [State.hears, and_assoc]

theorem State.not_hears_iff {p : Fin 6} {g : Group} {sender : BitVec 12} :
    (!s.portUp p || !g.has (x.pos x.self.toNat) || !g.has (x.pos sender.toNat)) = true ↔ ¬s.hears x p g sender := by
  rw [← State.hears_iff, Bool.not_eq_false]

/-- The state after a flit has gone on around the rings of this member. -/
def State.passOn (s : State) (x : Sched) (g : Group) (tag : Word) (id : BitVec 12) (sender : BitVec 12) (m : CollCtl) : State :=
  s.sendControl x g tag id (s.spreads x g sender) m

theorem State.countEntry_unheard {p : Fin 6} {e : CEntry} (hs : s.jobSched tag = some x) (h : ¬s.hears x p (entryGroup e) e.member)
    (det : List Bool) : s.countEntry p tag id e det = (s, false) := by
  simp only [State.countEntry, hs, State.not_hears_iff.2 h, if_true]

section
variable {p : Fin 6} {e : CEntry} (hs : s.jobSched tag = some x) (hhere : s.hears x p (entryGroup e) e.member) (det : List Bool)
include hs hhere

/-- An entry for a collective that has not begun here is kept. -/
theorem State.countEntry_early (hc : s.collOf tag id = none) (hagain : e.again = false) :
    s.countEntry p tag id e det = ((s.passOn x (entryGroup e) tag id e.member (.entry e)).keepEntry tag id e).decideAll det := by
  simp only [State.countEntry, hs, State.hears_iff.2 hhere, Bool.false_eq_true, if_false, State.collOf_sendControl, hc, hagain,
    Bool.false_and, State.passOn]

/-- An entry of another epoch is kept. -/
theorem State.countEntry_otherEpoch (hc : s.collOf tag id = some c) (hep : c.epoch ≠ x.epoch) :
    s.countEntry p tag id e det = ((s.passOn x (entryGroup e) tag id e.member (.entry e)).keepEntry tag id e).decideAll det := by
  simp only [State.countEntry, hs, State.hears_iff.2 hhere, Bool.false_eq_true, if_false, State.collOf_sendControl, hc,
    bne_iff_ne.2 hep, if_true, State.passOn]

/-- The first entry of a member joins the collective that it is for. -/
theorem State.countEntry_joins (hc : s.collOf tag id = some c) (hep : c.epoch = x.epoch) (hnew : ∀ q ∈ c.entries, q.member ≠ e.member) :
    s.countEntry p tag id e det =
      ((s.passOn x (entryGroup e) tag id e.member (.entry e)).putColl { c with entries := c.entries ++ [e] }).decideAll det := by
  have hnew' : (c.entries.any fun q => q.member == e.member) = false := by simpa using hnew
  simp only [State.countEntry, hs, State.hears_iff.2 hhere, Bool.false_eq_true, if_false, State.collOf_sendControl, hc, hep,
    bne_self_eq_false, hnew', State.passOn]

end

/-! ### Where an abort goes -/

theorem State.collAbort_unheard {p : Fin 6} {a : CAbort} (hs : s.jobSched tag = some x) (h : ¬s.hears x p (groupOf a.origin a.sides) a.sender) :
    s.collAbort p tag id a = (s, false) := by
  simp only [State.collAbort, hs, State.not_hears_iff.2 h, if_true]

/-- An abort belongs to a collective that is to begin here: its sender's entry has come, and no abort of it is kept (12 R361). -/
def ColBlk.abortDue (b : ColBlk) (tag : Word) (id : BitVec 12) (a : CAbort) : Prop :=
  (∃ q ∈ b.early, q.1 = tag ∧ q.2.1 = id ∧ q.2.2.member = a.sender) ∧ ∀ d ∈ b.aborts, ¬(d.1 = tag ∧ d.2.1 = id)

theorem ColBlk.abortDue_iff {b : ColBlk} {a : CAbort} :
    ((b.early.any fun q => q.1 == tag && q.2.1 == id && q.2.2.member == a.sender) && !(b.aborts.any fun d => d.1 == tag && d.2.1 == id)) = true ↔
      b.abortDue tag id a := by
  simp [ColBlk.abortDue, and_assoc]

section
variable {p : Fin 6} {a : CAbort} (hs : s.jobSched tag = some x) (hhere : s.hears x p (groupOf a.origin a.sides) a.sender)
include hs hhere

theorem State.collAbort_due (hc : s.collOf tag id = none) (hdue : s.col.abortDue tag id a) :
    s.collAbort p tag id a = ({ s.passOn x (groupOf a.origin a.sides) tag id a.sender (.abort a) with
      col := { s.col with aborts := s.col.aborts ++ [(tag, id, a.code, a.culprit)] } }, false) := by
  simp only [State.collAbort, hs, State.hears_iff.2 hhere, Bool.false_eq_true, if_false, State.collOf_sendControl, hc, State.col_sendControl,
    ColBlk.abortDue_iff.2 hdue, if_true, State.passOn]

theorem State.collAbort_past (hc : s.collOf tag id = none) (hdue : ¬s.col.abortDue tag id a) :
    s.collAbort p tag id a = (s.passOn x (groupOf a.origin a.sides) tag id a.sender (.abort a), false) := by
  simp only [State.collAbort, hs, State.hears_iff.2 hhere, Bool.false_eq_true, if_false, State.collOf_sendControl, hc, State.col_sendControl,
    mt ColBlk.abortDue_iff.1 hdue, State.passOn]

/-- An abort fails an unfinished collective of a launch that runs. -/
theorem State.collAbort_fails (hc : s.collOf tag id = some c) (hf : c.failure = none) (hl : s.jobLaunch tag = some l) (hrun : l.run = .running) :
    s.collAbort p tag id a = (s.passOn x (groupOf a.origin a.sides) tag id a.sender (.abort a)).failColl l c a.code a.culprit := by
  simp only [State.collAbort, hs, State.hears_iff.2 hhere, Bool.false_eq_true, if_false, State.collOf_sendControl, hc, hf, Option.isSome_none,
    State.jobLaunch_sendControl, hl, hrun, beq_self_eq_true, Bool.or_true, if_true, State.passOn]

end

/-- A failure that may not be passed over stops the launch (12 R361, R362). -/
theorem State.failColl_stops (hb : c.isBarrier = false) (hof : c.desc.onFail = false) (code : Code) (culprit : BitVec 12) :
    s.failColl l c code culprit = (((s.dropColl c).recordFailure c code culprit).stop l
      { code := code, core := some c.core.val, pc := (s.core c.core.val).flightPc c.serial, source := 1, detail := culprit.setWidth 64 }, true) := by
  simp only [State.failColl, hb, hof, Bool.false_eq_true, if_false]
  rfl

/-! ### How a command ends that has passed a flit on -/

/-- `t` differs from `s` in the block of the collectives and in nothing else. -/
def State.OnlyCol (s t : State) : Prop := t = { s with col := t.col }

theorem State.OnlyCol.out (h : s.OnlyCol t) : t.out = s.out := by rw [h]
theorem State.OnlyCol.hbm (h : s.OnlyCol t) : t.hbm = s.hbm := by rw [h]
theorem State.OnlyCol.jobLaunch (h : s.OnlyCol t) : t.jobLaunch tag = s.jobLaunch tag := by rw [h]; rfl
theorem State.OnlyCol.schedOf (h : s.OnlyCol t) : t.schedOf l = s.schedOf l := by rw [h]; rfl

theorem State.putColl_onlyCol (s : State) (c : Coll) : s.OnlyCol (s.putColl c) := rfl

theorem State.keepEntry_onlyCol (s : State) (tag : Word) (id : BitVec 12) (e : CEntry) : s.OnlyCol (s.keepEntry tag id e) := by
  simp only [State.keepEntry]
  split <;> rfl

@[simp] theorem State.colls_keepEntry (s : State) (tag : Word) (id : BitVec 12) (e : CEntry) : (s.keepEntry tag id e).col.colls = s.col.colls := by
  simp only [State.keepEntry]
  split <;> rfl

theorem State.passOn_onlyFab (s : State) (x : Sched) (g : Group) (tag : Word) (id : BitVec 12) (sender : BitVec 12) (m : CollCtl) :
    s.OnlyFab (s.passOn x g tag id sender m) := s.sendControl_onlyFab _ _ _ _ _ _

@[simp] theorem State.col_passOn (g : Group) (sender : BitVec 12) (m : CollCtl) : (s.passOn x g tag id sender m).col = s.col :=
  (s.passOn_onlyFab x g tag id sender m).col

/-- A command ends there that has passed a control flit on and changed the block of the collectives. -/
theorem State.finish_passOn {g : Group} {sender : BitVec 12} {m : CollCtl} (h : (s.passOn x g tag id sender m).OnlyCol t) :
    finish s (t, false) = .next t := by
  refine (s.sendControl_leavesNoStream x g tag id (s.spreads x g sender) m).finish h.out ?_
  rw [h.hbm, (s.passOn_onlyFab x g tag id sender m).hbm]

/-- A flit that passed on, with a change of the collectives after which the only one lacks an entry, decides nothing. -/
theorem State.decideAll_passOn {g : Group} {sender : BitVec 12} {m : CollCtl} (h : (s.passOn x g tag id sender m).OnlyCol t)
    (hcs : t.col.colls = [c]) (hp : c.phase = .count) (hf : c.failure = none) (hl : s.jobLaunch c.jobTag = some l) (hx : s.schedOf l = some x)
    (hall : c.hasAll x = false) (det : List Bool) : t.decideAll det = (t, false) :=
  have hsent := s.passOn_onlyFab x g tag id sender m
  State.decideAll_incomplete hcs hp hf (h.jobLaunch.trans (hsent.jobLaunch.trans hl)) (h.schedOf.trans (hsent.schedOf.trans hx)) hall det

/-! ### The statement -/

theorem exec_countPhaseEntry (p : Fin 6) (tag : Word) (id : BitVec 12) (e : CEntry) (det : List Bool) (s : State) :
    exec (.countPhaseEntry p tag id e det) s = finish s (s.countEntry p tag id e det) := rfl

theorem exec_collAbortReceive (p : Fin 6) (tag : Word) (id : BitVec 12) (a : CAbort) (s : State) :
    exec (.collAbortReceive p tag id a) s = finish s (s.collAbort p tag id a) := rfl

/-- Settles O37: a control flit that is heard goes on around the rings, which reaches the fabric block only, and one equation above says what
else it does (log entry 39: an abort is kept only after its sender's entry, and one at most). -/
theorem countPhase : Obligations.CountPhase := by
  intro s p tag id x hs
  refine ⟨fun e det => ⟨fun hno => ?unheard, fun hhere hcs hagain => ?early, fun c hhere hcs htag hid hp hf =>
    ⟨fun hep hfirst l hl hx hall => ?otherEpoch, fun hep hnew hall l hl hx => ?joins⟩⟩, fun a =>
    ⟨fun hno => ?abortUnheard, fun hhere hc => ⟨fun hdue => ?abortKept, fun hpast => ?abortPast⟩, fun c l hhere hc hf hl hrun hb hof => ?fails⟩⟩
  case unheard => rw [exec_countPhaseEntry, State.countEntry_unheard hs hno, finish_false s s rfl rfl]
  case early =>
    have hnone : s.collOf tag id = none := by simp [State.collOf, hcs]
    have hrun : exec (.countPhaseEntry p tag id e det) s =
        .next ((s.passOn x (entryGroup e) tag id e.member (.entry e)).keepEntry tag id e) := by
      rw [exec_countPhaseEntry, State.countEntry_early hs hhere det hnone hagain, State.decideAll_of_no_colls (by simpa using hcs)]
      exact State.finish_passOn (State.keepEntry_onlyCol ..)
    refine ⟨fun hfirst => ?_, fun hknown => ?_⟩
    · rw [hrun, State.keepEntry_first e (by rwa [State.col_passOn]), State.col_passOn]
      rfl
    · rw [hrun, State.keepEntry_known e (by rwa [State.col_passOn])]
      rfl
  case otherEpoch =>
    have hc : s.collOf tag id = some c := by simp [State.collOf, hcs, htag, hid]
    rw [exec_countPhaseEntry, State.countEntry_otherEpoch hs hhere det hc hep,
      State.decideAll_passOn (State.keepEntry_onlyCol ..) (by simpa using hcs) hp hf (htag ▸ hl) hx hall,
      State.finish_passOn (State.keepEntry_onlyCol ..), State.keepEntry_first e (by rwa [State.col_passOn]), State.col_passOn]
    rfl
  case joins =>
    have hc : s.collOf tag id = some c := by simp [State.collOf, hcs, htag, hid]
    have hput : (s.passOn x (entryGroup e) tag id e.member (.entry e)).putColl { c with entries := c.entries ++ [e] } =
        { s.passOn x (entryGroup e) tag id e.member (.entry e) with col := { s.col with colls := [{ c with entries := c.entries ++ [e] }] } } := by
      simp [State.putColl, hcs]
    rw [exec_countPhaseEntry, State.countEntry_joins hs hhere det hc hep hnew,
      State.decideAll_passOn (c := { c with entries := c.entries ++ [e] }) (State.putColl_onlyCol ..) (congrArg (·.col.colls) hput) hp hf
        (htag ▸ hl) hx hall, State.finish_passOn (State.putColl_onlyCol ..), hput]
    rfl
  case abortUnheard => rw [exec_collAbortReceive, State.collAbort_unheard hs hno, finish_false s s rfl rfl]
  case abortKept =>
    rw [exec_collAbortReceive, State.collAbort_due hs hhere hc hdue]
    exact State.finish_passOn rfl
  case abortPast =>
    rw [exec_collAbortReceive, State.collAbort_past hs hhere hc hpast]
    exact State.finish_passOn rfl
  case fails =>
    have hcore : (s.passOn x (groupOf a.origin a.sides) tag id a.sender (.abort a)).core c.core.val = s.core c.core.val :=
      (s.passOn_onlyFab ..).core _
    rw [exec_collAbortReceive, State.collAbort_fails hs hhere hc hf hl hrun, State.failColl_stops hb hof, finish_true, hcore]
    rfl

end Sys2Proof.Machine
end

section
/-!
A collective's data phase and its end, one lemma for each thing that it does to its core: bytes of the operand store (12 R353), the
record of its line (12 R343, R355, R361), and the COLL that completes (04 R113).
-/

namespace Sys2Proof.Machine

variable {s t : State} {c : Coll} {l : Launch} {f : Flight}

@[simp] theorem State.core_withCol (s : State) (b : ColBlk) (i : Nat) : ({ s with col := b } : State).core i = s.core i := rfl

/-! ### Words of a line -/

@[simp] theorem Core.flight_setWords (k : Core) (line w : Nat) (vs : List Word) : (k.setWords line w vs).flight = k.flight := rfl
@[simp] theorem Core.flags_setWords (k : Core) (line w : Nat) (vs : List Word) : (k.setWords line w vs).flags = k.flags := rfl

theorem Core.dw_setWords (k : Core) (line w i : Nat) (vs : List Word) (hi : i < vs.length) : (k.setWords line w vs).dw line (w + i) = vs[i] := by
  rw [Core.dw, Core.setWords, ← Nat.add_assoc]
  exact sget_swrite 0 k.dsc (16 * line + w) i vs hi

/-- A write from word `w` of a line on leaves the words before it alone. -/
theorem Core.lineWords_setWords (k : Core) (line w n : Nat) (vs : List Word) (h : n ≤ w) :
    (k.setWords line w vs).lineWords line n = k.lineWords line n :=
  sread_swrite_other 0 k.dsc _ _ n vs (.inl (by omega))

/-! ### The COLL completes (04 R113) -/

/-- The core after an instruction that said no more than its flags has completed. -/
def Core.retire (k : Core) (f : Flight) : Core :=
  { k with flight := k.flight.filter fun g => g.ins.serial != f.ins.serial, flags := k.flags ||| f.flags }

@[simp] theorem Core.dw_retire (k : Core) (f : Flight) (line w : Nat) : (k.retire f).dw line w = k.dw line w := rfl
@[simp] theorem Core.lineWords_retire (k : Core) (f : Flight) (line n : Nat) : (k.retire f).lineWords line n = k.lineWords line n := rfl
@[simp] theorem Core.flight_retire (k : Core) (f : Flight) :
    (k.retire f).flight = k.flight.filter fun g => g.ins.serial != f.ins.serial := rfl
@[simp] theorem Core.flags_retire (k : Core) (f : Flight) : (k.retire f).flags = k.flags ||| f.flags := rfl

/-- The COLL of a collective stands in flight, and completing it marks no KV slot and signals no token. -/
def State.collFlies (s : State) (c : Coll) (f : Flight) : Prop :=
  ((s.core c.core.val).flight.find? fun f => f.ins.serial == c.serial) = some f ∧ f.marks = [] ∧ f.ins.sg = none

/-- A record in the collective's line leaves its COLL in flight. -/
theorem State.collFlies_of_record {record : List Word} (h : s.collFlies c f)
    (ht : t.cores = (s.modCore c.core.val fun k => k.setWords c.line.toNat 11 record).cores) : t.collFlies c f := by
  have hcore : t.core c.core.val = (s.core c.core.val).setWords c.line.toNat 11 record := by
    rw [State.core, ht, ← State.core, State.core_modCore_same]
  exact ⟨by rw [hcore, Core.flight_setWords]; exact h.1, h.2⟩

theorem State.collDone_retires (h : s.collFlies c f) : s.collDone l c = (s.modCore c.core.val fun k => k.retire f, false) := by
  obtain ⟨hf, hm, hs⟩ := h
  simp only [State.collDone, hf, State.completeFlight, hm, hs]
  rfl

/-! ### The end of a collective (12 R355, R361) -/

/-- The words W11 to W14 stand in the line of a collective, its COLL has completed, and `b` says what collectives there are. -/
def State.collEnds (s : State) (c : Coll) (f : Flight) (record : List Word) (b : ColBlk) : State :=
  { (s.modCore c.core.val fun k => k.setWords c.line.toNat 11 record).modCore c.core.val (fun k => k.retire f) with col := b }

section
variable (s : State) (c : Coll) (f : Flight) (record : List Word) (b : ColBlk)

@[simp] theorem State.col_collEnds : (s.collEnds c f record b).col = b := rfl
@[simp] theorem State.out_collEnds : (s.collEnds c f record b).out = s.out := rfl
@[simp] theorem State.hbm_collEnds : (s.collEnds c f record b).hbm = s.hbm := rfl

@[simp] theorem State.core_collEnds_same :
    (s.collEnds c f record b).core c.core.val = ((s.core c.core.val).setWords c.line.toNat 11 record).retire f := by
  rw [State.collEnds, State.core_withCol, State.core_modCore_same, State.core_modCore_same]

theorem State.core_collEnds_other {j : Nat} (hj : j ≠ c.core.val) : (s.collEnds c f record b).core j = s.core j := by
  rw [State.collEnds, State.core_withCol, State.core_modCore_other _ _ _ _ hj, State.core_modCore_other _ _ _ _ hj]

end

/-- A collective is DONE: its record says so and it is counted (12 R355). -/
def State.collIsDone (s : State) (c : Coll) (f : Flight) : State :=
  s.collEnds c f (collRecord 4 true 0 0 c.flags c.written s.fab.cnt) { (s.dropColl c).col with
    done := satInc s.col.done
    finished := (s.col.finished.filter fun d => !(d.jobTag == c.jobTag && d.collId == c.collId)) ++ [c] }

/-- A collective has FAILED and its program goes on: its record gives code and culprit, and it is counted (12 R361). -/
def State.collHasFailed (s : State) (c : Coll) (f : Flight) (code : Code) (culprit : BitVec 12) : State :=
  s.collEnds c f (collRecord 5 false code culprit c.flags c.written s.fab.cnt) { (s.dropColl c).col with
    failed := satInc s.col.failed, lastCode := code, lastCulprit := culprit }

theorem State.finishColl_done (hb : c.isBarrier = false) (hr : c.rerun = false) (hf : s.collFlies c f) :
    s.finishColl l c = (s.collIsDone c f, false) := by
  have hrecord : s.setRecord c 4 true =
      s.modCore c.core.val fun k => k.setWords c.line.toNat 11 (collRecord 4 true 0 0 c.flags c.written s.fab.cnt) := if_neg (by simp [hb])
  simp only [State.finishColl, hr, hrecord, Bool.false_eq_true, if_false]
  exact State.collDone_retires (State.collFlies_of_record hf rfl)

theorem State.failColl_goesOn (hb : c.isBarrier = false) (hof : c.desc.onFail = true) (hr : c.rerun = false) (hf : s.collFlies c f)
    (code : Code) (culprit : BitVec 12) : s.failColl l c code culprit = (s.collHasFailed c f code culprit, false) := by
  simp only [State.failColl, hb, hof, hr, Bool.false_eq_true, if_false, if_true]
  exact State.collDone_retires (State.collFlies_of_record hf rfl)

/-- Words W11 to W14 of a record read back. -/
theorem Core.dw_record (k : Core) (line : Nat) (f : Flight) (w0 w1 w2 w3 : Word) :
    ((k.setWords line 11 [w0, w1, w2, w3]).retire f).dw line 11 = w0 ∧ ((k.setWords line 11 [w0, w1, w2, w3]).retire f).dw line 12 = w1 ∧
      ((k.setWords line 11 [w0, w1, w2, w3]).retire f).dw line 13 = w2 ∧ ((k.setWords line 11 [w0, w1, w2, w3]).retire f).dw line 14 = w3 := by
  have hread (i : Nat) (hi : i < 4) := k.dw_setWords line 11 i [w0, w1, w2, w3] hi
  simp only [Core.dw_retire]
  exact ⟨hread 0 (by decide), hread 1 (by decide), hread 2 (by decide), hread 3 (by decide)⟩

/-- The record of a collective that is DONE (12 R343). -/
theorem collRecord_done (flags : Flags) (written : Nat) (beat : Dword) :
    collRecord 4 true 0 0 flags written beat = [0x48000000, flags.setWidth 32, .ofNat 32 written, lo32 beat] := by
  have hflags : BitVec.ofNat 32 ((0 : BitVec 12).toNat * 2 ^ 20 + flags.toNat) = flags.setWidth 32 := by
    simp [BitVec.setWidth_eq_append]
  simp only [collRecord, hflags]
  rfl

/-! ### A broadcast's chunk at the end of its way (12 R353) -/

/-- Where a chunk of a broadcast stands in the destination. -/
def Coll.place (c : Coll) (n : Nat) : Nat := c.desc.dst + n * c.desc.perChunk * fmtBytes c.desc.fmt

/-- A chunk's bytes of elements. -/
def Coll.payload (c : Coll) (n : Nat) (data : List Byte) : List Byte := data.take (c.inChunk n * fmtBytes c.desc.fmt)

/-- The collective after a chunk has come and its elements are written. -/
def Coll.counts (c : Coll) (a : Axis) (r : Bool) (n : Nat) : Coll :=
  { c with got := smod 0 c.got (gotKey a r) (· + 1), written := c.written + c.inChunk n }

/-- The state after a chunk's elements are written to their place and counted. -/
def State.chunkWritten (s : State) (c : Coll) (a : Axis) (r : Bool) (n : Nat) (data : List Byte) : State :=
  (s.modCore c.core.val fun k => k.ostWrite (c.place n) (c.payload n data)).putColl (c.counts a r n)

section
variable (s : State) (c : Coll) (a : Axis) (r : Bool) (n : Nat) (data : List Byte)

/-- But for the collectives only the operand store of the collective's core changes. -/
theorem State.chunkWritten_onlyCore :
    s.onlyCore { s.chunkWritten c a r n data with col := s.col } c.core.val ((s.core c.core.val).ostWrite (c.place n) (c.payload n data)) :=
  s.onlyCore_modCore c.core.val fun k => k.ostWrite (c.place n) (c.payload n data)

theorem State.core_chunkWritten :
    (s.chunkWritten c a r n data).core c.core.val = (s.core c.core.val).ostWrite (c.place n) (c.payload n data) := by
  rw [State.chunkWritten, State.putColl, State.core_withCol, State.core_modCore_same]

theorem State.collOf_chunkWritten (h : s.collOf c.jobTag c.collId = some c) :
    (s.chunkWritten c a r n data).collOf c.jobTag c.collId = some (c.counts a r n) :=
  State.collOf_putColl (c := c.counts a r n) (Option.ne_none_iff_exists'.2 ⟨c, h⟩)

end

/-- A chunk that goes no further is written and counted, and no access fails. -/
theorem CSt.arrive_end (ctx : BitVec 8) (x : Sched) {g : Geo} (a : Axis) (r : Bool) (n : Nat) (data : List Byte)
    (hd : c.desc.reduce = false) (hm : c.desc.dstMem = false) (hg : g.sends = []) :
    CSt.arrive ctx x g { s := s, c := c } a r n data =
      { s := s.modCore c.core.val fun k => k.ostWrite (c.place n) (c.payload n data), c := c.counts a r n } := by
  have hflags : c.flags ||| (0 : Flags) = c.flags := BitVec.or_zero
  have hdesc : ∀ g, ({ c with got := g } : Coll).desc = c.desc := fun _ => rfl
  simp only [CSt.arrive, hdesc, hd, hm, hg, CSt.write, Bool.not_false, Bool.false_eq_true, if_true, if_false, List.foldl_nil, Option.isSome_none,
    hflags]
  rfl

end Sys2Proof.Machine
end

section
/-!
O38: a collective's data phase, its end and its deadline (12 R353, R355, R357, R360, R367).
-/

namespace Sys2Proof.Machine

variable {s t : State} {c : Coll} {l : Launch} {x : Sched} {f : Flight} {tag : Word} {id : BitVec 12}

/-! ### The three commands -/

theorem exec_collChunkArrival (p : Fin 6) (tag : Word) (id : BitVec 12) (a : Axis) (r : Bool) (n : BitVec 24) (data : List Byte) (det : List Bool)
    (s : State) : exec (.collChunkArrival p tag id a r n data det) s = finish s (s.collChunk p tag id a r n.toNat data det) := rfl
theorem exec_collComplete (tag : Word) (id : BitVec 12) (s : State) : exec (.collComplete tag id) s = finish s (s.collComplete tag id) := rfl
theorem exec_collDeadlineExpiry (tag : Word) (id : BitVec 12) (s : State) :
    exec (.collDeadlineExpiry tag id) s = finish s (s.collDeadline tag id) := rfl

section
variable (hrun : s.running = some l) (htag : l.jobTag = tag) (hc : s.collOf tag id = some c) (hx : s.schedOf l = some x)
include hrun htag hc hx

/-- A chunk waits under flow control (12 R357). -/
theorem State.collChunk_waits {p : Fin 6} (h : s.portUp p = false ∨ c.phase ≠ .data ∨ s.carries c = false ∨ s.engineRoom id = false)
    (a : Axis) (r : Bool) (n : Nat) (data : List Byte) (det : List Bool) : s.collChunk p tag id a r n data det = (s, false) := by
  subst htag
  have hj := (State.jobLaunch_of_running hrun).1
  simp only [State.collChunk, hj, hc, hx]
  refine if_pos ?_
  rcases h with h | h | h | h <;> simp [h]

/-- A chunk that need not wait, and that no detection meets, arrives. -/
theorem State.collChunk_arrives {p : Fin 6} {n : Nat} {data : List Byte} (hp : s.portUp p = true) (hphase : c.phase = .data)
    (hcarries : s.carries c = true) (hroom : s.engineRoom id = true) (hlen : data.length = 256) (hn : n < c.chunks) (a : Axis) (r : Bool) :
    s.collChunk p tag id a r n data [] =
      State.collWork l (CSt.arrive l.ctx x (s.geo x c.desc.group c.desc.root.toNat) { s := s, c := c } a r n data)
        { c with stalled := some (a, r, n, data) } := by
  subst htag
  have hj := (State.jobLaunch_of_running hrun).1
  simp only [State.collChunk, hj, hc, hx, State.engineDetect, hp, hrun, hphase, hcarries, hroom, hlen, Nat.not_le.2 hn]
  simp

omit htag in
theorem State.collComplete_waits (h : s.collAllDone x c = false) : s.collComplete tag id = (s, false) := by
  simp only [State.collComplete, hrun, hc, hx, h, Bool.and_false, Bool.false_eq_true, if_false]

/-- A collective's end starts no chunk if no other is in its data phase. -/
theorem State.collComplete_done (hb : c.isBarrier = false) (h : s.collAllDone x c = true) (hd : s.finishColl l c = (t, false))
    (hdata : ∀ d ∈ t.col.colls, d.phase ≠ .data) : s.collComplete tag id = (t, false) := by
  simp only [State.collComplete, hrun, hc, hx, h, htag, hb, hd, State.pump_of_no_data hdata, beq_self_eq_true, Bool.not_false, Bool.and_self, if_true,
    Bool.or_self]

theorem State.collDeadline_waits (h : c.counted < c.desc.deadline ∨ l.suspended ≠ none) : s.collDeadline tag id = (s, false) := by
  subst htag
  have hj := (State.jobLaunch_of_running hrun).1
  simp only [State.collDeadline, hj, hc, hx]
  refine if_pos ?_
  rcases h with h | h
  · simp [h]
  · simp [Option.isSome_iff_ne_none.2 h]

/-- A deadline that has passed sends an abort with its culprit, and fails the collective (12 R360). -/
theorem State.collDeadline_fails (hb : c.isBarrier = false) (hd : c.desc.deadline ≤ c.counted) (hf : c.failure = none) (hs : l.suspended = none) :
    s.collDeadline tag id =
      (s.sendAbort l c eCollTimeout (if c.phase = .count then c.missing x else s.chainEnd l x c)).failColl l c eCollTimeout
        (if c.phase = .count then c.missing x else s.chainEnd l x c) := by
  subst htag
  obtain ⟨hj, hr⟩ := State.jobLaunch_of_running hrun
  simp only [State.collDeadline, hj, hc, hx, hb, hf, hs, hr, Nat.not_lt.2 hd]
  simp

end

/-- After a collective has left, none is in its data phase, if it was the only one. -/
theorem State.no_data_of_dropColl (h : ∀ d ∈ s.col.colls, d.phase = .data → d.jobTag = c.jobTag ∧ d.collId = c.collId) :
    ∀ d ∈ (s.dropColl c).col.colls, d.phase ≠ .data := by
  intro d hd hphase
  obtain ⟨hmem, hother⟩ := List.mem_filter.1 hd
  simp [h d hmem hphase] at hother

/-- Settles O38: each command is one of the equations above; with no other collective in its data phase nothing starts after the end of this one,
and the chunk, the record and the COLL's completion reach the collective's core only. -/
theorem collectiveData : Obligations.CollectiveData := by
  intro s l c x tag id hrun htag hc hx hb hdata
  obtain ⟨rfl, rfl⟩ := State.collOf_key hc
  refine ⟨fun p a r n data det h => ?waits, fun p a r n data hp hphase hcarries hroom hlen hn hd hm hg => ?written, fun h => ?goesOn,
    fun h hr f hf hm hs => ?done, fun h => ?early, fun f hd hs hfail hof hr hf hm hsg => ?late⟩
  case waits => rw [exec_collChunkArrival, State.collChunk_waits hrun htag hc hx h, finish_false s s rfl rfl]
  case written =>
    refine ⟨s.chunkWritten c a r n.toNat data, ?_, s.chunkWritten_onlyCore c a r n.toNat data, ?_, fun b m hout => ?_,
      s.collOf_chunkWritten c a r n.toNat data hc⟩
    · rw [exec_collChunkArrival, State.collChunk_arrives hrun htag hc hx hp hphase hcarries hroom hlen hn, CSt.arrive_end _ _ _ _ _ _ hd hm hg]
      exact finish_false s _ rfl rfl
    · rw [State.core_chunkWritten]
      exact Core.ostRead_ostWrite ..
    · rw [State.core_chunkWritten]
      exact Core.ostRead_ostWrite_other _ _ _ _ _ hout
  case goesOn => rw [exec_collComplete, State.collComplete_waits hrun hc hx h, finish_false s s rfl rfl]
  case done =>
    have hcore : (s.collIsDone c f).core c.core.val = ((s.core c.core.val).setWords c.line.toNat 11
        [0x48000000, c.flags.setWidth 32, .ofNat 32 c.written, lo32 s.fab.cnt]).retire f := by
      rw [State.collIsDone, State.core_collEnds_same, collRecord_done]
    obtain ⟨w11, w12, w13, w14⟩ :=
      (s.core c.core.val).dw_record c.line.toNat f 0x48000000 (c.flags.setWidth 32) (.ofNat 32 c.written) (lo32 s.fab.cnt)
    rw [← hcore] at w11 w12 w13 w14
    refine ⟨s.collIsDone c f, ?_, s.collOf_dropColl c, rfl, ?_, w11, w12, w13, w14, ?_, ?_, fun j hj => State.core_collEnds_other _ _ _ _ _ hj⟩
    · rw [exec_collComplete, State.collComplete_done hrun htag hc hx hb h (State.finishColl_done hb hr ⟨hf, hm, hs⟩)
        (State.no_data_of_dropColl hdata), finish_false s (s.collIsDone c f) rfl rfl]
    all_goals rw [hcore]
    · rw [Core.lineWords_retire, Core.lineWords_setWords _ _ _ _ _ (Nat.le_refl 11)]
    · rw [Core.flight_retire, Core.flight_setWords]
    · rw [Core.flags_retire, Core.flags_setWords]
  case early => rw [exec_collDeadlineExpiry, State.collDeadline_waits hrun htag hc hx h, finish_false s s rfl rfl]
  case late =>
    intro cul
    let u := s.sendAbort l c eCollTimeout cul
    have hsent : s.OnlyFab u := s.sendAbort_onlyFab l c eCollTimeout cul
    have hflies : u.collFlies c f := by rw [State.collFlies, hsent.core]; exact ⟨hf, hm, hsg⟩
    have hcore : (u.collHasFailed c f eCollTimeout cul).core c.core.val = ((s.core c.core.val).setWords c.line.toNat 11
        [.ofNat 32 (5 * 2 ^ 28 + 0x0504), .ofNat 32 (cul.toNat * 2 ^ 20 + c.flags.toNat), .ofNat 32 c.written, lo32 u.fab.cnt]).retire f := by
      rw [State.collHasFailed, State.core_collEnds_same, hsent.core]
      rfl
    obtain ⟨w11, w12, -, -⟩ := (s.core c.core.val).dw_record c.line.toNat f (.ofNat 32 (5 * 2 ^ 28 + 0x0504))
      (.ofNat 32 (cul.toNat * 2 ^ 20 + c.flags.toNat)) (.ofNat 32 c.written) (lo32 u.fab.cnt)
    rw [← hcore] at w11 w12
    refine ⟨u.collHasFailed c f eCollTimeout cul, ?_, u.collOf_dropColl c, ?_, rfl, rfl, w11, w12, ?_⟩
    · rw [exec_collDeadlineExpiry, State.collDeadline_fails hrun htag hc hx hb hd hfail hs, State.failColl_goesOn hb hof hr hflies]
      refine (s.sendAbort_leavesNoStream l c eCollTimeout cul).finish (State.out_collEnds ..) (congrArg Hbm.ownedLost ?_)
      exact (State.hbm_collEnds ..).trans hsent.hbm
    · rw [State.collHasFailed, State.col_collEnds, hsent.col]
    · rw [hcore, Core.flight_retire, Core.flight_setWords]

end Sys2Proof.Machine
end

section
/-!
What reports, messages and lost structures leave alone: the launches, and what the error block says of a drain.
-/

namespace Sys2Proof.Machine

variable {s t u : State}

/-- From `s` to `t` no launch changed, nor whether the device is drained and flagged, nor the count of shadow mismatches. -/
structure State.KeepsDrain (s t : State) : Prop where
  launches : t.launches = s.launches
  drained : t.err.drained = s.err.drained
  flagged : t.err.flagged = s.err.flagged
  shadowMiss : t.err.shadowMiss = s.err.shadowMiss

namespace State.KeepsDrain

theorem refl (s : State) : s.KeepsDrain s := ⟨rfl, rfl, rfl, rfl⟩

theorem of_eq (hl : t.launches = s.launches) (he : t.err = s.err) : s.KeepsDrain t := ⟨hl, by rw [he], by rw [he], by rw [he]⟩

theorem trans (h : s.KeepsDrain t) (h' : t.KeepsDrain u) : s.KeepsDrain u :=
  ⟨h'.launches.trans h.launches, h'.drained.trans h.drained, h'.flagged.trans h.flagged, h'.shadowMiss.trans h.shadowMiss⟩

/-- The same with the last step first: its own statement says which state lies between. -/
theorem trans' (h' : t.KeepsDrain u) (h : s.KeepsDrain t) : s.KeepsDrain u := h.trans h'

theorem foldl {α : Type} {f : State → α → State} (h : ∀ (v : State) (a : α), v.KeepsDrain (f v a)) (as : List α) (s : State) :
    s.KeepsDrain (as.foldl f s) :=
  List.foldlRecOn (motive := s.KeepsDrain) as f (.refl s) fun v hv a _ => hv.trans (h v a)

end State.KeepsDrain

theorem State.OnlyFab.keepsDrain (h : s.OnlyFab t) : s.KeepsDrain t := .of_eq (by rw [h]) (by rw [h])

theorem State.modQueue_keepsDrain (s : State) (qid : BitVec 12) (f : Queue → Queue) : s.KeepsDrain (s.modQueue qid f) := .of_eq rfl rfl
theorem State.modPool_keepsDrain (s : State) (q : Nat) (f : Pool → Pool) : s.KeepsDrain (s.modPool q f) := .of_eq rfl rfl
theorem State.withFab_keepsDrain (s : State) (f : Fab) : s.KeepsDrain { s with fab := f } := .of_eq rfl rfl
theorem State.withCol_keepsDrain (s : State) (b : ColBlk) : s.KeepsDrain { s with col := b } := .of_eq rfl rfl
theorem State.symOn_keepsDrain (s : State) (ps : List (Fin 6)) (y : Sym) : s.KeepsDrain (s.symOn ps y) := .of_eq rfl rfl
theorem State.withCores_keepsDrain (s : State) (t : Sparse Core) : s.KeepsDrain { s with cores := t } := .of_eq rfl rfl
theorem State.endUse_keepsDrain (s : State) (l : Launch) : s.KeepsDrain (s.endUse l) := .of_eq rfl rfl

/-! ### Messages that leave -/

theorem flushGo_keepsDrain (fuel : Nat) (qid : BitVec 12) (s : State) : s.KeepsDrain (flushGo fuel qid s) := by
  induction fuel generalizing s with
  | zero => exact .refl s
  | succ fuel ih =>
    simp only [flushGo]
    split
    · exact .refl s
    · split
      · exact (ih _).trans' (.of_eq rfl rfl)
      · exact .refl s

theorem State.flushTx_keepsDrain (s : State) (qid : BitVec 12) : s.KeepsDrain (s.flushTx qid) :=
  (flushGo_keepsDrain _ _ s).trans (.foldl (fun v _ => .foldl (fun w _ => flushGo_keepsDrain _ _ w) _ v) _ _)

theorem State.sendMsg_keepsDrain (s : State) (qid : BitVec 12) (m : TxMsg) : s.KeepsDrain (s.sendMsg qid m) :=
  (s.modQueue_keepsDrain qid _).trans (State.flushTx_keepsDrain _ qid)

theorem State.complete_keepsDrain (s : State) (qid : BitVec 12) (cookie : Word) (a : Answer) : s.KeepsDrain (s.complete qid cookie a) := by
  simp only [State.complete]
  split
  · exact .of_eq rfl rfl
  · exact (s.modQueue_keepsDrain qid _).trans (State.sendMsg_keepsDrain _ _ _)

theorem State.answerTest_keepsDrain (s : State) (qid : BitVec 12) (code : Code) (result : List Word) :
    s.KeepsDrain (s.answerTest qid code result) := by
  simp only [State.answerTest]
  split
  · exact (State.complete_keepsDrain _ _ _ _).trans (State.modQueue_keepsDrain _ _ _)
  · exact .refl s

theorem State.refuseTests_keepsDrain (s : State) : s.KeepsDrain s.refuseTests :=
  (State.KeepsDrain.foldl (fun v _ => v.answerTest_keepsDrain _ _ _) _ _).trans' (.of_eq rfl rfl)

/-! ### Records -/

theorem State.retire_keepsDrain (s : State) : s.KeepsDrain s.retire := by
  simp only [State.retire]
  split
  · exact .refl s
  · exact ⟨rfl, rfl, rfl, rfl⟩

theorem State.pushRec_keepsDrain (s : State) (i : RecInfo) : s.KeepsDrain (s.pushRec i).1 := by
  simp only [State.pushRec]
  split
  · exact .refl s
  · refine .trans ?_ (State.retire_keepsDrain _)
    split
    · exact (State.sendMsg_keepsDrain _ _ _).trans' ⟨rfl, rfl, rfl, rfl⟩
    · exact ⟨rfl, rfl, rfl, rfl⟩

theorem State.history_keepsDrain (s : State) (kind : BitVec 4) (unit : Nat) (what : HKind) : s.KeepsDrain (s.history kind unit what) :=
  ⟨rfl, rfl, rfl, rfl⟩

/-! ### The device's own structures, and subscribers -/

theorem State.ownRead_keepsDrain (s : State) (pa n : Nat) : s.KeepsDrain (s.ownRead pa n) := by
  simp only [State.ownRead]
  split
  · exact .of_eq rfl rfl
  · exact .refl s

theorem State.ownWrite_keepsDrain (s : State) (pa : Nat) (bs : List Byte) : s.KeepsDrain (s.ownWrite pa bs) := by
  simp only [State.ownWrite]
  split <;> exact .of_eq rfl rfl

theorem State.setKhdr_keepsDrain (s : State) (q x : Nat) (h : KHdr) : s.KeepsDrain (s.setKhdr q x h) := by
  simp only [State.setKhdr]
  split
  · exact .of_eq rfl rfl
  · exact s.ownWrite_keepsDrain _ _

theorem State.freePage_keepsDrain (s : State) (q x : Nat) : s.KeepsDrain (s.freePage q x) :=
  ((s.ownWrite_keepsDrain _ _).trans (State.ownWrite_keepsDrain _ _ _)).trans (State.modPool_keepsDrain _ q _)

theorem State.reclCompact_keepsDrain (s : State) (q : Nat) : s.KeepsDrain (s.reclCompact q) := by
  have hread : ∀ (v : State) (i : Nat), v.KeepsDrain (v.reclRead q i) := fun v i =>
    (v.ownRead_keepsDrain _ _).trans (State.ownRead_keepsDrain _ _ _)
  exact ((State.KeepsDrain.foldl (fun v _ => hread v _) _ s).trans (State.ownWrite_keepsDrain _ _ _)).trans (State.modPool_keepsDrain _ q _)

theorem State.reclAdd_keepsDrain (s : State) (q x : Nat) (gen : BitVec 16) : s.KeepsDrain (s.reclAdd q x gen) := by
  have hroom : s.KeepsDrain (if (s.pool q).reclLen ≥ 2 * (s.pool q).pages then s.reclCompact q else s) := by
    split
    · exact s.reclCompact_keepsDrain q
    · exact .refl s
  exact (hroom.trans (State.ownWrite_keepsDrain _ _ _)).trans (State.modPool_keepsDrain _ q _)

theorem State.clearPend_keepsDrain (s : State) (q x u : Nat) : s.KeepsDrain (s.clearPend q x u) := by
  simp only [State.clearPend]
  split
  · exact s.freePage_keepsDrain q x
  · split
    · exact (s.setKhdr_keepsDrain q x _).trans (State.reclAdd_keepsDrain _ _ _ _)
    · exact s.setKhdr_keepsDrain q x _

theorem State.dropSub_keepsDrain (s : State) (seq : Word) (u : Nat) (cause : BitVec 8) : s.KeepsDrain (s.dropSub seq u cause) := by
  simp only [State.dropSub]
  split
  · exact .refl s
  · exact (State.KeepsDrain.foldl (fun v _ => v.clearPend_keepsDrain _ _ _) _ s).trans
      ((State.sendMsg_keepsDrain _ _ _).trans' (.of_eq rfl rfl))

theorem State.dropSubs_keepsDrain (s : State) (seq : Word) (cause : BitVec 8) : s.KeepsDrain (s.dropSubs seq cause) :=
  .foldl (fun v _ => v.dropSub_keepsDrain _ _ _) _ s

/-! ### Launches that stop (04 R132) -/

theorem State.abortColls_keepsDrain (s : State) (l : Launch) : s.KeepsDrain (s.abortColls l) := by
  refine (State.withCol_keepsDrain _ _).trans' (.foldl (fun v c => ?_) _ s)
  have hrecord (f : Code × BitVec 12) : v.KeepsDrain (if c.isBarrier then v else v.recordFailure c f.1 f.2) := by
    split
    · exact .refl v
    · exact .of_eq rfl rfl
  dsimp only
  split
  · exact hrecord _
  · exact (hrecord _).trans (State.sendAbort_onlyFab _ _ _ _ _).keepsDrain

theorem State.keepObligations_keepsDrain (s : State) (l : Launch) : s.KeepsDrain (s.keepObligations l) := by
  simp only [State.keepObligations]
  split
  · exact .of_eq rfl rfl
  · exact .refl s

/-- A launch that stops leaves the list of launches, and the drain as it is. -/
theorem State.stopCore_keepsDrain (s : State) (l : Launch) (i : StopInfo) :
    ({ s with launches := s.launches.filter fun x => x.qid != l.qid } : State).KeepsDrain (s.stopCore l i).1 := by
  have hends : s.KeepsDrain (((s.abortColls l).endUse l).keepObligations l) :=
    ((s.abortColls_keepsDrain l).trans (State.endUse_keepsDrain _ l)).trans (State.keepObligations_keepsDrain _ l)
  have hcores (v : State) : v.KeepsDrain (if l.cond == .resident then v.mapCores Core.stop else v) := by
    split
    · exact v.withCores_keepsDrain _
    · exact .refl v
  have hrecord (r : RecInfo) := (hends.trans (State.pushRec_keepsDrain _ r)).trans (hcores _)
  refine ((State.complete_keepsDrain _ _ _ _).trans (State.modQueue_keepsDrain _ _ _)).trans' ?_
  exact ⟨congrArg (List.filter fun x => x.qid != l.qid) (hrecord _).launches, (hrecord _).drained, (hrecord _).flagged, (hrecord _).shadowMiss⟩

/-- Of launches that stop one after the other, none is left. -/
theorem State.stopAll_keepsDrain (info : Launch → StopInfo) (ls : List Launch) (s : State) (h : ∀ x ∈ s.launches, x ∈ ls) :
    ({ s with launches := [] } : State).KeepsDrain (ls.foldl (fun s l => (s.stopCore l (info l)).1) s) := by
  induction ls generalizing s with
  | nil => exact ⟨List.eq_nil_iff_forall_not_mem.2 fun x hx => List.not_mem_nil (h x hx), rfl, rfl, rfl⟩
  | cons l ls ih =>
    have hstop := s.stopCore_keepsDrain l (info l)
    refine (ih _ fun x hx => ?_).trans' ⟨rfl, hstop.drained, hstop.flagged, hstop.shadowMiss⟩
    rw [hstop.launches] at hx
    obtain ⟨hmem, hother⟩ := List.mem_filter.1 hx
    rcases List.mem_cons.1 (h x hmem) with rfl | hrest
    · simp at hother
    · exact hrest

/-! ### The drain (14 R427) -/

/-- What a drain makes of the launches and of the drain's own bits: no launch is left, and the device is drained and flagged. -/
def State.asDrained (s : State) : State := { s with launches := [], err := { s.err with drained := true, flagged := true } }

/-- A device that drains stops every launch. -/
theorem State.drain_fresh (cause : Code) (trigger : Option (BitVec 12 × StopInfo)) (h : s.err.drained = false) :
    s.asDrained.KeepsDrain (s.drain cause trigger) := by
  have hpower : s.KeepsDrain (if s.sec.stage = 7 then s.emit (.pwrGood false) else s) := by
    split
    · exact .of_eq rfl rfl
    · exact .refl s
  have hqueues (v : State) : v.KeepsDrain (v.qce.queues.foldl (fun s e => if e.2.valid then s.setQueueErr (.ofNat 12 e.1) eDrained else s) v) := by
    refine .foldl (fun w e => ?_) _ v
    split
    · exact .of_eq rfl rfl
    · exact .refl w
  simp only [State.drain, h, Bool.false_eq_true, if_false]
  refine (State.symOn_keepsDrain _ _ _).trans' ((State.withFab_keepsDrain _ _).trans' ?_)
  refine (hqueues _).trans' ?_
  refine (State.refuseTests_keepsDrain _).trans' ?_
  refine (State.KeepsDrain.foldl (fun v _ => v.dropSubs_keepsDrain _ _) _ _).trans' ?_
  refine (State.stopAll_keepsDrain _ _ _ fun _ hx => hx).trans' ?_
  exact ⟨rfl, rfl, rfl, hpower.shadowMiss⟩

/-- A drain of a device that is drained already only sets the flag. -/
theorem State.drain_again (cause : Code) (trigger : Option (BitVec 12 × StopInfo)) (h : s.err.drained = true) (hl : s.launches = []) :
    s.asDrained.KeepsDrain (s.drain cause trigger) := by
  simp only [State.drain, h, if_true]
  exact ⟨hl, rfl, rfl, rfl⟩

/-- A record that drains stops every launch, whether or not the ring had room for it (14 R419). -/
theorem State.logDrain_fresh (i : RecInfo) (trigger : Option (BitVec 12 × StopInfo)) (h : s.err.drained = false) :
    s.asDrained.KeepsDrain (s.logDrain i trigger) := by
  have hrec := s.pushRec_keepsDrain { i with outcome := 6 }
  simp only [State.logDrain, State.log]
  split
  · have hfull := hrec.trans (State.history_keepsDrain _ 8 0 .overflow)
    have hdrain := State.drain_fresh eLogOverflow none (hfull.drained.trans h)
    refine .trans ?_ (State.drain_again i.code trigger hdrain.drained hdrain.launches)
    exact ⟨rfl, rfl, rfl, hdrain.shadowMiss.trans hfull.shadowMiss⟩
  · refine .trans ?_ (State.drain_fresh i.code trigger (hrec.drained.trans h))
    exact ⟨rfl, rfl, rfl, hrec.shadowMiss⟩

end Sys2Proof.Machine
end

section
/-!
Strict mode's compare (14 R422-R427): one equation for each way that it can end, and the statement about them.
-/

namespace Sys2Proof.Machine

variable {s : State} {c : Fin 64} {i : Nat} {x : Shadow}

theorem exec_shadowCompare (c : Fin 64) (i : Nat) (shadow arbiter : BitVec 64) (s : State) :
    exec (.shadowCompare c i shadow arbiter) s = finishAll s (s.compareShadow c i shadow arbiter) := rfl

/-- The compare no longer waits. -/
def State.compared (s : State) (x : Shadow) : State := { s with err := { s.err with shadows := s.err.shadows.erase x } }

theorem State.compareShadow_unknown (shadow arbiter : BitVec 64) (h : (s.err.shadows.find? fun x => x.core == c && x.index == i) = none) :
    s.compareShadow c i shadow arbiter = s := by
  simp only [State.compareShadow, h]

theorem State.compareShadow_known (shadow arbiter : BitVec 64) (h : (s.err.shadows.find? fun x => x.core == c && x.index == i) = some x) :
    s.compareShadow c i shadow arbiter = if shadow = x.sig then s.compared x else (s.compared x).mismatch x shadow arbiter := by
  simp only [State.compareShadow, h, State.compared]

/-- One more mismatch is counted. -/
def State.missCounted (s : State) : State := { s with err := { s.err with shadowMiss := satInc s.err.shadowMiss } }

/-- A mismatch counts once and drains the device: its suspects change the history only (14 R424). -/
theorem State.mismatch_drains (x : Shadow) (shadow arbiter : BitVec 64) (h : s.err.drained = false) :
    s.missCounted.asDrained.KeepsDrain (s.mismatch x shadow arbiter) := by
  have hsuspects : s.missCounted.KeepsDrain ((s.suspects x shadow arbiter).foldl (fun s p => s.history 1 p .suspect) s.missCounted) :=
    .foldl (fun v p => v.history_keepsDrain 1 p .suspect) _ _
  simp only [State.mismatch]
  refine (State.logDrain_fresh _ _ (hsuspects.drained.trans h)).trans' ?_
  exact ⟨rfl, rfl, rfl, hsuspects.shadowMiss⟩

/-- Settles O33: the compare ends in one of three ways, and a mismatch drains the device, which leaves no launch. -/
theorem shadowCompares : Obligations.ShadowCompares := by
  intro s c i sh ar
  refine ⟨fun hnone => ?unknown, fun x hx => ⟨fun hsame => ?agrees, fun hdiff => ⟨?differs, fun hd => ?drains⟩⟩⟩
  case unknown => rw [exec_shadowCompare, finishAll_eq, State.compareShadow_unknown sh ar hnone]
  case agrees => rw [exec_shadowCompare, finishAll_eq, State.compareShadow_known sh ar hx, if_pos hsame, State.compared]
  case differs => rw [exec_shadowCompare, finishAll_eq, State.compareShadow_known sh ar hx, if_neg hdiff, State.compared]
  case drains =>
    have hdrain := State.mismatch_drains (s := s.compared x) x sh ar hd
    refine ⟨hdrain.drained, hdrain.flagged, hdrain.shadowMiss, ?_⟩
    exact congrArg (List.find? fun l => l.qid == x.qid) hdrain.launches

end Sys2Proof.Machine
end

section
/-!
The end of a state copy (14 R413, 15 R444): one equation for each use of it, and the statement about them.
-/

namespace Sys2Proof.Machine

variable {s : State} {set : Fin 8} {x : Takeover}

theorem exec_takeoverCopyComplete (set : Fin 8) (bad : List CopyFault) (s : State) :
    exec (.takeoverCopyComplete set bad) s = finishAll s (s.takeoverDone set bad).1 := rfl

/-- The role goes from the core that gave it to the one that takes it, and the set's copy is over. -/
def State.roleMoved (s : State) (set : Fin 8) (x : Takeover) : State :=
  ({ s with err := { s.err with takeovers := s.err.takeovers.filter fun t => t.set != set } } : State).setRole set.val x.dst.val
    (s.role set.val x.src.val)

/-- A fence's copy with no lost word: the core that gave the role is fenced. -/
theorem State.takeoverDone_fence (h : (s.err.takeovers.find? fun t => t.set == set) = some x) (hw : x.why = .fence) :
    s.takeoverDone set [] = ((s.roleMoved set x).markFenced set.val x.src.val false, true) := by
  simp only [State.takeoverDone, h, hw, copyWords, State.roleMoved]
  rfl

/-- A swap's copy with no lost word: the core that gave the role is tested. -/
theorem State.takeoverDone_swap (h : (s.err.takeovers.find? fun t => t.set == set) = some x) (hw : x.why = .swap) :
    let u := s.roleMoved set x
    s.takeoverDone set [] = (({ u with tst := { u.tst with swaps := u.tst.swaps + 1 } } : State).startTest set.val x.src .swap, true) := by
  simp only [State.takeoverDone, h, hw, copyWords, State.roleMoved]
  rfl

/-- Settles O32: a copy with no lost word ends as its use says, and anything that waited goes on after it. -/
theorem takeoverEnds : Obligations.TakeoverEnds := by
  intro s set x hx
  refine ⟨fun hfence => ?fence, fun hswap => ?swap⟩
  case fence => rw [exec_takeoverCopyComplete, finishAll_eq, State.takeoverDone_fence hx hfence, State.markFenced, State.roleMoved, coreUnit]
  case swap => rw [exec_takeoverCopyComplete, finishAll_eq, State.takeoverDone_swap hx hswap, State.roleMoved]

end Sys2Proof.Machine
end

section
/-!
In-field test (15 R440-R445): when a set becomes due, one equation for each way that a case ends, the end of a swap's test that passed, and the
statement about them.
-/

namespace Sys2Proof.Machine

/-! ### The core map and the test slots -/

theorem sget_eq_find? {α : Type} (d : α) (t : Sparse α) (k : Nat) : sget d t k = ((t.find? fun e => e.1 == k).map (·.2)).getD d := by
  induction t with
  | nil => rfl
  | cons e t ih =>
    by_cases hk : e.1 = k
    · simp [sget, hk]
    · simp [sget, hk, ih]

/-- The core map is a sparse table whose default is the role of a fresh module. -/
theorem State.role_eq_sget (s : State) (set p : Nat) : s.role set p = sget (.ofNat 4 p) s.err.roles (9 * set + p) := by
  rw [State.role, sget_eq_find?]
  cases List.find? (fun e => e.1 == 9 * set + p) s.err.roles <;> rfl

@[simp] theorem State.role_setRole_same (s : State) (set p : Nat) (r : BitVec 4) : (s.setRole set p r).role set p = r := by
  simp only [State.role_eq_sget, State.setRole, sget_sset_same]

/-- Where no request is listed, none is left to drop. -/
theorem State.withRequests_nil {s : State} (h : s.tst.requests = []) : ({ s with tst := { s.tst with requests := [] } } : State) = s := by
  rw [← h]

/-! ### The commands -/

variable {s : State} {set : Fin 8} {t : Test} {c : TCase}

theorem exec_rotationDue (set : Fin 8) (s : State) : exec (.rotationDue set) s = .next (s.after (s.rotationDue set)) :=
  finishAll_eq s _

theorem exec_testCaseRun_slot (set : Fin 8) (o : CaseOutcome) (s : State) :
    exec (.testCaseRun (.slot set) o) s = .next (s.after (s.slotCase set o State.retireGranule)) :=
  finishAll_eq s _

theorem exec_testCaseLimit_slot (set : Fin 8) (s : State) : exec (.testCaseLimit (.slot set)) s = .next (s.caseLimit (.slot set)) := rfl

theorem exec_testEnd_slot (set : Fin 8) (s : State) : exec (.testEnd (.slot set)) s = .next (s.after (s.endSlotTest set).1) :=
  finishAll_eq s _

/-! ### A set becomes due (15 R442) -/

/-- The set has a spare, and its interval has passed since its last swap. -/
def State.rotationReady (s : State) (set : Fin 8) : Prop :=
  s.tst.rotEn = true ∧ s.coreWith set.val 8 ≠ none ∧ sget 0 s.tst.lastSwap set.val + s.tst.interval.toNat ≤ s.err.opsec

theorem State.rotationDue_ready (h : s.rotationReady set) :
    s.rotationDue set = { s with tst := { s.tst with due := s.tst.due ||| (1#8 <<< set.val) } } := by
  obtain ⟨hen, hspare, hpassed⟩ := h
  have hsome : (s.coreWith set.val 8).isSome = true := Option.isSome_iff_ne_none.2 hspare
  exact if_pos (by simp only [hen, hsome, ge_iff_le, decide_eq_true hpassed, Bool.and_self])

theorem State.rotationDue_not_ready (h : ¬ s.rotationReady set) : s.rotationDue set = s :=
  if_neg fun hcond => h (by simpa [State.rotationReady, Option.isSome_iff_ne_none, and_assoc] using hcond)

/-! ### The limit of a case (15 R440) -/

theorem State.caseLate_iff {began : Dword} : s.caseLate began c = true ↔ c.limit ≤ (s.fab.cnt - began).toNat := decide_eq_true_iff

theorem State.caseLate_eq_false {began : Dword} (h : (s.fab.cnt - began).toNat < c.limit) : s.caseLate began c = false :=
  decide_eq_false (Nat.not_le.2 h)

theorem State.caseLimit_ended (ht : s.slotTest set.val = some t) (hv : t.verdict ≠ .running) : s.caseLimit (.slot set) = s := by
  simp [State.caseLimit, ht, hv]

theorem State.caseLimit_late (ht : s.slotTest set.val = some t) (hc : t.pack.cases[t.case]? = some c) (hv : t.verdict = .running)
    (hl : s.caseLate t.began c = true) : s.caseLimit (.slot set) = s.setSlot set.val (some { t with verdict := .limit }) := by
  simp [State.caseLimit, ht, hc, hv, hl]

theorem State.caseLimit_early (ht : s.slotTest set.val = some t) (hc : t.pack.cases[t.case]? = some c)
    (hl : s.caseLate t.began c = false) : s.caseLimit (.slot set) = s := by
  simp [State.caseLimit, ht, hc, hl]

/-! ### The bytes that a case leaves (15 R440) -/

@[simp] theorem State.fab_loadCase (s : State) (n : Nat) (c : TCase) (bs : List Byte) : (s.loadCase n c bs).fab = s.fab := rfl

/-- The digest of a case is the digest of the bytes that it left after its input. -/
theorem State.caseDigest_loadCase {bs : List Byte} (n : Nat) (h : bs.length = c.outLen) : (s.loadCase n c bs).caseDigest n c = digest128 bs := by
  simp only [State.caseDigest, State.loadCase, ← h, List.take_length, sread_swrite]

theorem caseVerdict_same (d : BitVec 128) : caseVerdict d d = none := if_pos rfl

theorem caseVerdict_differs {expect got : BitVec 128} (h : expect ≠ got) : caseVerdict expect got = some .mismatch := if_neg h.symm

/-! ### How a case ends (15 R440, R441) -/

section
variable {retire : State → BitVec 25 → State}

theorem State.slotCase_late (ht : s.slotTest set.val = some t) (hc : t.pack.cases[t.case]? = some c) (hv : t.verdict = .running)
    (hl : s.caseLate t.began c = true) (o : CaseOutcome) :
    s.slotCase set o retire = s.setSlot set.val (some { t with verdict := .limit }) := by
  simp [State.slotCase, ht, hc, hv, hl]

/-- The set's test runs its case `c`, whose limit has not passed. -/
structure State.RunsCase (s : State) (set : Fin 8) (t : Test) (c : TCase) : Prop where
  slot : s.slotTest set.val = some t
  case : t.pack.cases[t.case]? = some c
  running : t.verdict = .running
  early : s.caseLate t.began c = false

namespace State.RunsCase

theorem detection (h : s.RunsCase set t c) : s.slotCase set .detection retire = s.setSlot set.val (some { t with verdict := .detection }) := by
  simp [State.slotCase, h.slot, h.case, h.running, h.early]

/-- A first detection of memory retires the granule, and the case begins again. -/
theorem hbmDetect (h : s.RunsCase set t c) (hr : t.retried = false) (g : BitVec 25) :
    s.slotCase set (.hbmDetect g) retire = (retire s g).setSlot set.val (some { t with retried := true, began := (retire s g).fab.cnt }) := by
  simp [State.slotCase, h.slot, h.case, h.running, h.early, hr]

variable {bs : List Byte}

theorem mismatch (h : s.RunsCase set t c) (hlen : bs.length = c.outLen) (hd : c.expect ≠ digest128 bs) :
    s.slotCase set (.ended bs) retire = (s.loadCase set.val c bs).setSlot set.val (some { t with verdict := .mismatch }) := by
  simp [State.slotCase, h.slot, h.case, h.running, h.early, State.caseDigest_loadCase _ hlen, caseVerdict_differs hd]

theorem goesOn (h : s.RunsCase set t c) (hlen : bs.length = c.outLen) (hd : c.expect = digest128 bs) {j : Nat}
    (hj : t.pack.nextCase false (t.case + 1) = some j) :
    s.slotCase set (.ended bs) retire =
      (s.loadCase set.val c bs).setSlot set.val (some { t with case := j, retried := false, began := s.fab.cnt }) := by
  simp [State.slotCase, h.slot, h.case, h.running, h.early, State.caseDigest_loadCase _ hlen, hd, caseVerdict_same, hj]

/-- After the last case the test of a swap passes. -/
theorem passes (h : s.RunsCase set t c) (hlen : bs.length = c.outLen) (hd : c.expect = digest128 bs)
    (hlast : t.pack.nextCase false (t.case + 1) = none) (hw : t.why = .swap) :
    s.slotCase set (.ended bs) retire =
      (s.loadCase set.val c bs).setSlot set.val (some { t with case := t.pack.cases.length, verdict := .pass }) := by
  simp [State.slotCase, h.slot, h.case, h.running, h.early, State.caseDigest_loadCase _ hlen, hd, caseVerdict_same, hlast, hw]

end State.RunsCase

end

/-! ### How a test ends (15 R441, R445) -/

theorem State.endSlotTest_running (ht : s.slotTest set.val = some t) (hv : t.verdict = .running) : s.endSlotTest set = (s, false) := by
  simp [State.endSlotTest, ht, hv]

/-- The set's slot is free, and the test's pass is counted. -/
def State.passCounted (s : State) (set : Fin 8) (t : Test) : State :=
  (s.setSlot set.val none).countVerdict .pass set.val t.pcore.val t.case

/-- The core of a swap has passed: the pass is counted and in the history, and the core is its set's spare. -/
def State.sparePassed (s : State) (set : Fin 8) (t : Test) : State :=
  ((s.passCounted set t).history 1 (9 * set.val + t.pcore.val) (.pass t.pack.seq)).setRole set.val t.pcore.val 8

theorem State.tst_sparePassed : (s.sparePassed set t).tst = { s.tst with
    slots := sset none s.tst.slots set.val none, passes := satInc s.tst.passes,
    last := .ofNat 32 (set.val * 2 ^ 28 + t.pcore.val * 2 ^ 24 + 1 * 2 ^ 21 + t.case % 65536) } := rfl

theorem State.slotTest_sparePassed : (s.sparePassed set t).slotTest set.val = none := by
  rw [State.slotTest, State.tst_sparePassed, sget_sset_same]

theorem State.role_sparePassed : (s.sparePassed set t).role set.val t.pcore.val = 8 := State.role_setRole_same ..

theorem State.history_sparePassed : (s.sparePassed set t).err.history = trimHistory s.err.history s.err.opsec ++
    [{ kind := 1, unit := 9 * set.val + t.pcore.val, what := .pass t.pack.seq, second := s.err.opsec }] := rfl

/-- A core under test, in a set with no copy under way, takes the role that its verdict gives it. -/
theorem State.underTest (hrole : s.role set.val t.pcore.val = 0xA) (hcopy : ∀ x ∈ s.err.takeovers, x.set ≠ set) :
    (s.role set.val t.pcore.val == 0xA && !(s.err.takeovers.any fun x => x.set == set)) = true := by
  simpa [hrole] using hcopy

/-- The test of a swap that passed, where no request waits and no copy of the set is under way. -/
theorem State.endSlotTest_passed (ht : s.slotTest set.val = some t) (hr : s.tst.requests = []) (hv : t.verdict = .pass)
    (hw : t.why = .swap) (hrole : s.role set.val t.pcore.val = 0xA) (hcopy : ∀ x ∈ s.err.takeovers, x.set ≠ set) :
    s.endSlotTest set = (s.sparePassed set t, true) := by
  have hreq : (s.passCounted set t).tst.requests = [] := hr
  have hmine := (s.passCounted set t).underTest (set := set) (t := t) hrole hcopy
  simp only [State.passCounted] at hreq hmine
  simp only [State.endSlotTest, ht, hv, hw, hreq, List.filter_nil, List.foldl_nil, State.withRequests_nil hreq, hmine]
  rfl

/-! ### The statement -/

/-- Settles O59: whether the set is due, whether the case's limit has passed, and what the case leaves each pick one equation. -/
theorem testing : Obligations.Testing := by
  refine ⟨fun s set => ⟨fun hready => ?due, fun hready => ?notDue⟩, fun s set t ht => ⟨fun hv => ?verdictGiven, fun c o hc hv hlate => ?late,
    fun c hc hv hearly => ?runs⟩, fun s set t ht hr => ⟨fun hv => ?endRunning, fun hv hw hrole hcopy => ?endPassed⟩⟩
  case due => rw [exec_rotationDue, State.rotationDue_ready hready]
  case notDue => rw [exec_rotationDue, State.rotationDue_not_ready hready]
  case verdictGiven => rw [exec_testCaseLimit_slot, State.caseLimit_ended ht hv]
  case late =>
    have hl := State.caseLate_iff.2 hlate
    exact ⟨by rw [exec_testCaseLimit_slot, State.caseLimit_late ht hc hv hl],
      by rw [exec_testCaseRun_slot, State.slotCase_late ht hc hv hl]⟩
  case runs =>
    have h : s.RunsCase set t c := ⟨ht, hc, hv, State.caseLate_eq_false hearly⟩
    refine ⟨?_, ?_, fun g hretried => ?_, fun bs hlen => ⟨fun hd => ?_, fun hd j hj => ?_, fun hd hlast hw => ?_⟩⟩
    · rw [exec_testCaseLimit_slot, State.caseLimit_early ht hc h.early]
    · rw [exec_testCaseRun_slot, h.detection]
    · rw [exec_testCaseRun_slot, h.hbmDetect hretried]
    · rw [exec_testCaseRun_slot, h.mismatch hlen hd]
    · rw [exec_testCaseRun_slot, h.goesOn hlen hd hj]
    · rw [exec_testCaseRun_slot, h.passes hlen hd hlast hw]
  case endRunning => rw [exec_testEnd_slot, State.endSlotTest_running ht hv]
  case endPassed =>
    refine ⟨s.sparePassed set t, ?_, ?_, ?_, ?_, ?_, ?_, ?_⟩
    · rw [exec_testEnd_slot, State.endSlotTest_passed ht hr hv hw hrole hcopy]
    · exact State.slotTest_sparePassed
    · exact State.role_sparePassed
    · rw [State.tst_sparePassed]
    · rw [State.tst_sparePassed]
    · rw [State.tst_sparePassed]
    · exact ⟨_, State.history_sparePassed, rfl, rfl⟩

end Sys2Proof.Machine
end

section
/-!
The input switch (16 R478, R480): what a module that loses its power keeps, what an opening does, and the statement about both.
-/

namespace Sys2Proof.Machine

variable {s : State}

/-! ### Loss of power (16 R480, 17 R508) -/

/-- `t` is `s` without its power: no launch and no core state is left, and what is in flash and in fuses stays, as do the commands
that wait. -/
structure State.LosesPower (s t : State) : Prop where
  powered : t.sec.powered = false
  launches : t.launches = []
  cores : t.cores = []
  flashA : t.sec.flashA = s.sec.flashA
  flashB : t.sec.flashB = s.sec.flashB
  svn : t.sec.svn = s.sec.svn
  history : t.err.history = s.err.history
  remap : t.hbm.remap = s.hbm.remap
  pending : t.pending = s.pending

/-- PWR_GOOD falls when a module in service loses its power, and it loses the same without. -/
theorem State.powerDown_losesPower (s : State) : s.LosesPower s.powerDown := by
  unfold State.powerDown
  split
  · exact ⟨rfl, rfl, rfl, rfl, rfl, rfl, rfl, rfl, rfl⟩
  · exact ⟨rfl, rfl, rfl, rfl, rfl, rfl, rfl, rfl, rfl⟩

/-- What is then written into the power block brings nothing back. -/
theorem State.LosesPower.modPwr {t : State} (h : s.LosesPower t) (f : Pwr → Pwr) : s.LosesPower (t.modPwr f) :=
  ⟨h.powered, h.launches, h.cores, h.flashA, h.flashB, h.svn, h.history, h.remap, h.pending⟩

/-! ### The switch -/

theorem State.openSwitch_opened (why : Opening) (latch present : Bool) (h : s.pwr.switch = .opened) : s.openSwitch why latch present = s :=
  if_pos h

theorem State.openSwitch_closed (why : Opening) (latch present : Bool) (h : s.pwr.switch ≠ .opened) :
    s.openSwitch why latch present = s.powerDown.modPwr fun p => { p with opening := why, latched := latch, present := present } :=
  if_neg h

theorem State.powerDown_switch (s : State) : s.powerDown.pwr.switch = .opened := by
  unfold State.powerDown
  rfl

theorem State.charge_starts (h : s.pwr.switch = .opened) (hl : s.pwr.latched = false) :
    s.charge = { s with pwr := { s.pwr with switch := .charging, present := true } } :=
  if_pos ⟨h, hl⟩

theorem State.charge_stays (h : s.pwr.switch ≠ .opened ∨ s.pwr.latched = true) : s.charge = s :=
  if_neg fun ⟨ho, hl⟩ => h.elim (· ho) fun hlatched => by rw [hl] at hlatched; cases hlatched

theorem State.charged_closes (h : s.pwr.switch = .charging) :
    s.charged = { s with pwr := { s.pwr with switch := .closed }, sec := { s.sec with powered := true } } :=
  if_pos h

theorem State.charged_stays (h : s.pwr.switch ≠ .charging) : s.charged = s := if_neg h

theorem State.absentRelease_releases (h : s.pwr.switch = .opened) :
    s.absentRelease = { s with pwr := { s.pwr with latched := false, present := false } } :=
  if_pos h

theorem State.absentRelease_stays (h : s.pwr.switch ≠ .opened) : s.absentRelease = s := if_neg h

/-! ### The statement -/

/-- Settles O47: every opening is `openSwitch` with its own cause and latch, and takes the power away unless the switch is open already. -/
theorem inputStage : Obligations.InputStage := by
  intro s opens
  have hopens (c : Instr) (why : Opening) (latch present : Bool) (hc : exec c s = .next (s.openSwitch why latch present)) :
      opens c why latch present := by
    refine ⟨fun h => by rw [hc, State.openSwitch_opened _ _ _ h], fun h => ?_⟩
    have hlost := s.powerDown_losesPower.modPwr fun p => { p with opening := why, latched := latch, present := present }
    rw [hc, State.openSwitch_closed _ _ _ h]
    exact ⟨_, rfl, s.powerDown_switch, rfl, rfl, rfl, hlost.powered, hlost.launches, hlost.cores, hlost.flashA, hlost.flashB, hlost.svn,
      hlost.history, hlost.remap, hlost.pending⟩
  exact ⟨hopens _ _ _ _ rfl, hopens _ _ _ _ rfl, hopens _ _ _ _ rfl, hopens _ _ _ _ rfl,
    fun h hl => congrArg _ (State.charge_starts h hl), fun h => congrArg _ (State.charge_stays h),
    fun h => congrArg _ (State.charged_closes h), fun h => congrArg _ (State.charged_stays h),
    fun h => congrArg _ (State.absentRelease_releases h), fun h => congrArg _ (State.absentRelease_stays h)⟩

end Sys2Proof.Machine
end

section
/-!
The power domains of the sets: what a change of one set and of several leaves of each, and how the thermal rules move ceilings and
trips (16 R463, R464, R472).
-/

namespace Sys2Proof.Machine

variable {s t u : State}

/-! ### A set reads as it was last changed -/

@[simp] theorem State.pset_modSet_same (s : State) (i : Nat) (f : PSet → PSet) : (s.modSet i f).pset i = f (s.pset i) :=
  sget_smod_same ({} : PSet) s.pwr.sets i f

theorem State.pset_modSet_other (s : State) {i j : Nat} (f : PSet → PSet) (h : j ≠ i) : (s.modSet i f).pset j = s.pset j :=
  sget_smod_other ({} : PSet) s.pwr.sets i j f h

/-- A field that the change of a set keeps reads as before for every set. -/
theorem State.pset_modSet_field {α : Type} (g : PSet → α) (f : PSet → PSet) (h : ∀ p, g (f p) = g p) (s : State) (i j : Nat) :
    g ((s.modSet i f).pset j) = g (s.pset j) := by
  by_cases hj : j = i
  · rw [hj, State.pset_modSet_same, h]
  · rw [State.pset_modSet_other s f hj]

/-- `t` differs from `s` in the power domains of the sets only. -/
def State.OnlySets (s t : State) : Prop := t = { s with pwr := { s.pwr with sets := t.pwr.sets } }

theorem State.OnlySets.refl (s : State) : s.OnlySets s := rfl

theorem State.OnlySets.trans (h : s.OnlySets t) (h' : t.OnlySets u) : s.OnlySets u :=
  Eq.trans h' (congrArg (fun v : State => { v with pwr := { v.pwr with sets := u.pwr.sets } }) h)

theorem State.onlySets_modSet (s : State) (i : Nat) (f : PSet → PSet) : s.OnlySets (s.modSet i f) := rfl

/-- A field of the power block that is not the sets reads as before. -/
theorem State.OnlySets.pwr_field {α : Type} (h : s.OnlySets t) (k : Pwr → α) (hk : ∀ (p : Pwr) x, k { p with sets := x } = k p) :
    k t.pwr = k s.pwr := by
  rw [h, hk]

theorem State.OnlySets.onlyPwr (h : s.OnlySets t) : t = { s with pwr := t.pwr } := by rw [h]

/-! ### Changes of several sets, one after the other -/

theorem State.onlySets_foldl_modSet (g : Nat → PSet → PSet) (is : List Nat) (s : State) :
    s.OnlySets (is.foldl (fun s i => s.modSet i (g i)) s) :=
  List.foldlRecOn (motive := s.OnlySets) is _ (.refl s) fun v hv i _ => hv.trans (v.onlySets_modSet i (g i))

theorem State.pset_foldl_modSet (g : Nat → PSet → PSet) (is : List Nat) (hd : is.Nodup) (s : State) (j : Nat) :
    (is.foldl (fun s i => s.modSet i (g i)) s).pset j = if j ∈ is then g j (s.pset j) else s.pset j := by
  induction is generalizing s with
  | nil => rfl
  | cons i is ih =>
    obtain ⟨hi, hd⟩ := List.nodup_cons.1 hd
    rw [List.foldl_cons, ih hd]
    by_cases hj : j = i
    · subst hj
      simp [hi]
    · simp [hj, State.pset_modSet_other s (g i) hj]

/-- Each of the eight sets, changed in its turn. -/
theorem State.pset_eachSet (g : Nat → PSet → PSet) (s : State) {j : Nat} (hj : j < 8) :
    ((List.range 8).foldl (fun s i => s.modSet i (g i)) s).pset j = g j (s.pset j) := by
  rw [State.pset_foldl_modSet g _ List.nodup_range, if_pos (List.mem_range.2 hj)]

/-- A field that the changes keep reads as before for every set. -/
theorem State.pset_eachSet_field {α : Type} (k : PSet → α) (g : Nat → PSet → PSet) (h : ∀ i p, k (g i p) = k p) (s : State) (j : Nat) :
    k (((List.range 8).foldl (fun s i => s.modSet i (g i)) s).pset j) = k (s.pset j) := by
  rw [State.pset_foldl_modSet g _ List.nodup_range]
  split
  · exact h j _
  · rfl

theorem State.onlySets_modSets (s : State) (f : PSet → PSet) : s.OnlySets (s.modSets f) :=
  State.onlySets_foldl_modSet (fun _ => f) _ s

theorem State.pset_modSets (s : State) (f : PSet → PSet) {j : Nat} (hj : j < 8) : (s.modSets f).pset j = f (s.pset j) :=
  State.pset_eachSet (fun _ => f) s hj

/-! ### Ceilings (16 R472) -/

/-- A set's ceiling after a step of 1 ms, when a stack is at 90 C or more (`hot`), or every stack at 86 C or less (`cool`). -/
def PSet.ceilingAfter (p : PSet) (tenth hot cool : Bool) (reading : Nat) : BitVec 3 :=
  if reading ≥ 100 ∨ hot = true then (if p.ceiling = 0 then 0 else p.ceiling - 1)
  else if tenth && cool && decide (reading ≤ 96) && p.ceiling != 7 then p.ceiling + 1 else p.ceiling

variable {tenth : Bool} {tj hbm : List Nat}

theorem State.thermalStep_onlyPwr : s.thermalStep tenth tj hbm = { s with pwr := (s.thermalStep tenth tj hbm).pwr } :=
  (State.onlySets_foldl_modSet _ _ _).onlyPwr

theorem State.ceiling_thermalStep {c : Nat} (hc : c < 8) : ((s.thermalStep tenth tj hbm).pset c).ceiling =
    (s.pset c).ceilingAfter tenth (hbm.any fun t => decide (t ≥ 90)) (hbm.all fun t => decide (t ≤ 86)) (tj.getD c 0) := by
  rw [State.thermalStep, State.pset_eachSet _ _ hc]
  rfl

theorem PSet.ceilingAfter_falls {p : PSet} {hot cool : Bool} {reading : Nat} (h : 100 ≤ reading ∨ hot = true) :
    p.ceilingAfter tenth hot cool reading = if p.ceiling = 0 then 0 else p.ceiling - 1 :=
  if_pos h

theorem PSet.ceilingAfter_rises {p : PSet} {reading : Nat} (h : reading ≤ 96) :
    p.ceilingAfter tenth false true reading = if tenth = true ∧ p.ceiling ≠ 7 then p.ceiling + 1 else p.ceiling := by
  have hlow : ¬ (reading ≥ 100) := by omega
  simp [PSet.ceilingAfter, hlow, h]

theorem PSet.ceilingAfter_stays {p : PSet} {cool : Bool} {reading : Nat} (hlow : reading < 100) (hhigh : 96 < reading) :
    p.ceilingAfter tenth false cool reading = p.ceiling := by
  have h1 : ¬ (reading ≥ 100) := by omega
  have h2 : ¬ (reading ≤ 96) := by omega
  simp [PSet.ceilingAfter, h1, h2]

/-! ### Trips and their release (16 R472) -/

variable {i : Fin 8} {j : Fin 4} {n : Nat}

/-- The reading of a set's sensor. -/
def State.withTj (s : State) (i : Fin 8) (n : Nat) : State := s.modSet i.val fun p => { p with tj := temp8 n }

/-- The reading of a stack's sensor. -/
def State.withTemp (s : State) (j : Fin 4) (n : Nat) : State := s.modPwr fun p => { p with temps := sset 0 p.temps j.val (temp8 n) }

theorem State.tripped_withTj : ((s.withTj i n).pset i.val).tripped = (s.pset i.val).tripped := by
  rw [State.withTj, State.pset_modSet_same]

theorem State.thermalTrip_set_stays (h : n < 105 ∨ (s.pset i.val).tripped = true) : s.thermalTrip (.set i) n = s.withTj i n := by
  refine if_neg fun ⟨hn, ht⟩ => ?_
  rw [← State.withTj, State.tripped_withTj] at ht
  rcases h with hlow | hon
  · omega
  · rw [hon] at ht
    cases ht

theorem State.thermalTrip_set_trips (hn : 105 ≤ n) (ht : (s.pset i.val).tripped = false) : s.thermalTrip (.set i) n =
    ((s.withTj i n).modSet i.val fun p => { p with tripped := true }).log { code := eThermalTrip, source := 4, kind := 8 } :=
  if_pos ⟨hn, State.tripped_withTj.trans ht⟩

theorem State.thermalRelease_set_releases (hn : n ≤ 95) (ht : (s.pset i.val).tripped = true) : s.thermalRelease (.set i) n =
    (s.withTj i n).modSet i.val fun p => { p with tripped := false, point := 0, lowerDue := false, raising := false, settled := false } :=
  if_pos ⟨hn, State.tripped_withTj.trans ht⟩

theorem State.thermalRelease_set_stays (h : 95 < n ∨ (s.pset i.val).tripped = false) : s.thermalRelease (.set i) n = s.withTj i n := by
  refine if_neg fun ⟨hn, ht⟩ => ?_
  rw [← State.withTj, State.tripped_withTj] at ht
  rcases h with hhigh | hoff
  · omega
  · rw [hoff] at ht
    cases ht

theorem State.thermalTrip_hbm_trips (hn : 95 ≤ n) (ht : s.pwr.hbmTrip = false) : s.thermalTrip (.hbm j) n =
    (((s.withTemp j n).modPwr fun p => { p with hbmTrip := true }).modSets fun p => { p with raising := false, settled := false }).log
      { code := eThermalTrip, source := 4, kind := 8 } :=
  if_pos ⟨hn, ht⟩

theorem State.thermalRelease_hbm_releases (h : ∀ k, k < 4 → (sget 0 (s.withTemp j n).pwr.temps k).toNat ≤ 88) :
    s.thermalRelease (.hbm j) n = (s.withTemp j n).modPwr fun p => { p with hbmTrip := false } :=
  if_pos (List.all_eq_true.2 fun k hk => decide_eq_true (h k (List.mem_range.1 hk)))

end Sys2Proof.Machine
end

section
/-!
The tick of the power controller (16 R465, R469, R470, R481): which set it moves, what a move and what the rest of the tick leave alone.
-/

namespace Sys2Proof.Machine

variable {s t u : State} {smp : PowerSample}

/-! ### The choice of a set (16 R469) -/

/-- A choice begun with `j` ends with `j` or with one of the list. -/
theorem pickSet_foldl (better : Nat → Nat → Bool) (key : Nat → Nat) (is : List Nat) (j : Nat) :
    ∃ i ∈ j :: is, is.foldl (fun b i => match b with
      | none => some i
      | some j => if better (key i) (key j) then some i else some j) (some j) = some i := by
  induction is generalizing j with
  | nil => exact ⟨j, by simp, rfl⟩
  | cons i is ih =>
    obtain ⟨k, hk, hfold⟩ := ih (if better (key i) (key j) then i else j)
    refine ⟨k, ?_, ?_⟩
    · rcases List.mem_cons.1 hk with rfl | hk
      · split <;> simp
      · simp [hk]
    · rw [← hfold, List.foldl_cons]
      simp only [apply_ite some]

/-- Of a list that is not empty one is chosen. -/
theorem pickSet_mem (better : Nat → Nat → Bool) (key : Nat → Nat) {is : List Nat} (h : is ≠ []) :
    ∃ i ∈ is, pickSet better key is = some i := by
  cases is with
  | nil => exact absurd rfl h
  | cons j is => exact pickSet_foldl better key is j

/-! ### The move (16 R469, R470) -/

/-- The mean of the last ten estimates exceeds the limit. -/
def State.overLimit (s : State) : Prop := s.meanTen.1 > s.pwr.limit * s.meanTen.2

/-- The sets above point 0. -/
def State.raisedSets (s : State) : List Nat := (List.range 8).filter fun i => decide ((s.pset i).point ≠ 0)

theorem State.mem_raisedSets {i : Nat} : i ∈ s.raisedSets ↔ i < 8 ∧ (s.pset i).point ≠ 0 := by simp [State.raisedSets]

/-- A set is to be lowered at the next boundary. -/
def PSet.toLower (p : PSet) : PSet := { p with lowerDue := true, raising := false, settled := false }

/-- Over the limit with every set at point 0, the arrays are paced. -/
theorem State.controlMove_paces (ho : s.overLimit) (h : s.raisedSets = []) :
    s.controlMove smp = s.modPwr fun p => { p with pace := if p.pace ≤ 1 then 1 else p.pace - 1 } :=
  (if_pos ho).trans (if_pos (List.isEmpty_iff.2 h))

/-- Over the limit with a set above point 0, one such set is to be lowered. -/
theorem State.controlMove_lowers (ho : s.overLimit) (h : s.raisedSets ≠ []) :
    ∃ j ∈ s.raisedSets, s.controlMove smp = s.modSet j PSet.toLower := by
  have hcand (free : List Nat) (hfree : ∀ k ∈ free, k ∈ s.raisedSets) :
      (if free.isEmpty then s.raisedSets else free) ≠ [] ∧ ∀ k ∈ if free.isEmpty then s.raisedSets else free, k ∈ s.raisedSets := by
    split
    · exact ⟨h, fun _ hk => hk⟩
    · next hne => exact ⟨by simpa using hne, hfree⟩
  obtain ⟨hne, hsub⟩ := hcand (s.raisedSets.filter fun i => (s.pset i).heldSum == 0) fun _ hk => (List.mem_filter.1 hk).1
  obtain ⟨j, hj, hpick⟩ := pickSet_mem (fun a b => decide (a > b)) (fun i => (s.pset i).est) hne
  refine ⟨j, hsub j hj, (if_pos ho).trans ((if_neg fun he => h (List.isEmpty_iff.1 he)).trans ?_)⟩
  dsimp only
  split
  · next i hi =>
    obtain rfl : i = j := Option.some.inj (hi.symm.trans hpick)
    rfl
  · next hi => cases hi.symm.trans hpick

/-- Every move is one of these: none, another pace, a set to be lowered, a set to be raised. -/
theorem State.controlMove_cases (s : State) (smp : PowerSample) : s.controlMove smp = s ∨
    (∃ k, s.controlMove smp = s.modPwr fun p => { p with pace := k }) ∨
    (∃ i, s.controlMove smp = s.modSet i PSet.toLower) ∨
    ∃ i, s.controlMove smp = s.modSet i fun p => { p with raising := true, settled := false } := by
  by_cases ho : s.overLimit
  · by_cases h : s.raisedSets = []
    · exact .inr (.inl ⟨_, State.controlMove_paces ho h⟩)
    · obtain ⟨j, -, hj⟩ := State.controlMove_lowers (smp := smp) ho h
      exact .inr (.inr (.inl ⟨j, hj⟩))
  · simp only [State.controlMove]
    rw [if_neg (show ¬ (s.meanTen.1 > s.pwr.limit * s.meanTen.2) from ho)]
    split
    · split
      · exact .inr (.inl ⟨_, rfl⟩)
      · split
        · next i _ =>
          split
          · exact .inl rfl
          · exact .inr (.inr (.inr ⟨i, rfl⟩))
        · exact .inl rfl
    · exact .inl rfl

/-- From `s` to `t` the estimates, the limit and each set's own estimate are kept. -/
structure State.KeepsEstimate (s t : State) : Prop where
  estRaw : t.pwr.estRaw = s.pwr.estRaw
  estCal : t.pwr.estCal = s.pwr.estCal
  lastTen : t.pwr.lastTen = s.pwr.lastTen
  limit : t.pwr.limit = s.pwr.limit
  est : ∀ j, (t.pset j).est = (s.pset j).est

/-- A move changes no estimate. -/
theorem State.controlMove_keepsEstimate (s : State) (smp : PowerSample) : s.KeepsEstimate (s.controlMove smp) := by
  have hset (i : Nat) (f : PSet → PSet) (hf : ∀ p, (f p).est = p.est) : s.KeepsEstimate (s.modSet i f) :=
    ⟨rfl, rfl, rfl, rfl, s.pset_modSet_field PSet.est f hf i⟩
  rcases s.controlMove_cases smp with h | ⟨k, h⟩ | ⟨i, h⟩ | ⟨i, h⟩ <;> rw [h]
  · exact ⟨rfl, rfl, rfl, rfl, fun _ => rfl⟩
  · exact ⟨rfl, rfl, rfl, rfl, fun _ => rfl⟩
  · exact hset i _ fun _ => rfl
  · exact hset i _ fun _ => rfl

/-- From `s` to `t` the move is kept too: the pace, and which sets are to be lowered or raised. -/
structure State.KeepsMove (s t : State) : Prop extends State.KeepsEstimate s t where
  pace : t.pwr.pace = s.pwr.pace
  lowerDue : ∀ j, (t.pset j).lowerDue = (s.pset j).lowerDue
  raising : ∀ j, (t.pset j).raising = (s.pset j).raising

namespace State.KeepsMove

/-- The same power block holds the same move. -/
theorem of_pwr (h : t.pwr = s.pwr) : s.KeepsMove t := by
  have hset (j : Nat) : t.pset j = s.pset j := by rw [State.pset, h, State.pset]
  exact ⟨⟨by rw [h], by rw [h], by rw [h], by rw [h], fun j => by rw [hset]⟩, by rw [h], fun j => by rw [hset], fun j => by rw [hset]⟩

theorem trans (h : s.KeepsMove t) (h' : t.KeepsMove u) : s.KeepsMove u where
  estRaw := h'.estRaw.trans h.estRaw
  estCal := h'.estCal.trans h.estCal
  lastTen := h'.lastTen.trans h.lastTen
  limit := h'.limit.trans h.limit
  est j := (h'.est j).trans (h.est j)
  pace := h'.pace.trans h.pace
  lowerDue j := (h'.lowerDue j).trans (h.lowerDue j)
  raising j := (h'.raising j).trans (h.raising j)

/-- The same with the last step first: its own statement says which state lies between. -/
theorem trans' (h' : t.KeepsMove u) (h : s.KeepsMove t) : s.KeepsMove u := h.trans h'

/-- Each set may change in what neither the estimate nor the move says. -/
theorem eachSet (s : State) (g : Nat → PSet → PSet) (he : ∀ i p, (g i p).est = p.est) (hl : ∀ i p, (g i p).lowerDue = p.lowerDue)
    (hr : ∀ i p, (g i p).raising = p.raising) : s.KeepsMove ((List.range 8).foldl (fun s i => s.modSet i (g i)) s) where
  estRaw := (State.onlySets_foldl_modSet g _ s).pwr_field Pwr.estRaw fun _ _ => rfl
  estCal := (State.onlySets_foldl_modSet g _ s).pwr_field Pwr.estCal fun _ _ => rfl
  lastTen := (State.onlySets_foldl_modSet g _ s).pwr_field Pwr.lastTen fun _ _ => rfl
  limit := (State.onlySets_foldl_modSet g _ s).pwr_field Pwr.limit fun _ _ => rfl
  est := State.pset_eachSet_field PSet.est g he s
  pace := (State.onlySets_foldl_modSet g _ s).pwr_field Pwr.pace fun _ _ => rfl
  lowerDue := State.pset_eachSet_field PSet.lowerDue g hl s
  raising := State.pset_eachSet_field PSet.raising g hr s

/-- The count of paced intervals and the accounts of energy are no part of a move. -/
theorem modPwr (s : State) (f : Pwr → Pwr) (h : (f s.pwr).estRaw = s.pwr.estRaw ∧ (f s.pwr).estCal = s.pwr.estCal ∧
    (f s.pwr).lastTen = s.pwr.lastTen ∧ (f s.pwr).limit = s.pwr.limit ∧ (f s.pwr).pace = s.pwr.pace ∧ (f s.pwr).sets = s.pwr.sets) :
    s.KeepsMove (s.modPwr f) := by
  obtain ⟨hraw, hcal, hten, hlimit, hpace, hsets⟩ := h
  have hset (j : Nat) : (s.modPwr f).pset j = s.pset j := congrArg (sget ({} : PSet) · j) hsets
  exact ⟨⟨hraw, hcal, hten, hlimit, fun j => by rw [hset]⟩, hpace, fun j => by rw [hset], fun j => by rw [hset]⟩

end State.KeepsMove

/-! ### The charge (16 R481) -/

theorem State.pwr_chargeAmong (n total : Nat) (l : List (BitVec 12 × Nat)) (seen : Nat) (s : State) :
    (chargeAmong n total l seen s).pwr = s.pwr := by
  induction l generalizing seen s with
  | nil => rfl
  | cons e l ih => exact ih _ _

theorem State.chargeIdle_keepsMove (s : State) (n : Nat) : s.KeepsMove (s.chargeIdle n) :=
  .modPwr s _ ⟨rfl, rfl, rfl, rfl, rfl, rfl⟩

/-- The charge of a tick goes to queues and to the accounts of the power block. -/
theorem State.chargeTick_keepsMove (s : State) (smp : PowerSample) : s.KeepsMove (s.chargeTick smp) := by
  have hqueues (v : State) (n total : Nat) (l : List (BitVec 12 × Nat)) : v.KeepsMove (chargeAmong n total l 0 v) :=
    .of_pwr (v.pwr_chargeAmong n total l 0)
  have hshared (v : State) (alone : Bool) (n total : Nat) (l : List (BitVec 12 × Nat)) :
      v.KeepsMove (if alone then v.chargeIdle n else chargeAmong n total l 0 v) := by
    split
    · exact v.chargeIdle_keepsMove n
    · exact hqueues v n total l
  simp only [State.chargeTick]
  refine .trans' (.modPwr _ _ ?total) ((State.chargeIdle_keepsMove _ _).trans' ((hshared _ _ _ _ _).trans' ?_))
  case total => exact ⟨rfl, rfl, rfl, rfl, rfl, rfl⟩
  refine List.foldlRecOn (motive := s.KeepsMove) _ _ (.of_pwr rfl) fun v hv i _ => ?_
  split
  · exact hv
  · exact hv.trans (hqueues _ _ _ _)

/-! ### The tick -/

/-- The device's estimate of the interval. -/
def State.withEstimate (s : State) (smp : PowerSample) : State := s.modPwr fun p =>
  let raw := smp.raw.foldl (· + ·) 0 + smp.fixed
  { p with estRaw := raw, estCal := s.pwr.calibrate raw, ticks := p.ticks + 1, windowRaw := p.windowRaw + raw,
           lastTen := (s.pwr.calibrate raw :: p.lastTen).take 10 }

/-- The estimates of the interval, before the move. -/
def State.estimated (s : State) (smp : PowerSample) : State :=
  (List.range 8).foldl (fun s i => s.modSet i fun p => { p with est := smp.raw.getD i 0 }) (s.withEstimate smp)

/-- What follows the move in a tick: the count of paced intervals, the activity floors and ceilings, and the charge. -/
def State.tickEnd (s : State) (smp : PowerSample) : State :=
  let paced := s.modPwr fun p => { p with paceTicks := if p.pace < 16 then p.paceTicks + 1 else 0 }
  let tooMuch := decide (paced.meanTen.1 > paced.pwr.limit * paced.meanTen.2)
  let tr := max 1 paced.pwr.ramp.toNat
  ((List.range 8).foldl (fun s i => s.modSet i fun p =>
    { p.ramp (min 1000 (smp.activity.getD i 0)) tr tooMuch with held := (0 :: p.held).take 10 }) paced).chargeTick smp

theorem State.powerTick_eq (s : State) (smp : PowerSample) : s.powerTick smp = ((s.estimated smp).controlMove smp).tickEnd smp := rfl

theorem State.tickEnd_keepsMove (s : State) (smp : PowerSample) : s.KeepsMove (s.tickEnd smp) := by
  refine (State.chargeTick_keepsMove _ smp).trans' (.trans' (.eachSet _ _ ?est ?lowerDue ?raising) (.modPwr s _ ?pwr))
  case pwr => exact ⟨rfl, rfl, rfl, rfl, rfl, rfl⟩
  all_goals exact fun _ _ => rfl

variable (s smp)

theorem State.pwr_estimated_field {α : Type} (k : Pwr → α) (h : ∀ (p : Pwr) x, k { p with sets := x } = k p) :
    k (s.estimated smp).pwr = k (s.withEstimate smp).pwr :=
  (State.onlySets_foldl_modSet _ _ _).pwr_field k h

theorem State.est_estimated {j : Nat} (hj : j < 8) : ((s.estimated smp).pset j).est = smp.raw.getD j 0 := by
  rw [State.estimated, State.pset_eachSet _ _ hj]

theorem State.pset_estimated_field {α : Type} (k : PSet → α) (h : ∀ (p : PSet) n, k { p with est := n } = k p) (j : Nat) :
    k ((s.estimated smp).pset j) = k (s.pset j) :=
  State.pset_eachSet_field k _ (fun _ p => h p _) _ j

theorem State.raisedSets_estimated : (s.estimated smp).raisedSets = s.raisedSets := by
  simp only [State.raisedSets, s.pset_estimated_field smp PSet.point fun _ _ => rfl]

/-- The last ten estimates, this interval's first. -/
def State.tenNow (s : State) (smp : PowerSample) : List Nat :=
  (s.pwr.calibrate (smp.raw.foldl (· + ·) 0 + smp.fixed) :: s.pwr.lastTen).take 10

theorem State.overLimit_estimated (h : (s.tenNow smp).foldl (· + ·) 0 > s.pwr.limit * (s.tenNow smp).length) : (s.estimated smp).overLimit := by
  have hlen : max 1 (s.tenNow smp).length = (s.tenNow smp).length := Nat.max_eq_right (by simp [State.tenNow])
  have hten : (s.estimated smp).pwr.lastTen = s.tenNow smp := s.pwr_estimated_field smp Pwr.lastTen fun _ _ => rfl
  have hlimit : (s.estimated smp).pwr.limit = s.pwr.limit := s.pwr_estimated_field smp Pwr.limit fun _ _ => rfl
  rwa [State.overLimit, State.meanTen, hten, hlimit, hlen]

/-- A tick takes its estimates, whatever it moves. -/
theorem State.powerTick_keepsEstimate : (s.estimated smp).KeepsEstimate (s.powerTick smp) := by
  have hmove := (s.estimated smp).controlMove_keepsEstimate smp
  have hend := ((s.estimated smp).controlMove smp).tickEnd_keepsMove smp
  exact ⟨hend.estRaw.trans hmove.estRaw, hend.estCal.trans hmove.estCal, hend.lastTen.trans hmove.lastTen, hend.limit.trans hmove.limit,
    fun j => (hend.est j).trans (hmove.est j)⟩

variable {s smp}

/-- Over the limit with a set above point 0, one set is to be lowered, and nothing else moves. -/
theorem State.powerTick_lowers (ho : (s.estimated smp).overLimit) (h : ∃ j, j < 8 ∧ (s.pset j).point ≠ 0) :
    (s.powerTick smp).pwr.pace = s.pwr.pace ∧ ∃ j, j < 8 ∧ (s.pset j).point ≠ 0 ∧ ((s.powerTick smp).pset j).lowerDue = true ∧
      ((s.powerTick smp).pset j).raising = false ∧ ∀ n, n < 8 → n ≠ j →
        ((s.powerTick smp).pset n).lowerDue = (s.pset n).lowerDue ∧ ((s.powerTick smp).pset n).raising = (s.pset n).raising := by
  obtain ⟨i, hi⟩ := h
  have hraised : (s.estimated smp).raisedSets ≠ [] := by
    rw [State.raisedSets_estimated]
    exact List.ne_nil_of_mem (State.mem_raisedSets.2 hi)
  obtain ⟨j, hj, hmove⟩ := State.controlMove_lowers (smp := smp) ho hraised
  rw [State.raisedSets_estimated] at hj
  obtain ⟨hlt, hpoint⟩ := State.mem_raisedSets.1 hj
  have hend := ((s.estimated smp).controlMove smp).tickEnd_keepsMove smp
  rw [hmove] at hend
  rw [State.powerTick_eq, hmove]
  have hpace := (State.onlySets_modSet (s.estimated smp) j PSet.toLower).pwr_field Pwr.pace fun _ _ => rfl
  refine ⟨hend.pace.trans (hpace.trans (s.pwr_estimated_field smp Pwr.pace fun _ _ => rfl)), j, hlt, hpoint, ?_, ?_, fun n _ hn => ⟨?_, ?_⟩⟩
  · rw [hend.lowerDue, State.pset_modSet_same, PSet.toLower]
  · rw [hend.raising, State.pset_modSet_same, PSet.toLower]
  · rw [hend.lowerDue, State.pset_modSet_other _ _ hn, s.pset_estimated_field smp PSet.lowerDue fun _ _ => rfl]
  · rw [hend.raising, State.pset_modSet_other _ _ hn, s.pset_estimated_field smp PSet.raising fun _ _ => rfl]

/-- Over the limit with every set at point 0, the pace falls by 1, down to 1. -/
theorem State.powerTick_paces (ho : (s.estimated smp).overLimit) (h : ∀ j, j < 8 → (s.pset j).point = 0) :
    (s.powerTick smp).pwr.pace = if s.pwr.pace ≤ 1 then 1 else s.pwr.pace - 1 := by
  have hnone : (s.estimated smp).raisedSets = [] := by
    rw [State.raisedSets_estimated]
    exact List.eq_nil_iff_forall_not_mem.2 fun j hj => (State.mem_raisedSets.1 hj).2 (h j (State.mem_raisedSets.1 hj).1)
  have hpace : (s.estimated smp).pwr.pace = s.pwr.pace := s.pwr_estimated_field smp Pwr.pace fun _ _ => rfl
  rw [State.powerTick_eq, (State.tickEnd_keepsMove _ smp).pace, State.controlMove_paces ho hnone, State.modPwr_pwr, hpace]

end Sys2Proof.Machine
end

section
/-!
The measurement window and the pacing record (16 R466, R467, R470), and the statement about power control.
-/

namespace Sys2Proof.Machine

variable {s : State}

/-! ### The pacing record (16 R470) -/

/-- An event that was never appended is due. -/
theorem Pwr.dueAgain_none (p : Pwr) {last : Option Nat} (h : last = none) : p.dueAgain last = true := by
  rw [h]
  rfl

theorem State.capFloor_early (h : s.pwr.paceTicks < 100) : s.capFloor = s := if_neg fun hpaced => absurd hpaced.1 (by omega)

theorem State.capFloor_first (h : 100 ≤ s.pwr.paceTicks) (hl : s.pwr.lastFloor = none) : s.capFloor =
    ({ s with pwr := { s.pwr with lastFloor := some s.pwr.ticks } } : State).log { code := eCapFloor, source := 4, kind := 8 } :=
  if_pos ⟨h, s.pwr.dueAgain_none hl⟩

/-! ### The measurement window (16 R466, R467) -/

theorem clampInt_bounds {lo hi : Int} (h : lo ≤ hi) (x : Int) : lo ≤ clampInt lo hi x ∧ clampInt lo hi x ≤ hi := by
  simp only [clampInt]
  split
  · omega
  · split <;> omega

/-- A refit keeps the gain within 0.85 to 1.15. -/
theorem refit_gain (ws : List (Nat × Nat)) : 27853 ≤ (refit ws).1 ∧ (refit ws).1 ≤ 37683 := by
  have hclamp (x : Int) : 27853 ≤ (clampInt 27853 37683 x).toNat ∧ (clampInt 27853 37683 x).toNat ≤ 37683 := by
    obtain ⟨hlo, hhi⟩ := clampInt_bounds (lo := 27853) (hi := 37683) (by decide) x
    omega
  exact hclamp _

/-- A refit keeps the offset within -60 W to 60 W. -/
theorem refit_offset (ws : List (Nat × Nat)) : -600 ≤ (refit ws).2 ∧ (refit ws).2 ≤ 600 := clampInt_bounds (by decide) _

/-- The last windows with this one, as sums of raw estimates and of measured power. -/
def State.windowsWith (s : State) (pin : Nat) : List (Nat × Nat) := ((s.pwr.windowRaw, pin * 100) :: s.pwr.windows).take 16

/-- The measurement of a window, and the calibration that follows from it. -/
def State.measured (s : State) (vin pin : Nat) : State := s.modPwr fun p =>
  { p with vin := vin, pin := pin, windows := s.windowsWith pin, windowRaw := 0, gain := (refit (s.windowsWith pin)).1,
           offset := (refit (s.windowsWith pin)).2, offsetFused := false }

theorem State.window_some (s : State) (vin pin : Nat) : s.window (some (vin, pin)) =
    if pin * 100 > s.pwr.limit * 102 then (s.measured vin pin).modSets PSet.toLower else s.measured vin pin := rfl

theorem State.window_onlySets (s : State) (vin pin : Nat) : (s.measured vin pin).OnlySets (s.window (some (vin, pin))) := by
  rw [State.window_some]
  split
  · exact State.onlySets_modSets _ _
  · exact .refl _

/-- A measured power more than 2 % over the limit lowers every set. -/
theorem State.window_lowers {vin pin : Nat} (h : pin * 100 > s.pwr.limit * 102) {j : Nat} (hj : j < 8) :
    ((s.window (some (vin, pin))).pset j).lowerDue = true := by
  rw [State.window_some, if_pos h, State.pset_modSets _ _ hj, PSet.toLower]

/-! ### The statement -/

/-- Settles O45: a tick takes its estimates and makes one move, each thermal rule picks one equation, and what touches one set leaves the others. -/
theorem powerControl : Obligations.PowerControl := by
  refine ⟨fun s i => ⟨fun smp => ?tick, fun h => ?early, fun h hl => ?first, fun vin pin => ?window, rfl, ?sets⟩,
    fun s i j n => ⟨fun tenth tj hbm => ?ceilings, fun h => ?stays, fun hn ht => ?trips, fun hn ht => ?releases, fun h => ?remains,
      fun hn ht => ?hbmTrips, fun h => ?hbmReleases⟩⟩
  case tick =>
    have hkeeps := s.powerTick_keepsEstimate smp
    refine ⟨s.powerTick smp, finishAll_eq s _, ?_, ?_, ?_, ?_, fun j hj => ?_, fun ho h => ?_, fun ho h => ?_⟩
    · exact hkeeps.estRaw.trans (s.pwr_estimated_field smp Pwr.estRaw fun _ _ => rfl)
    · exact hkeeps.estCal.trans (s.pwr_estimated_field smp Pwr.estCal fun _ _ => rfl)
    · exact hkeeps.lastTen.trans (s.pwr_estimated_field smp Pwr.lastTen fun _ _ => rfl)
    · exact hkeeps.limit.trans (s.pwr_estimated_field smp Pwr.limit fun _ _ => rfl)
    · exact (hkeeps.est j).trans (s.est_estimated smp hj)
    · exact State.powerTick_lowers (s.overLimit_estimated smp ho) h
    · exact State.powerTick_paces (s.overLimit_estimated smp ho) h
  case early => exact (finishAll_eq s _).trans (by rw [State.capFloor_early h])
  case first => exact (finishAll_eq s _).trans (by rw [State.capFloor_first h hl])
  case window =>
    have hsets := s.window_onlySets vin pin
    refine ⟨s.window (some (vin, pin)), rfl, hsets.onlyPwr, hsets.pwr_field Pwr.vin fun _ _ => rfl, hsets.pwr_field Pwr.pin fun _ _ => rfl,
      hsets.pwr_field Pwr.windowRaw fun _ _ => rfl, ?_⟩
    rw [hsets.pwr_field Pwr.gain fun _ _ => rfl, hsets.pwr_field Pwr.offset fun _ _ => rfl]
    exact ⟨(refit_gain _).1, (refit_gain _).2, (refit_offset _).1, (refit_offset _).2, fun h j hj => State.window_lowers h hj⟩
  case sets =>
    refine ⟨_, _, _, rfl, rfl, rfl, s.pset_modSet_same _ _, s.pset_modSet_same _ _, s.pset_modSet_same _ _, fun w hw => ?_⟩
    rcases hw with rfl | rfl | rfl <;> exact ⟨rfl, fun j hj => s.pset_modSet_other _ hj⟩
  case ceilings =>
    refine ⟨s.thermalStep tenth tj hbm, rfl, State.thermalStep_onlyPwr, fun c hc =>
      ⟨fun h => ?_, fun hlow hcool => ?_, fun hlow hhigh hcool => ?_⟩⟩
    · rw [State.ceiling_thermalStep hc, PSet.ceilingAfter_falls (by simpa using h)]
    · have hhot : (hbm.any fun t => decide (t ≥ 90)) = false := by simpa using fun x hx => Nat.lt_of_le_of_lt (hcool x hx) (by decide)
      have hall : (hbm.all fun t => decide (t ≤ 86)) = true := by simpa using hcool
      rw [State.ceiling_thermalStep hc, hhot, hall, PSet.ceilingAfter_rises hlow]
    · have hhot : (hbm.any fun t => decide (t ≥ 90)) = false := by simpa using hcool
      rw [State.ceiling_thermalStep hc, hhot, PSet.ceilingAfter_stays hlow hhigh]
  case stays => exact (finishAll_eq s _).trans (by rw [State.thermalTrip_set_stays h]; rfl)
  case trips => exact (finishAll_eq s _).trans (by rw [State.thermalTrip_set_trips hn ht]; rfl)
  case releases => exact congrArg _ (State.thermalRelease_set_releases hn ht)
  case remains => exact congrArg _ (State.thermalRelease_set_stays h)
  case hbmTrips => exact (finishAll_eq s _).trans (by rw [State.thermalTrip_hbm_trips hn ht]; rfl)
  case hbmReleases => exact congrArg _ (State.thermalRelease_hbm_releases h)

end Sys2Proof.Machine
end

section
/-!
What no record reaches (14 R417-R419, R427): a record, the EVENT about it, the launches that it stops and the drain that a full ring
begins leave the power block and the device's id, among others, as they are.
-/

namespace Sys2Proof.Machine

/-- The machine with every block that messages, stops and drains write put to its value at reset: what is left is what none of them reaches. -/
def State.beyondRecords (s : State) : State :=
  { s with out := [], cores := [], launches := [], scheds := [], useClock := 0, heldObls := [], saving := none, restoring := none, hbm := {},
           xlt := {}, fab := {}, col := {}, qce := {}, exp := {}, err := {}, tst := {} }

/-- `t` differs from `s` at most where records reach. -/
structure State.OnlyRecords (s t : State) : Prop where
  beyond : t.beyondRecords = s.beyondRecords

variable {s t u : State}

theorem State.OnlyFab.onlyRecords (h : s.OnlyFab t) : s.OnlyRecords t := by
  rw [h]
  exact ⟨rfl⟩

namespace State.OnlyRecords

theorem pwr (h : s.OnlyRecords t) : t.pwr = s.pwr := (congrArg State.pwr h.beyond :)

theorem devid (h : s.OnlyRecords t) : t.devid = s.devid := (congrArg State.devid h.beyond :)

theorem refl (s : State) : s.OnlyRecords s := ⟨rfl⟩

theorem trans (h : s.OnlyRecords t) (h' : t.OnlyRecords u) : s.OnlyRecords u := ⟨h'.beyond.trans h.beyond⟩

/-- The same with the last step first: its own statement says which state lies between. -/
theorem trans' (h' : t.OnlyRecords u) (h : s.OnlyRecords t) : s.OnlyRecords u := h.trans h'

theorem foldl {α : Type} {f : State → α → State} (h : ∀ (v : State) (a : α), v.OnlyRecords (f v a)) (as : List α) (s : State) :
    s.OnlyRecords (as.foldl f s) :=
  List.foldlRecOn (motive := s.OnlyRecords) as f (.refl s) fun v hv a _ => hv.trans (h v a)

theorem ite {c : Prop} [Decidable c] (ht : c → s.OnlyRecords t) (hu : ¬ c → s.OnlyRecords u) : s.OnlyRecords (if c then t else u) := by
  split
  · next h => exact ht h
  · next h => exact hu h

end State.OnlyRecords

theorem State.withExp_onlyRecords (s : State) (e : Exp) : s.OnlyRecords { s with exp := e } := ⟨rfl⟩
theorem State.modQueue_onlyRecords (s : State) (qid : BitVec 12) (f : Queue → Queue) : s.OnlyRecords (s.modQueue qid f) := ⟨rfl⟩
theorem State.modPool_onlyRecords (s : State) (q : Nat) (f : Pool → Pool) : s.OnlyRecords (s.modPool q f) := ⟨rfl⟩
theorem State.withCol_onlyRecords (s : State) (b : ColBlk) : s.OnlyRecords { s with col := b } := ⟨rfl⟩
theorem State.withFab_onlyRecords (s : State) (f : Fab) : s.OnlyRecords { s with fab := f } := ⟨rfl⟩
theorem State.withCores_onlyRecords (s : State) (k : Sparse Core) : s.OnlyRecords { s with cores := k } := ⟨rfl⟩
theorem State.withErr_onlyRecords (s : State) (e : Err) : s.OnlyRecords { s with err := e } := ⟨rfl⟩
theorem State.withStop_onlyRecords (s : State) (ls : List Launch) (saving restoring : Option (BitVec 12)) (e : Err) :
    s.OnlyRecords { s with launches := ls, saving := saving, restoring := restoring, err := e } := ⟨rfl⟩
theorem State.emit_onlyRecords (s : State) (o : Out) : s.OnlyRecords (s.emit o) := ⟨rfl⟩
theorem State.clearObligations_onlyRecords (s : State) (key : Option Nat) : s.OnlyRecords (s.clearObligations key) := ⟨rfl⟩
theorem State.symOn_onlyRecords (s : State) (ps : List (Fin 6)) (y : Sym) : s.OnlyRecords (s.symOn ps y) := ⟨rfl⟩
theorem State.endUse_onlyRecords (s : State) (l : Launch) : s.OnlyRecords (s.endUse l) := ⟨rfl⟩

/-! ### Messages that leave -/

theorem flushGo_onlyRecords (fuel : Nat) (qid : BitVec 12) (s : State) : s.OnlyRecords (flushGo fuel qid s) := by
  induction fuel generalizing s with
  | zero => exact .refl s
  | succ fuel ih =>
    simp only [flushGo]
    split
    · exact .refl s
    · refine .ite (fun _ => (ih _).trans' ?_) fun _ => .refl s
      refine (State.clearObligations_onlyRecords _ _).trans' ((State.emit_onlyRecords _ _).trans' ?_)
      exact (s.modQueue_onlyRecords qid _).trans (State.modQueue_onlyRecords _ qid _)

theorem State.sendMsg_onlyRecords (s : State) (qid : BitVec 12) (m : TxMsg) : s.OnlyRecords (s.sendMsg qid m) :=
  .trans' (.foldl (fun _ _ => .foldl (fun _ _ => flushGo_onlyRecords _ _ _) _ _) _ _) ((flushGo_onlyRecords _ qid _).trans' ⟨rfl⟩)

theorem State.complete_onlyRecords (s : State) (qid : BitVec 12) (cookie : Word) (a : Answer) : s.OnlyRecords (s.complete qid cookie a) := by
  simp only [State.complete]
  exact .trans' (.ite (fun _ => State.clearObligations_onlyRecords _ _) fun _ => State.sendMsg_onlyRecords _ _ _) (s.modQueue_onlyRecords qid _)

theorem State.answerTest_onlyRecords (s : State) (qid : BitVec 12) (code : Code) (result : List Word) :
    s.OnlyRecords (s.answerTest qid code result) := by
  simp only [State.answerTest]
  split
  · exact (s.complete_onlyRecords _ _ _).trans (State.modQueue_onlyRecords _ _ _)
  · exact .refl s

theorem State.refuseTests_onlyRecords (s : State) : s.OnlyRecords s.refuseTests :=
  .trans' (.foldl (fun v _ => v.answerTest_onlyRecords _ _ _) _ _) ⟨rfl⟩

/-! ### Records -/

theorem State.retire_onlyRecords (s : State) : s.OnlyRecords s.retire := .ite (fun _ => .refl s) fun _ => ⟨rfl⟩

theorem State.pushRec_onlyRecords (s : State) (i : RecInfo) : s.OnlyRecords (s.pushRec i).1 := by
  simp only [State.pushRec]
  split
  · exact .refl s
  · exact (State.retire_onlyRecords _).trans' (.ite (fun _ => (State.sendMsg_onlyRecords _ _ _).trans' ⟨rfl⟩) fun _ => ⟨rfl⟩)

/-! ### The device's own structures, and subscribers -/

theorem State.ownRead_onlyRecords (s : State) (pa n : Nat) : s.OnlyRecords (s.ownRead pa n) := by
  simp only [State.ownRead]
  split <;> exact ⟨rfl⟩

theorem State.ownWrite_onlyRecords (s : State) (pa : Nat) (bs : List Byte) : s.OnlyRecords (s.ownWrite pa bs) := by
  simp only [State.ownWrite]
  split <;> exact ⟨rfl⟩

theorem State.setKhdr_onlyRecords (s : State) (q x : Nat) (h : KHdr) : s.OnlyRecords (s.setKhdr q x h) := by
  simp only [State.setKhdr]
  split
  · exact ⟨rfl⟩
  · exact s.ownWrite_onlyRecords _ _

theorem State.freePage_onlyRecords (s : State) (q x : Nat) : s.OnlyRecords (s.freePage q x) :=
  ((s.ownWrite_onlyRecords _ _).trans (State.ownWrite_onlyRecords _ _ _)).trans (State.modPool_onlyRecords _ q _)

theorem State.reclCompact_onlyRecords (s : State) (q : Nat) : s.OnlyRecords (s.reclCompact q) :=
  .trans' (State.modPool_onlyRecords _ q _) (.trans' (State.ownWrite_onlyRecords _ _ _)
    (.foldl (fun v _ => (v.ownRead_onlyRecords _ _).trans (State.ownRead_onlyRecords _ _ _)) _ s))

theorem State.reclAdd_onlyRecords (s : State) (q x : Nat) (gen : BitVec 16) : s.OnlyRecords (s.reclAdd q x gen) :=
  .trans' (State.modPool_onlyRecords _ q _) (.trans' (State.ownWrite_onlyRecords _ _ _)
    (.ite (fun _ => s.reclCompact_onlyRecords q) fun _ => .refl s))

theorem State.clearPend_onlyRecords (s : State) (q x u : Nat) : s.OnlyRecords (s.clearPend q x u) := by
  simp only [State.clearPend]
  exact .ite (fun _ => s.freePage_onlyRecords q x) fun _ =>
    .ite (fun _ => (s.setKhdr_onlyRecords q x _).trans (State.reclAdd_onlyRecords _ _ _ _)) fun _ => s.setKhdr_onlyRecords q x _

theorem State.dropSub_onlyRecords (s : State) (seq : Word) (u : Nat) (cause : BitVec 8) : s.OnlyRecords (s.dropSub seq u cause) := by
  simp only [State.dropSub]
  refine .ite (fun _ => .refl s) fun _ => (State.sendMsg_onlyRecords _ _ _).trans' ?_
  refine (State.withExp_onlyRecords _ _).trans' ((State.withExp_onlyRecords _ _).trans' ?_)
  exact .foldl (fun v _ => v.clearPend_onlyRecords _ _ _) _ s

/-! ### Launches that stop (04 R132) -/

theorem State.abortColls_onlyRecords (s : State) (l : Launch) : s.OnlyRecords (s.abortColls l) := by
  refine (State.withCol_onlyRecords _ _).trans' (.foldl (fun v c => ?_) _ s)
  have hrecord (f : Code × BitVec 12) : v.OnlyRecords (if c.isBarrier then v else v.recordFailure c f.1 f.2) :=
    .ite (fun _ => .refl v) fun _ => ⟨rfl⟩
  exact .ite (fun _ => hrecord _) fun _ => (hrecord _).trans (State.sendAbort_onlyFab _ _ _ _ _).onlyRecords

theorem State.keepObligations_onlyRecords (s : State) (l : Launch) : s.OnlyRecords (s.keepObligations l) :=
  .ite (fun _ => ⟨rfl⟩) fun _ => .refl s

theorem State.stopCore_onlyRecords (s : State) (l : Launch) (i : StopInfo) : s.OnlyRecords (s.stopCore l i).1 := by
  have hends : s.OnlyRecords (((s.abortColls l).endUse l).keepObligations l) :=
    ((s.abortColls_onlyRecords l).trans (State.endUse_onlyRecords _ l)).trans (State.keepObligations_onlyRecords _ l)
  have hcores (v : State) : v.OnlyRecords (if l.cond == .resident then v.mapCores Core.stop else v) :=
    .ite (fun _ => v.withCores_onlyRecords _) fun _ => .refl v
  have hrecord (r : RecInfo) := (hends.trans (State.pushRec_onlyRecords _ r)).trans (hcores _)
  exact ((State.complete_onlyRecords _ _ _ _).trans (State.modQueue_onlyRecords _ _ _)).trans'
    ((hrecord _).trans (State.withStop_onlyRecords _ _ _ _ _))

/-! ### The drain (14 R419, R427) -/

theorem State.drain_onlyRecords (s : State) (cause : Code) (trigger : Option (BitVec 12 × StopInfo)) : s.OnlyRecords (s.drain cause trigger) := by
  have hpower : s.OnlyRecords (if s.sec.stage = 7 then s.emit (.pwrGood false) else s) := .ite (fun _ => ⟨rfl⟩) fun _ => .refl s
  have hqueues (v : State) :
      v.OnlyRecords (v.qce.queues.foldl (fun s e => if e.2.valid then s.setQueueErr (.ofNat 12 e.1) eDrained else s) v) :=
    .foldl (fun w _ => .ite (fun _ => w.modQueue_onlyRecords _ _) fun _ => .refl w) _ v
  simp only [State.drain]
  refine .ite (fun _ => ⟨rfl⟩) fun _ => ?_
  refine ((State.symOn_onlyRecords _ _ _).trans' (State.withFab_onlyRecords _ _)).trans' ((hqueues _).trans' ?_)
  refine (State.refuseTests_onlyRecords _).trans' ?_
  refine .trans' (.foldl (fun v _ => .foldl (fun w _ => w.dropSub_onlyRecords _ _ _) _ v) _ _) ?_
  exact .trans' (.foldl (fun v l => v.stopCore_onlyRecords l _) _ _) (hpower.trans (State.withErr_onlyRecords _ _))

/-- A record reaches no further, even where it finds the ring full and drains the device. -/
theorem State.log_onlyRecords (s : State) (i : RecInfo) : s.OnlyRecords (s.log i) := by
  simp only [State.log]
  refine .ite (fun _ => (State.drain_onlyRecords _ _ _).trans' ?_) fun _ => s.pushRec_onlyRecords i
  exact (s.pushRec_onlyRecords i).trans (State.withErr_onlyRecords _ _)

end Sys2Proof.Machine
end

section
/-!
The coordinator's computation (16 R475): what a fill gives is what the budget loses, and shrunken shares never exceed it, so allocations
and what is left never add up to more than the budget.
-/

namespace Sys2Proof.Machine

/-! ### Equal shares -/

/-- A member that takes part in a fill and has not reached its cap. -/
def Share.isOpen (m : Share) : Bool := m.on && decide (m.a < m.cap)

theorem fillPass_dev (q r n : Nat) (l : List Share) : (fillPass q r n l).1.map (·.dev) = l.map (·.dev) := by
  induction l generalizing n with
  | nil => rfl
  | cons m l ih =>
    simp only [fillPass]
    split <;> simp [ih]

/-- A pass adds to the shares what it gives. -/
theorem fillPass_sum (q r n : Nat) (l : List Share) : sumShares (fillPass q r n l).1 = sumShares l + (fillPass q r n l).2 := by
  induction l generalizing n with
  | nil => rfl
  | cons m l ih =>
    simp only [sumShares] at ih
    simp only [fillPass]
    split
    · simp only [sumShares, List.map_cons, List.sum_cons, ih, Int.natCast_add]
      omega
    · simp only [sumShares, List.map_cons, List.sum_cons, ih]
      omega

/-- A pass gives each open member at most its equal share, and the first of them 1 more. -/
theorem fillPass_le (q r n : Nat) (l : List Share) : (fillPass q r n l).2 ≤ q * (l.filter Share.isOpen).length + (r - n) := by
  induction l generalizing n with
  | nil => exact Nat.zero_le _
  | cons m l ih =>
    simp only [fillPass]
    split
    · next h =>
      have hfirst : min (q + if n < r then 1 else 0) (m.cap - m.a).toNat ≤ q + if n < r then 1 else 0 := Nat.min_le_left _ _
      have hrest := ih (n + 1)
      rw [List.filter_cons_of_pos (p := Share.isOpen) h, List.length_cons, Nat.mul_succ]
      have hone : (if n < r then 1 else 0) + (r - (n + 1)) ≤ r - n := by split <;> omega
      omega
    · next h =>
      rw [List.filter_cons_of_neg (p := Share.isOpen) h]
      exact ih n

/-- A pass over a whole budget moves what it gives from there into the shares. -/
theorem fillPass_total (l : List Share) (s n : Nat) (hn : n = (l.filter Share.isOpen).length) :
    sumShares (fillPass (s / n) (s % n) 0 l).1 + (s - (fillPass (s / n) (s % n) 0 l).2 : Nat) = sumShares l + s := by
  have hgiven : (fillPass (s / n) (s % n) 0 l).2 ≤ s := by
    refine Nat.le_trans (fillPass_le _ _ 0 l) (Nat.le_of_eq ?_)
    rw [Nat.sub_zero, ← hn, Nat.div_add_mod']
  have hsum := fillPass_sum (s / n) (s % n) 0 l
  omega

theorem fillShares_dev (fuel : Nat) (l : List Share) (s : Nat) : (fillShares fuel l s).1.map (·.dev) = l.map (·.dev) := by
  induction fuel generalizing l s with
  | zero => rfl
  | succ fuel ih =>
    simp only [fillShares]
    split
    · rfl
    · rw [ih, fillPass_dev]

/-- A fill moves what is left of the budget into shares. -/
theorem fillShares_total (fuel : Nat) (l : List Share) (s : Nat) : sumShares (fillShares fuel l s).1 + (fillShares fuel l s).2 = sumShares l + s := by
  induction fuel generalizing l s with
  | zero => rfl
  | succ fuel ih =>
    simp only [fillShares]
    split
    · rfl
    · exact (ih _ _).trans (fillPass_total l s _ rfl)

/-! ### Shrunken shares -/

/-- Parts of a total `c` in proportion to weights, each rounded down, add up to no more than it: `d` is the sum of the weights. -/
theorem sum_fdiv_mul_le {α : Type} (f : α → Int) (c : Int) {d : Int} (hd : 0 < d) (l : List α) :
    (l.map fun x => (f x * c).fdiv d).sum * d ≤ (l.map f).sum * c := by
  induction l with
  | nil => simp
  | cons x l ih =>
    have hx : (f x * c).fdiv d * d ≤ f x * c := by
      rw [Int.fdiv_eq_ediv_of_nonneg _ (Int.le_of_lt hd)]
      exact Int.ediv_mul_le _ (Int.ne_of_gt hd)
    simp only [List.map_cons, List.sum_cons, Int.add_mul]
    exact Int.add_le_add hx ih

theorem sum_map_le_length_mul {α : Type} (f : α → Int) (c : Int) (l : List α) (h : ∀ x ∈ l, f x ≤ c) : (l.map f).sum ≤ l.length * c := by
  induction l with
  | nil => simp
  | cons x l ih =>
    obtain ⟨hx, hl⟩ := List.forall_mem_cons.1 h
    simp only [List.map_cons, List.sum_cons, List.length_cons, Int.natCast_add, Int.natCast_one, Int.add_mul, Int.one_mul]
    exact Int.le_trans (Int.add_le_add hx (ih hl)) (Int.le_of_eq (Int.add_comm _ _))

theorem sum_map_const_add {α : Type} (f : α → Int) (c : Int) (l : List α) : (l.map fun x => c + f x).sum = l.length * c + (l.map f).sum := by
  induction l with
  | nil => simp
  | cons x l ih =>
    simp only [List.map_cons, List.sum_cons, List.length_cons, Int.natCast_add, Int.natCast_one, Int.add_mul, Int.one_mul, ih]
    omega

/-- The excess over 600 W of members that want as much or more. -/
def excess (l : List Share) : Int := (l.map fun m => m.a - 600).sum

/-- A share of a budget `b` that is below what the members want. -/
def Share.shrunk (b : Int) (n : Nat) (above : Int) (m : Share) : Share :=
  { m with a := if above = 0 then min (Config.openShare m.dev) (b.fdiv n) else 600 + ((m.a - 600) * (b - 600 * n)).fdiv above }

theorem excess_nonneg (l : List Share) (hl : ∀ m ∈ l, 600 ≤ m.a) : 0 ≤ excess l := by
  induction l with
  | nil => exact Int.le_refl 0
  | cons m l ih =>
    obtain ⟨hm, hl⟩ := List.forall_mem_cons.1 hl
    exact Int.add_nonneg (Int.sub_nonneg_of_le hm) (ih hl)

/-- Shrunken shares add up to no more than the budget. -/
theorem sumShares_shrunk_le (b : Int) (l : List Share) (hb : l ≠ [] ∨ 0 ≤ b) (hl : ∀ m ∈ l, 600 ≤ m.a) :
    sumShares (l.map (Share.shrunk b l.length (excess l))) ≤ b := by
  rw [sumShares, List.map_map]
  by_cases h0 : excess l = 0
  · have heach (m : Share) : (Share.shrunk b l.length (excess l) m).a ≤ b.fdiv l.length := by
      rw [Share.shrunk, if_pos h0]
      exact Int.min_le_right _ _
    refine Int.le_trans (sum_map_le_length_mul _ _ l fun m _ => heach m) ?_
    cases l with
    | nil => simpa using hb
    | cons m l =>
      rw [Int.mul_comm, Int.fdiv_eq_ediv_of_nonneg _ (Int.natCast_nonneg _)]
      exact Int.ediv_mul_le _ (Int.natCast_ne_zero.2 (Nat.succ_ne_zero _))
  · have hpos := excess_nonneg l hl
    have habove : 0 < excess l := by omega
    have heach (m : Share) : (Share.shrunk b l.length (excess l) m).a = 600 + ((m.a - 600) * (b - 600 * l.length)).fdiv (excess l) := by
      rw [Share.shrunk, if_neg h0]
    have hquot := sum_fdiv_mul_le (fun m : Share => m.a - 600) (b - 600 * l.length) habove l
    rw [← excess, Int.mul_comm (excess l)] at hquot
    have hle := Int.le_of_mul_le_mul_right hquot habove
    simp only [Function.comp_def, heach, sum_map_const_add]
    omega

/-! ### Allocations -/

/-- What a member wants: its measured power, with 25 W more where it held no boundary, between 600 W and its cap. -/
def Member.wants (m : Member) : Share :=
  { dev := m.dev, a := min (max (if m.held ≥ 1 then m.power else m.power + 25) 600) m.cap, cap := m.cap, on := decide (m.held ≥ 1) }

/-- Every member takes part. -/
def allOn (l : List Share) : List Share := l.map fun m => { m with on := true }

theorem sumShares_allOn (l : List Share) : sumShares (allOn l) = sumShares l := by simp [sumShares, allOn, Function.comp_def]

theorem dev_allOn (l : List Share) : (allOn l).map (·.dev) = l.map (·.dev) := by simp [allOn]

/-- The shares that a budget gives, and what is left of it. -/
def sharesOf (b : Int) (ms : List Member) : List Share × Nat :=
  let start := ms.map Member.wants
  if b < sumShares start then
    let small := start.map (Share.shrunk b ms.length (excess start))
    fillShares (ms.length + 2) (allOn small) (b - sumShares small).toNat
  else
    let c := fillShares (ms.length + 2) start (b - sumShares start).toNat
    fillShares (ms.length + 2) (allOn c.1) c.2

theorem allocate_eq (b : Int) (ms : List Member) : allocate b ms = ((sharesOf b ms).1.map fun m => (m.dev, m.a), (sharesOf b ms).2) := rfl

/-- Every member has its allocation. -/
theorem allocate_dev (b : Int) (ms : List Member) : (allocate b ms).1.map (·.1) = ms.map (·.dev) := by
  have hshares : (sharesOf b ms).1.map (·.dev) = ms.map (·.dev) := by
    simp only [sharesOf]
    split
    · rw [fillShares_dev, dev_allOn]
      simp [Share.shrunk, Member.wants]
    · rw [fillShares_dev, dev_allOn, fillShares_dev]
      simp [Member.wants]
  rw [allocate_eq, ← hshares]
  simp

/-- The shares and what is left never exceed the budget. -/
theorem sharesOf_le (b : Int) (ms : List Member) (hb : ms ≠ [] ∨ 0 ≤ b) (hcap : ∀ m ∈ ms, 600 ≤ m.cap) :
    sumShares (sharesOf b ms).1 + (sharesOf b ms).2 ≤ b := by
  simp only [sharesOf]
  split
  · have hsmall := sumShares_shrunk_le b (ms.map Member.wants) (by simpa using hb) fun m hm => by
      obtain ⟨x, hx, rfl⟩ := List.mem_map.1 hm
      have := hcap x hx
      simp only [Member.wants]
      omega
    rw [List.length_map] at hsmall
    rw [fillShares_total, sumShares_allOn]
    omega
  · rw [fillShares_total, sumShares_allOn, fillShares_total]
    omega

theorem allocate_le (b : Int) (ms : List Member) (hb : ms ≠ [] ∨ 0 ≤ b) (hcap : ∀ m ∈ ms, 600 ≤ m.cap) :
    ((allocate b ms).1.map (·.2)).sum + (allocate b ms).2 ≤ b := by
  have h := sharesOf_le b ms hb hcap
  rwa [sumShares, ← show (allocate b ms).1.map (·.2) = (sharesOf b ms).1.map (·.a) by simp [allocate_eq]] at h

end Sys2Proof.Machine
end

section
/-!
Group budgets (16 R473-R476): what a member reports, what the coordinator keeps while its allocations leave, and the statement about both.
-/

namespace Sys2Proof.Machine

variable {s : State}

/-! ### The way to another device (11 R317, R324) -/

theorem State.liveNbrs_modPwr (s : State) (f : Pwr → Pwr) (d : Nat) : (s.modPwr f).liveNbrs d = s.liveNbrs d := rfl

theorem State.bfs_modPwr (s : State) (f : Pwr → Pwr) (fuel : Nat) (front : List Nat) (dist : Nat) (seen : List (Nat × Nat)) :
    (s.modPwr f).bfs fuel front dist seen = s.bfs fuel front dist seen := by
  induction fuel generalizing front dist seen with
  | zero => rfl
  | succ fuel ih => simp only [State.bfs, State.liveNbrs_modPwr, ih]

/-- The power block has no part in the way to a device. -/
theorem State.portToward_modPwr (s : State) (f : Pwr → Pwr) (d : Nat) : (s.modPwr f).portToward d = s.portToward d := by
  simp only [State.portToward, State.distances, State.bfs_modPwr, State.parentPort, State.liveNbrs_modPwr]
  rfl

/-! ### Members (16 R474, R476) -/

theorem State.groupReport_off (h : s.pwr.grpEn = false) : s.groupReport = s := by rw [State.groupReport, h]; rfl

/-- A member after its report: what it has held is reported, and its next report has the next serial. -/
def State.reported (s : State) : State := s.modPwr fun p => { p with heldMark := s.fab.held, repSerial := p.repSerial + 1 }

/-- The report's bytes. -/
def State.reportBytes (s : State) : List Byte :=
  Config.reportBytes s.devid.toNat (s.fab.held - s.pwr.heldMark).toNat s.pwr.pin s.pwr.cap.toNat s.pwr.repSerial

theorem State.groupReport_on (h : s.pwr.grpEn = true) : s.groupReport = s.reported.sendMgmt s.pwr.coord s.reportBytes State.deliverMgmt := by
  rw [State.groupReport, h]
  rfl

theorem State.sendMgmt_self (bytes : List Byte) (deliver : State → List Byte → State) : s.sendMgmt s.devid bytes deliver = deliver s bytes :=
  if_pos rfl

/-- A message of up to 64 bytes leaves in symbols of 8. -/
theorem State.sendMgmt_port {dst : BitVec 12} {p : Fin 6} (bytes : List Byte) (deliver : State → List Byte → State) (hd : dst ≠ s.devid)
    (hp : s.portToward dst.toNat = some p) : s.sendMgmt dst bytes deliver = s.emitAll ((List.range ((bytes.length + 7) / 8)).map fun i =>
      .sym p (.mgmt s.devid dst (.ofNat 4 i) (.ofNat 4 ((bytes.length + 7) / 8 - 1)) ((bytes.drop (8 * i)).take 8))) := by
  rw [State.sendMgmt, if_neg hd, hp]
  rfl

/-- A coordinator delivers its own report to itself. -/
theorem State.groupReport_self (h : s.pwr.grpEn = true) (hd : s.pwr.coord = s.devid) : s.groupReport = s.reported.deliverMgmt s.reportBytes := by
  rw [State.groupReport_on h, hd]
  exact State.sendMgmt_self (s := s.reported) _ _

/-- Another member's report leaves through the port towards its coordinator. -/
theorem State.groupReport_port {p : Fin 6} (h : s.pwr.grpEn = true) (hd : s.pwr.coord ≠ s.devid)
    (hp : s.portToward s.pwr.coord.toNat = some p) :
    s.groupReport = s.reported.emitAll ((List.range ((s.reportBytes.length + 7) / 8)).map fun i => .sym p
      (.mgmt s.devid s.pwr.coord (.ofNat 4 i) (.ofNat 4 ((s.reportBytes.length + 7) / 8 - 1)) ((s.reportBytes.drop (8 * i)).take 8))) := by
  have hport : s.reported.portToward s.pwr.coord.toNat = some p := (s.portToward_modPwr _ _).trans hp
  rw [State.groupReport_on h, State.sendMgmt_port (s := s.reported) s.reportBytes State.deliverMgmt hd hport]
  rfl

theorem State.takeAllocation_off {a : Nat} (h : s.pwr.grpEn = false) : s.takeAllocation a = s := by rw [State.takeAllocation, h]; rfl

theorem State.takeAllocation_on {a : Nat} (h : s.pwr.grpEn = true) :
    s.takeAllocation a = { s with pwr := { s.pwr with nextAlloc := some a } } := by
  rw [State.takeAllocation, h]
  rfl

theorem State.fallBack_off (h : s.pwr.grpEn = false) : s.fallBack = s := by rw [State.fallBack, h]; rfl

/-- A member that falls back. -/
def State.onShare (s : State) : State := s.modPwr fun p => { p with fallback := true }

theorem State.fallBack_on (h : s.pwr.grpEn = true) : s.fallBack = s.onShare.budgetEvent := by rw [State.fallBack, h]; rfl

theorem State.budgetEvent_due (h : s.pwr.dueAgain s.pwr.lastBudget = true) : s.budgetEvent =
    ({ s with pwr := { s.pwr with lastBudget := some s.pwr.ticks } } : State).log { code := evBudgetLimit, source := 4, kind := 8 } :=
  if_pos h

theorem State.budgetEvent_silent (h : s.pwr.dueAgain s.pwr.lastBudget = false) : s.budgetEvent = s := by
  rw [State.budgetEvent, h]
  rfl

/-! ### The coordinator's computation (16 R475) -/

/-- Written one after the other, a key reads the value that every entry with that key has, or its old one where there is none. -/
theorem sget_foldl_sset (es : List (Nat × Nat)) (t : Sparse Nat) (k v : Nat) (h : ∀ e ∈ es, e.1 = k → e.2 = v)
    (hv : sget 0 t k = v ∨ ∃ e ∈ es, e.1 = k) : sget 0 (es.foldl (fun t e => sset 0 t e.1 e.2) t) k = v := by
  induction es generalizing t with
  | nil => simpa using hv
  | cons e es ih =>
    rw [List.foldl_cons]
    refine ih _ (fun f hf => h f (by simp [hf])) ?_
    by_cases he : e.1 = k
    · exact .inl (by rw [he, sget_sset_same, h e (by simp) he])
    · rw [sget_sset_other _ _ _ _ _ (Ne.symm he)]
      simpa [he] using hv

/-- The members that reported, in the order of their ids. -/
def State.reporters (s : State) : List Member := s.pwr.reports.map fun e => ⟨e.1, e.2.held, e.2.power, e.2.cap⟩

/-- The allocations of the members that did not. -/
def State.silentAllocs (s : State) : Sparse Nat := s.pwr.allocs.filter fun e => !(s.reporters.any fun m => m.dev == e.1)

/-- The allocations of the members that reported, from what the silent ones leave of the budget, and the rest of it. -/
def State.allocated (s : State) : List (Nat × Int) × Nat :=
  allocate ((s.pwr.budget.toNat : Int) - ((s.silentAllocs.map (·.2)).sum : Nat)) s.reporters

/-- The allocations as they are sent: none is below 0 W. -/
def State.sentShares (s : State) : List (Nat × Nat) := s.allocated.1.map fun e => (e.1, e.2.toNat)

/-- What the coordinator's computation leaves: no report, the new allocations written, and the group and the device's id as before. -/
structure State.Computes (s t : State) : Prop where
  reports : t.pwr.reports = []
  allocs : t.pwr.allocs = s.sentShares.foldl (fun t e => sset 0 t e.1 e.2) s.pwr.allocs
  grpEn : t.pwr.grpEn = s.pwr.grpEn
  devid : t.devid = s.devid

/-- The event of 16 R476 comes on top and changes none of it. -/
theorem State.Computes.budgetEvent {t : State} (h : s.Computes t) : s.Computes t.budgetEvent := by
  rw [State.budgetEvent]
  split
  · have hlog := State.log_onlyRecords (t.modPwr fun p => { p with lastBudget := some p.ticks }) { code := evBudgetLimit, source := 4, kind := 8 }
    exact ⟨by rw [hlog.pwr]; exact h.reports, by rw [hlog.pwr]; exact h.allocs, by rw [hlog.pwr]; exact h.grpEn, hlog.devid.trans h.devid⟩
  · exact h

theorem State.computeAllocations_spec (s : State) : s.computeAllocations.2 = s.sentShares ∧ s.Computes s.computeAllocations.1 := by
  have hsum : (s.silentAllocs.foldl (fun (a : Nat) (e : Nat × Nat) => a + e.2) 0) = (s.silentAllocs.map (·.2)).sum := by
    rw [List.sum_eq_foldl, List.foldl_map]
  have hshares : (allocate ((s.pwr.budget.toNat : Int) - (s.silentAllocs.foldl (fun (a : Nat) (e : Nat × Nat) => a + e.2) 0 : Nat)) s.reporters).1.map
      (fun e => (e.1, e.2.toNat)) = s.sentShares := by rw [hsum]; rfl
  refine ⟨hshares, ?_⟩
  have hcomputes (low : Sparse Nat) (shares : List (Nat × Nat)) (h : shares = s.sentShares) : s.Computes (s.modPwr fun p =>
      { p with reports := [], allocs := shares.foldl (fun t e => sset 0 t e.1 e.2) p.allocs, lowPeriods := low }) := by
    subst h
    exact ⟨rfl, rfl, rfl, rfl⟩
  simp only [State.computeAllocations]
  split
  · exact (hcomputes _ _ hshares).budgetEvent
  · exact hcomputes _ _ hshares

/-! ### Allocations leave (16 R474) -/

/-- One allocation leaves, or is taken where it is the device's own. -/
def State.sendShare (s : State) (e : Nat × Nat) : State :=
  s.sendMgmt (.ofNat 12 e.1) (Config.allocationBytes e.1 e.2) fun s _ => s.takeAllocation e.2

theorem State.groupAllocate_off (h : s.coordinates = false) : s.groupAllocate = s := by rw [State.groupAllocate, h]; rfl

theorem State.groupAllocate_on (h : s.coordinates = true) : s.groupAllocate = s.sentShares.foldl State.sendShare s.computeAllocations.1 := by
  rw [State.groupAllocate, h, ← s.computeAllocations_spec.1]
  rfl

theorem State.sendShare_own {e : Nat × Nat} (h : .ofNat 12 e.1 = s.devid) (hg : s.pwr.grpEn = true) :
    s.sendShare e = { s with pwr := { s.pwr with nextAlloc := some e.2 } } := by
  rw [State.sendShare, h, State.sendMgmt_self, State.takeAllocation_on hg]

theorem State.sendShare_other {e : Nat × Nat} (h : .ofNat 12 e.1 ≠ s.devid) : ∃ o, s.sendShare e = s.emitAll o := by
  rw [State.sendShare, State.sendMgmt, if_neg h]
  split
  · exact ⟨[], by simp [State.emitAll]⟩
  · exact ⟨_, rfl⟩

/-- What leaves keeps the computation. -/
theorem State.Computes.sendShare {t : State} (h : s.Computes t) (hg : s.pwr.grpEn = true) (e : Nat × Nat) : s.Computes (t.sendShare e) := by
  by_cases hd : .ofNat 12 e.1 = t.devid
  · rw [State.sendShare_own hd (h.grpEn.trans hg)]
    exact ⟨h.reports, h.allocs, h.grpEn, h.devid⟩
  · obtain ⟨o, ho⟩ := State.sendShare_other hd
    rw [ho]
    exact ⟨h.reports, h.allocs, h.grpEn, h.devid⟩

/-- Of the allocations that leave, the device takes its own: `v`, when that is what every entry for it says. -/
theorem State.Computes.nextAlloc_foldl {t : State} (h : s.Computes t) (hg : s.pwr.grpEn = true) (es : List (Nat × Nat)) (v : Nat)
    (hes : ∀ e ∈ es, .ofNat 12 e.1 = s.devid → e.2 = v) (hv : t.pwr.nextAlloc = some v ∨ ∃ e ∈ es, .ofNat 12 e.1 = s.devid) :
    (es.foldl State.sendShare t).pwr.nextAlloc = some v := by
  induction es generalizing t with
  | nil => simpa using hv
  | cons e es ih =>
    refine ih (h.sendShare hg e) (fun f hf => hes f (by simp [hf])) ?_
    by_cases hd : .ofNat 12 e.1 = s.devid
    · exact .inl (by rw [State.sendShare_own (hd.trans h.devid.symm) (h.grpEn.trans hg), hes e (by simp) hd])
    · obtain ⟨o, ho⟩ := State.sendShare_other (s := t) fun hself => hd (hself.trans h.devid)
      rw [ho]
      simpa [hd, State.emitAll] using hv

theorem State.groupAllocate_computes (hc : s.coordinates = true) (hg : s.pwr.grpEn = true) : s.Computes s.groupAllocate := by
  rw [State.groupAllocate_on hc]
  exact List.foldlRecOn (motive := s.Computes) _ _ s.computeAllocations_spec.2 fun t ht e _ => ht.sendShare hg e

theorem State.grpEn_of_coordinates (h : s.coordinates = true) : s.pwr.grpEn = true := by
  simp only [State.coordinates, Bool.and_eq_true] at h
  exact h.1.1

/-- Every allocation is for a member that reported. -/
theorem State.exists_reporter {e : Nat × Int} (he : e ∈ s.allocated.1) : ∃ m ∈ s.reporters, m.dev = e.1 := by
  have hdev : e.1 ∈ s.reporters.map (·.dev) := by
    rw [← allocate_dev]
    exact List.mem_map_of_mem he
  exact List.mem_map.1 hdev

/-- A sent share is an allocation's, cut at 0. -/
theorem State.mem_sentShares {f : Nat × Nat} (hf : f ∈ s.sentShares) : ∃ e ∈ s.allocated.1, f = (e.1, e.2.toNat) := by
  obtain ⟨e, he, rfl⟩ := List.mem_map.1 hf
  exact ⟨e, he, rfl⟩

/-- Who sent no report keeps its share. -/
theorem State.groupAllocate_silent (hc : s.coordinates = true) {d : Nat} (hd : ∀ m ∈ s.reporters, m.dev ≠ d) :
    sget 0 s.groupAllocate.pwr.allocs d = sget 0 s.pwr.allocs d := by
  rw [(State.groupAllocate_computes hc (State.grpEn_of_coordinates hc)).allocs]
  refine sget_foldl_sset _ _ _ _ (fun f hf hfd => ?_) (.inl rfl)
  obtain ⟨e, he, rfl⟩ := State.mem_sentShares hf
  obtain ⟨m, hm, hme⟩ := State.exists_reporter he
  exact absurd (hme.trans hfd) (hd m hm)

/-- Who reported, and was allocated one share, has it; the coordinator takes its own at the next boundary. -/
theorem State.groupAllocate_reporter (hc : s.coordinates = true) (hids : ∀ e ∈ s.pwr.reports, e.1 < 4096) {e : Nat × Int}
    (he : e ∈ s.allocated.1) (hone : ∀ f ∈ s.allocated.1, f.1 = e.1 → f = e) : sget 0 s.groupAllocate.pwr.allocs e.1 = e.2.toNat ∧
      (e.1 = s.devid.toNat → s.groupAllocate.pwr.nextAlloc = some e.2.toNat) := by
  have hg := State.grpEn_of_coordinates hc
  have hsent : (e.1, e.2.toNat) ∈ s.sentShares := List.mem_map.2 ⟨e, he, rfl⟩
  have hsame (f : Nat × Nat) (hf : f ∈ s.sentShares) (hfe : f.1 = e.1) : f.2 = e.2.toNat := by
    obtain ⟨x, hx, rfl⟩ := State.mem_sentShares hf
    rw [hone x hx hfe]
  constructor
  · rw [(State.groupAllocate_computes hc hg).allocs]
    exact sget_foldl_sset _ _ _ _ hsame (.inr ⟨_, hsent, rfl⟩)
  · intro hself
    rw [State.groupAllocate_on hc]
    refine s.computeAllocations_spec.2.nextAlloc_foldl hg _ _ (fun f hf hfd => hsame f hf ?_) (.inr ⟨_, hsent, ?_⟩)
    · obtain ⟨x, hx, rfl⟩ := State.mem_sentShares hf
      obtain ⟨m, hm, hmx⟩ := State.exists_reporter hx
      obtain ⟨r, hr, rfl⟩ := List.mem_map.1 hm
      have hlt : x.1 < 2 ^ 12 := hmx ▸ hids r hr
      rw [hself, ← hfd, BitVec.toNat_ofNat, Nat.mod_eq_of_lt hlt]
    · rw [hself, BitVec.ofNat_toNat, BitVec.setWidth_eq]

/-! ### The statement -/

/-- Settles O46: what fills give is what the budget loses; a report goes to its coordinator or to the device itself; and a record that the computation
appends reaches no allocation. -/
theorem groupBudgets : Obligations.GroupBudgets := by
  refine ⟨fun b ms hb hcap => ⟨allocate_le b ms hb hcap, allocate_dev b ms⟩, fun s => ⟨fun hoff => ?off, fun hon =>
    ⟨fun hself => ?toItself, fun p hother hp => ?toPort, fun a => congrArg _ (State.takeAllocation_on hon), fun hnever => ?first,
      fun hsilent => ?again⟩,
    fun hc => ?idle, fun hc hids => ?allocates⟩⟩
  case off =>
    have hc : s.coordinates = false := by rw [State.coordinates, hoff]; rfl
    refine ⟨(finishAll_eq s _).trans ?_, (finishAll_eq s _).trans ?_, (finishAll_eq s _).trans ?_,
      fun a => congrArg _ (State.takeAllocation_off hoff)⟩
    · rw [State.groupReport_off hoff]
    · rw [State.groupAllocate_off hc]
    · rw [State.fallBack_off hoff]
  case toItself => exact (finishAll_eq s _).trans (by rw [State.groupReport_self hon hself]; rfl)
  case toPort => exact (finishAll_eq s _).trans (by rw [State.groupReport_port hon hother hp]; rfl)
  case first =>
    refine (finishAll_eq s _).trans ?_
    rw [State.fallBack_on hon, State.budgetEvent_due (s := s.onShare) (Pwr.dueAgain_none _ hnever)]
    rfl
  case again => exact (finishAll_eq s _).trans (by rw [State.fallBack_on hon, State.budgetEvent_silent (s := s.onShare) hsilent]; rfl)
  case idle => exact (finishAll_eq s _).trans (by rw [State.groupAllocate_off hc])
  case allocates =>
    exact ⟨s.groupAllocate, finishAll_eq s _, (State.groupAllocate_computes hc (State.grpEn_of_coordinates hc)).reports,
      fun d hd => State.groupAllocate_silent hc hd, fun e he hone => State.groupAllocate_reporter hc hids he hone⟩

end Sys2Proof.Machine
end

section
/-!
O1: a step takes the command at the front of the queue, and an empty queue idles.
-/

namespace Sys2Proof.Machine

theorem step_cons (c : Instr) (rest : List Instr) (s : State) : step { s with pending := c :: rest } = exec c { s with pending := rest } := rfl

theorem step_nil {s : State} (h : s.pending = []) : step s = .next s := by simp only [step, h]

/-- Settles O1: both cases of the queue are equations of `step` (log entry 5: the idle step is the model's choice). -/
theorem stepRunsFront : Obligations.StepRunsFront := ⟨step_cons, fun _ => step_nil⟩

end Sys2Proof.Machine
end

section
/-!
Registers and answers on the service interface (17 R500-R507, 19 R530, R531): who answers, what a request of one register does, and what a
write of a command register is.
-/

namespace Sys2Proof.Machine

variable {s u : State}

/-! ### Who answers -/

theorem State.answer_alive (h : s.svcAlive = true) (a : Svc) : s.answer a = s.emit (.svc a) := if_pos h

theorem State.answer_dead (h : s.svcAlive = false) (a : Svc) : s.answer a = s := by simp only [State.answer, h, Bool.false_eq_true, if_false]

/-- The whole map is open from stage 2 on, where the responder runs. -/
theorem State.responder_of_fullMap (h : s.fullMap = true) : s.responder = true := by
  simp only [State.fullMap, Bool.and_eq_true, decide_eq_true_eq] at h
  obtain ⟨⟨⟨hp, -⟩, hlow⟩, -⟩ := h
  have hs : s.sec.stage ≠ 0 := fun h0 => by rw [h0] at hlow; exact absurd hlow (by decide)
  simp only [State.responder, hp, Bool.true_and, bne_iff_ne, ne_eq, hs, not_false_eq_true]

/-! ### Command registers -/

/-- On an open path that may write a register, a command's access is the write. -/
theorem State.setReg_open {p : Path} {r : Reg} (ho : s.pathOpen p = true) (ha : r.access p = .rw) (v : Word) : s.setReg p r v = s.writeReg p r v := by
  simp only [State.setReg, ho, ha, beq_self_eq_true, Bool.and_self, if_true]

theorem State.pathOpen_service (ha : s.svcAlive = true) (hf : s.fullMap = true) : s.pathOpen .service = true := by
  simp only [State.pathOpen, ha, hf, Bool.and_self]

theorem wbits_go31 (v : Word) (lo n : Nat) (h : (0x80000000#32).extractLsb' lo n = 0#n) : wbits (go31 v) lo n = (v.extractLsb' lo n).toNat := by
  rw [wbits, ← BitVec.extractLsb'_toNat, go31, BitVec.extractLsb'_or, h, BitVec.or_zero]

theorem bit31_go31 (v : Word) : bit1 (go31 v) 31 = true := by
  have h : (go31 v).extractLsb' 31 1 = 1#1 := by
    rw [go31, BitVec.extractLsb'_or, show (0x80000000#32).extractLsb' 31 1 = BitVec.allOnes 1 by decide, BitVec.or_allOnes]
    rfl
  rw [bit1, wbits, ← BitVec.extractLsb'_toNat, h]
  rfl

theorem exec_cfgDone (p : Path) (v : Word) (s : State) : exec (.cfgDone p v) s = .next (s.setReg p .secBootCtl (go31 v)) := rfl

theorem exec_clearDrain (p : Path) (v : Word) (s : State) : exec (.clearDrain p v) s = .next (s.setReg p .secSvcCtl (go31 v)) := rfl

theorem exec_secSpdmCtlGo (p : Path) (v : Word) (s : State) : exec (.secSpdmCtlGo p v) s = .next (s.setReg p .secSpdmCtl (go31 v)) := rfl

theorem exec_cfgDone_service (ha : s.svcAlive = true) (hf : s.fullMap = true) (v : Word) : exec (.cfgDone .service v) s = .next s.configured := by
  have hw : s.writeReg .service .secBootCtl (go31 v) = s.configured := if_pos (bit31_go31 v)
  rw [exec_cfgDone, State.setReg_open (State.pathOpen_service ha hf) rfl, hw]

theorem exec_clearDrain_service (ha : s.svcAlive = true) (hf : s.fullMap = true) (v : Word) : exec (.clearDrain .service v) s = .next s.clearDrain := by
  have hw : s.writeReg .service .secSvcCtl (go31 v) = s.clearDrain := if_pos (bit31_go31 v)
  rw [exec_clearDrain, State.setReg_open (State.pathOpen_service ha hf) rfl, hw]

theorem exec_secSpdmCtlGo_queue (h : s.hostReady = true) (v : Word) : exec (.secSpdmCtlGo .queue v) s = .next (s.wSpdmCtl (go31 v)) := by
  have ho : s.pathOpen .queue = true := h
  rw [exec_secSpdmCtlGo, State.setReg_open ho rfl]
  rfl

/-! ### A request of one register (17 R507) -/

/-- A request of kind 1 (read) or 2 (write) that names one register. -/
def oneRegister (kind : Byte) (off : Nat) (w : List Byte) : List Byte := [kind, 1, 0, 0] ++ leBytes 4 off ++ w

/-- The answer to such a request: a status, the number of registers, two reserved bytes, and the value that was read. -/
def State.registerEnds (s : State) (st : Byte) (w : List Byte) : State := s.emit (.svc (.registers ([st, 1, 0, 0] ++ w)))

theorem exec_svcRegisterRead {req : List Byte} {t : State} (h : s.svcRequest req = t) : exec (.svcRegisterRead req) s = .next (s.after t) := by
  rw [← h]
  exact finishAll_eq s _

theorem exec_svcRegisterWrite {req : List Byte} {t : State} (h : s.svcRequest req = t) : exec (.svcRegisterWrite req) s = .next (s.after t) := by
  rw [← h]
  exact finishAll_eq s _

theorem leNat_oneRegister (kind : Byte) {off : Nat} (h : off < 2 ^ 32) (w : List Byte) : leNat (((oneRegister kind off w).drop 4).take 4) = off := by
  have hdrop : (oneRegister kind off w).drop 4 = leBytes 4 off ++ w := rfl
  rw [hdrop, List.take_left' (Laws.leBytes_length 4 off), Laws.leNat_leBytes_four off h]

theorem kind_oneRegister (kind : Byte) (off : Nat) (w : List Byte) : (oneRegister kind off w).getD 0 0 = kind := rfl
theorem count_oneRegister (kind : Byte) (off : Nat) (w : List Byte) : (oneRegister kind off w).getD 1 0 = 1 := rfl
theorem reserved2_oneRegister (kind : Byte) (off : Nat) (w : List Byte) : (oneRegister kind off w).getD 2 0 = 0 := rfl
theorem reserved3_oneRegister (kind : Byte) (off : Nat) (w : List Byte) : (oneRegister kind off w).getD 3 0 = 0 := rfl

theorem drop_oneRegister (kind : Byte) (off : Nat) (w : List Byte) : (oneRegister kind off w).drop 8 = w :=
  List.drop_left' (by simp [Laws.leBytes_length])

theorem length_oneRegister (kind : Byte) (off : Nat) (w : List Byte) : (oneRegister kind off w).length = 8 + w.length := by
  simp [oneRegister, Laws.leBytes_length]
  omega

/-! What the module's state says of an offset before the access. -/

theorem State.svcStatus_early (hr : s.responder = true) (hf : s.fullMap = false) {off : Nat} (h : off ≠ 0x80000) : s.svcStatus off = some 2 := by
  simp only [State.svcStatus, hr, hf, h, Bool.not_true, Bool.false_eq_true, if_false]

theorem State.svcStatus_open (hf : s.fullMap = true) {off : Nat} (h : off < windowBytes) : s.svcStatus off = none := by
  simp only [State.svcStatus, State.responder_of_fullMap hf, hf, Nat.not_le.2 h, Bool.not_true, Bool.false_eq_true, if_false, if_true]

theorem State.svcRequest_noResponder (ha : s.svcAlive = true) (hr : s.responder = false) (kind : Byte) (off : Nat) (w : List Byte) :
    s.svcRequest (oneRegister kind off w) = s.registerEnds 2 [] := by
  simp only [State.svcRequest, ha, hr, Bool.not_true, Bool.not_false, Bool.false_eq_true, if_false, if_true]
  exact State.answer_alive ha _

/-- The status that says how a write ended. -/
def RegEnd.status : RegEnd → Byte
  | .done => 0 | .absent => 1 | .denied => 3

section
variable {off : Nat} (ha : s.svcAlive = true) (hr : s.responder = true) (halign : off % 4 = 0) (hlt : off < 2 ^ 32)
include ha hr halign hlt

theorem State.svcRequest_read : s.svcRequest (oneRegister 1 off []) =
    (svcReadGo 1 off s).1.answer (.registers ([BitVec.ofNat 8 (svcReadGo 1 off s).2.1, 1, 0, 0] ++
      if (svcReadGo 1 off s).2.1 = 0 then wordBytes (svcReadGo 1 off s).2.2 else [])) := by
  simp only [State.svcRequest, ha, hr, leNat_oneRegister 1 hlt, length_oneRegister, kind_oneRegister, count_oneRegister, reserved2_oneRegister,
    reserved3_oneRegister]
  simp [halign]

theorem State.svcRequest_write (v : Word) : s.svcRequest (oneRegister 2 off (leBytes 4 v.toNat)) =
    (svcWriteGo off [v] s).1.answer (.registers [BitVec.ofNat 8 (svcWriteGo off [v] s).2, 1, 0, 0]) := by
  have hv : BitVec.ofNat 32 (leNat (((oneRegister 2 off (leBytes 4 v.toNat)).drop 8).take 4)) = v := by
    rw [drop_oneRegister, List.take_of_length_le (Nat.le_of_eq (Laws.leBytes_length 4 _)), Laws.leNat_leBytes_four _ v.isLt, BitVec.ofNat_toNat,
      BitVec.setWidth_eq]
  simp only [State.svcRequest, ha, hr, leNat_oneRegister 2 hlt, length_oneRegister, kind_oneRegister, count_oneRegister, reserved2_oneRegister,
    reserved3_oneRegister, show (1 : Byte).toNat = 1 from rfl, List.range_one, List.map_cons, List.map_nil, Nat.mul_zero, Nat.add_zero, hv]
  simp [halign, Laws.leBytes_length, wordBytes]

/-! How the access ends, as the status of the offset and the access itself say. -/

theorem State.svcRequest_read_refused (hst : s.svcStatus off = some 2) : s.svcRequest (oneRegister 1 off []) = s.registerEnds 2 [] := by
  rw [State.svcRequest_read ha hr halign hlt, svcReadGo, hst]
  exact State.answer_alive ha _

theorem State.svcRequest_read_value (hst : s.svcStatus off = none) {x : Word} (hread : s.readAt .service off = (u, some x)) (hu : u.svcAlive = true) :
    s.svcRequest (oneRegister 1 off []) = u.registerEnds 0 (leBytes 4 x.toNat) := by
  have hbytes : wordBytes [x] = leBytes 4 x.toNat := by simp [wordBytes]
  rw [State.svcRequest_read ha hr halign hlt, svcReadGo, hst, hread, ← hbytes]
  exact State.answer_alive hu _

theorem State.svcRequest_read_absent (hst : s.svcStatus off = none) (hread : s.readAt .service off = (u, none)) (hu : u.svcAlive = true) :
    s.svcRequest (oneRegister 1 off []) = u.registerEnds 1 [] := by
  rw [State.svcRequest_read ha hr halign hlt, svcReadGo, hst, hread]
  exact State.answer_alive hu _

theorem State.svcRequest_write_refused (hst : s.svcStatus off = some 2) (v : Word) :
    s.svcRequest (oneRegister 2 off (leBytes 4 v.toNat)) = s.registerEnds 2 [] := by
  rw [State.svcRequest_write ha hr halign hlt, svcWriteGo, hst]
  exact State.answer_alive ha _

theorem State.svcRequest_write_ends (hst : s.svcStatus off = none) {v : Word} {e : RegEnd} (hwrite : s.writeAt .service off v = (u, e))
    (hu : u.svcAlive = true) : s.svcRequest (oneRegister 2 off (leBytes 4 v.toNat)) = u.registerEnds e.status [] := by
  rw [State.svcRequest_write ha hr halign hlt, svcWriteGo, hst, hwrite]
  cases e <;> exact State.answer_alive hu _

end

/-! ### The endpoint and its sensors (17 R505, R506) -/

theorem State.setEid_dead (h : s.svcAlive = false) (e : BitVec 8) : s.setEid e = s := by simp only [State.setEid, h, Bool.not_false, if_true]

theorem State.setEid_names (h : s.svcAlive = true) {e : BitVec 8} (h0 : e ≠ 0) (hF : e ≠ 0xFF) :
    s.setEid e = ({ s with sec := { s.sec with eid := e } } : State).emit (.svc (.control true)) := by
  simp only [State.setEid, h, Bool.not_true, Bool.false_eq_true, if_false, h0, hF, or_self]
  exact State.answer_alive (by exact h) _

theorem State.setEid_refused (h : s.svcAlive = true) {e : BitVec 8} (he : e = 0 ∨ e = 0xFF) : s.setEid e = s.emit (.svc (.control false)) := by
  simp only [State.setEid, h, Bool.not_true, Bool.false_eq_true, if_false, if_pos he]
  exact State.answer_alive h _

/-- Sensors 1 and 2 alone are on the rack side. -/
theorem State.rackSensor_none {n : Nat} (h1 : n ≠ 1) (h2 : n ≠ 2) : s.rackSensor n = none := by
  unfold State.rackSensor
  split
  · exact absurd rfl h1
  · exact absurd rfl h2
  · rfl

theorem State.moduleSensor_none {n : Nat} (h3 : n ≠ 3) (h4 : n ≠ 4) : s.moduleSensor n = none := by
  unfold State.moduleSensor
  split
  · exact absurd rfl h3
  · exact absurd rfl h4
  · rfl

theorem State.numericSensor_none {n : Nat} (h : n = 0 ∨ 20 < n) : s.numericSensor n = none := by
  simp only [State.numericSensor]
  repeat rw [if_neg (by omega)]

theorem State.readSensor_dead (h : s.svcAlive = false) (n : Nat) : s.readSensor n = s := by
  simp only [State.readSensor]
  split <;> exact State.answer_dead h _

theorem State.readSensor_numeric (h : s.svcAlive = true) (hr : s.responder = true) {n : Nat} (h1 : n ≠ 1) (h2 : n ≠ 2) :
    s.readSensor n = s.emit (.svc (sensorSvc (s.numericSensor n))) := by
  simp only [State.readSensor, State.rackSensor_none h1 h2, hr, if_true]
  exact State.answer_alive h _

theorem State.readState_answers (h : s.svcAlive = true) (hr : s.responder = true) (n : Nat) :
    s.readState n = s.emit (.svc (sensorSvc ((s.rackSensor n).or (s.moduleSensor n)))) := by
  simp only [State.readState, hr, if_true]
  exact State.answer_alive h _

theorem State.readState_notReady (h : s.svcAlive = true) (hr : s.responder = false) (n : Nat) : s.readState n = s.emit (.svc notReady) := by
  simp only [State.readState, hr, Bool.false_eq_true, if_false]
  exact State.answer_alive h _

theorem State.readPdr_answers (h : s.svcAlive = true) (hr : s.responder = true) (hd : Word) :
    s.readPdr hd = s.emit (.svc (.pdr (Config.sensorPdr hd.toNat))) := by
  simp only [State.readPdr, hr, if_true]
  exact State.answer_alive h _

theorem State.readPdr_notReady (h : s.svcAlive = true) (hr : s.responder = false) (hd : Word) : s.readPdr hd = s.emit (.svc notReady) := by
  simp only [State.readPdr, hr, Bool.false_eq_true, if_false]
  exact State.answer_alive h _

/-! ### The responder (17 R500-R503) -/

theorem State.spdm_busy (h : s.svcAlive = true) (hr : s.responder = false) (r : SpdmReq) : s.spdm .service r = s.emit (.svc (.spdm (.error .busy))) := by
  simp only [State.spdm, h, hr, Bool.not_true, Bool.not_false, Bool.false_eq_true, if_false, if_true]
  exact State.answer_alive h _

/-- The connection of the rack side goes to `st` with the answer `a`. -/
def State.spdmTurn (s : State) (st : SpdmState) (a : SpdmRsp) : State :=
  ({ s with fresh := s.fresh + 1, sec := { s.sec with svcConn := st } } : State).emit (.svc (.spdm a))

theorem State.spdm_turn (h : s.svcAlive = true) (hr : s.responder = true) {r : SpdmReq} {a : SpdmRsp} {st : SpdmState}
    (ha : s.spdmAnswer s.sec.svcConn r = (a, st)) : s.spdm .service r = s.spdmTurn st a := by
  simp only [State.spdm, h, hr, Bool.not_true, Bool.false_eq_true, if_false, ha]
  exact State.answer_alive (by exact h) _

/-- No digests before the negotiation has ended. -/
theorem State.spdmAnswer_digests_early {st : SpdmState} (h : st ≠ .ready) : s.spdmAnswer st .digests = (.error .unexpectedRequest, st) := by
  cases st with
  | ready => exact absurd rfl h
  | _ => rfl

theorem State.spdmAnswer_certificate {off : Nat} (h : off < Config.certChain.length) (len : Nat) :
    s.spdmAnswer .ready (.certificate 0 off len) = (.certificate ((Config.certChain.drop off).take len)
      (Config.certChain.length - min Config.certChain.length (off + len)), .ready) :=
  if_neg (by omega)

theorem State.spdmAnswer_measurement {i : Nat} (h1 : 1 ≤ i) (h6 : i ≤ 6) (sg : Bool) (nonce : List Byte) :
    s.spdmAnswer .ready (.measurements i sg nonce) =
      (.measurements 1 [(i, s.measurement i)] (if sg then some (Config.spdmSignature s.fresh) else none), .ready) := by
  simp only [State.spdmAnswer]
  rw [if_neg (by omega), if_neg (by omega), if_pos h6]
  rfl

/-! ### The mailbox (17 R503, R513) -/

theorem len_go31 (v : Word) : wbits (go31 v) 0 13 = v.toNat % 8192 := by
  rw [wbits_go31 v 0 13 (by decide), BitVec.extractLsb'_toNat, Nat.shiftRight_zero]

theorem State.wSpdmCtl_begins {v : Word} (hb : s.sec.spdmBusy = false) (h1 : 1 ≤ v.toNat % 8192) (h2 : v.toNat % 8192 ≤ 4096) :
    s.wSpdmCtl (go31 v) = { s with sec := { s.sec with spdmErr := false, spdmLen := .ofNat 13 (v.toNat % 8192), spdmBusy := true, spdmOut := none } } := by
  simp only [State.wSpdmCtl, len_go31, bit31_go31, hb, Bool.false_eq_true, false_or]
  exact if_neg (by omega)

theorem State.wSpdmCtl_refused {v : Word} (h : s.sec.spdmBusy = true ∨ v.toNat % 8192 = 0 ∨ 4096 < v.toNat % 8192) :
    s.wSpdmCtl (go31 v) = { s with sec := { s.sec with spdmErr := true } } := by
  simp only [State.wSpdmCtl, len_go31]
  exact if_pos h

theorem State.spdm_mailbox_version (hb : s.sec.spdmBusy = true) (ho : s.sec.spdmOut = none) : s.spdm .mailbox .version =
    { s with fresh := s.fresh + 1, sec := { s.sec with boxConn := .version, spdmOut := some (Config.spdmBytes .version) } } :=
  if_neg (by simp [hb, ho])

theorem State.mailboxDone_idle (h : s.sec.spdmBusy = false) : s.mailboxDone = s := by simp only [State.mailboxDone, h, Bool.not_false, if_true]

/-- The words of a response, as the window holds them. -/
def rspWords (bs : List Byte) : List Word := (List.range (ceilDiv bs.length 4)).map fun i => .ofNat 32 (leNat ((bs.drop (4 * i)).take 4))

theorem State.mailboxDone_answers {bs : List Byte} (hb : s.sec.spdmBusy = true) (ho : s.sec.spdmOut = some bs) (hl : bs.length ≤ 4096) :
    s.mailboxDone = { s with sec := { s.sec with spdmBusy := false, spdmOut := none, spdmLen := .ofNat 13 bs.length,
                                                 spdmRsp := swrite 0 [] 0 (rspWords bs) } } := by
  simp only [State.mailboxDone, hb, ho, Bool.not_true, Bool.false_eq_true, if_false, Option.getD_some, List.take_of_length_le hl]
  rfl

/-- Every word of the response stands in its place in the window. -/
theorem sget_rspWords {bs : List Byte} {j : Nat} (h : 4 * j < bs.length) :
    sget 0 (swrite 0 [] 0 (rspWords bs)) j = .ofNat 32 (leNat ((bs.drop (4 * j)).take 4)) := by
  have hj : j < (rspWords bs).length := by
    simp only [rspWords, List.length_map, List.length_range, ceilDiv]
    omega
  have hget := sget_swrite (0 : Word) [] 0 j (rspWords bs) hj
  rw [Nat.zero_add] at hget
  rw [hget]
  simp only [rspWords, List.getElem_map, List.getElem_range]

/-! ### The statement -/

/-- Settles O56: a request of one register ends as the state of the module and the access say, each other request has one equation, and the
responder answers by the state of its connection (log entry 20: the codes and answers that the spec leaves open). -/
theorem serviceInterface : Obligations.ServiceInterface := by
  refine ⟨fun s off v halign hwindow ha => ?registers, fun s a e n hd => ?endpoint, fun s slot slot8 i off len nonce sg ha => ?responder,
    fun s v hready => ?mailbox⟩
  case registers =>
    have hlt : off < 2 ^ 32 := by omega
    refine ⟨fun hr => ⟨?_, ?_⟩, fun hr hf hoff => ⟨?_, ?_⟩, fun hf => ?_⟩
    · exact exec_svcRegisterRead (State.svcRequest_noResponder ha hr 1 off [])
    · exact exec_svcRegisterWrite (State.svcRequest_noResponder ha hr 2 off _)
    · exact exec_svcRegisterRead (State.svcRequest_read_refused ha hr halign hlt (State.svcStatus_early hr hf hoff))
    · exact exec_svcRegisterWrite (State.svcRequest_write_refused ha hr halign hlt (State.svcStatus_early hr hf hoff) v)
    · have hr := State.responder_of_fullMap hf
      have hst := State.svcStatus_open hf hwindow
      refine ⟨fun u x hread hu => ?_, fun u hread hu => ?_, fun u e hwrite hu => ?_⟩
      · exact exec_svcRegisterRead (State.svcRequest_read_value ha hr halign hlt hst hread hu)
      · exact exec_svcRegisterRead (State.svcRequest_read_absent ha hr halign hlt hst hread hu)
      · have hends := exec_svcRegisterWrite (State.svcRequest_write_ends ha hr halign hlt hst hwrite hu)
        cases e <;> exact hends
  case endpoint =>
    refine ⟨rfl, rfl, fun h => ?_, fun h => ?_, fun h => ?_, fun h => ?_⟩
    · exact congrArg Host.Outcome.next (if_pos h)
    · exact congrArg Host.Outcome.next (if_neg (by simp [h]))
    · exact ⟨congrArg _ (State.setEid_dead h e), congrArg _ (State.readSensor_dead h _), congrArg _ (State.answer_dead h _), congrArg _ (State.answer_dead h _)⟩
    refine ⟨fun h0 hF => congrArg _ (State.setEid_names h h0 hF), fun he => congrArg _ (State.setEid_refused h he),
      congrArg _ (State.answer_alive h _), fun hr => ⟨fun x hx h1 h2 => ?_, fun hn => ?_, ?_, congrArg _ (State.readPdr_answers h hr hd)⟩,
      fun hr => ⟨congrArg _ (State.readState_notReady h hr _), congrArg _ (State.readPdr_notReady h hr hd)⟩⟩
    · have hx' := State.readSensor_numeric h hr (n := n.toNat) (fun hn => h1 (BitVec.eq_of_toNat_eq hn)) fun hn => h2 (BitVec.eq_of_toNat_eq hn)
      rw [hx] at hx'
      exact congrArg _ hx'
    · have hnum := State.readSensor_numeric (n := n.toNat) h hr (by omega) (by omega)
      have hstate := State.readState_answers h hr n.toNat
      rw [State.numericSensor_none hn] at hnum
      rw [State.rackSensor_none (by omega) (by omega), State.moduleSensor_none (by omega) (by omega)] at hstate
      exact ⟨congrArg _ hnum, congrArg _ hstate⟩
    · exact congrArg _ (State.readState_answers h hr 3)
  case responder =>
    intro cs next
    refine ⟨fun hr c hc => ?_, fun hr => ?_⟩
    · have hbusy := State.spdm_busy ha hr
      simp only [cs, List.mem_cons, List.not_mem_nil, or_false] at hc
      rcases hc with rfl | rfl | rfl | rfl | rfl | rfl | rfl <;> exact congrArg _ (hbusy _)
    · have hturn {r : SpdmReq} {a : SpdmRsp} {st st' : SpdmState} (hst : s.sec.svcConn = st) (hans : s.spdmAnswer st r = (a, st')) :
          Host.Outcome.next (s.spdm .service r) = (Host.Outcome.next (next st' a) : Res) := by
        rw [← hst] at hans
        exact congrArg _ (State.spdm_turn ha hr hans)
      refine ⟨hturn rfl rfl, fun hst => hturn hst rfl, fun hst => ⟨hturn hst rfl, hturn hst rfl⟩, fun hst => hturn rfl (State.spdmAnswer_digests_early hst),
        fun hst => ⟨hturn hst rfl, fun hslot hoff => ?_, fun hslot => ?_, fun h1 h6 => hturn hst (State.spdmAnswer_measurement h1 h6 sg nonce)⟩⟩
      · subst hslot
        exact hturn hst (State.spdmAnswer_certificate hoff _)
      · subst hslot
        exact hturn hst rfl
  case mailbox =>
    refine ⟨fun hb h1 h2 => ?_, fun h => ?_, fun hb ho => congrArg _ (State.spdm_mailbox_version hb ho), fun hb => congrArg _ (State.mailboxDone_idle hb),
      fun bs hb ho hl => ?_⟩
    · rw [exec_secSpdmCtlGo_queue hready, State.wSpdmCtl_begins hb h1 h2]
    · rw [exec_secSpdmCtlGo_queue hready, State.wSpdmCtl_refused h]
    · have hdone : exec .spdmMailboxComplete s = .next _ := congrArg Host.Outcome.next (State.mailboxDone_answers hb ho hl)
      exact ⟨_, hdone, rfl, rfl, rfl, fun j hj => sget_rspWords hj⟩

end Sys2Proof.Machine
end

section
/-!
O57: the firmware update of the service interface (17 R508-R511): one equation of each command in each state of an update, and what a complete
component leaves in the two flash banks.
-/

namespace Sys2Proof.Machine

variable {s : State}

/-! ### Who answers -/

theorem State.fw_notReady (ha : s.svcAlive = true) (hf : s.fullMap = false) (f : State → State) : s.fw f = s.emit (.svc notReady) := by
  simp only [State.fw, ha, hf, Bool.not_true, Bool.false_eq_true, if_false]
  exact State.answer_alive ha _

theorem State.fw_runs (ha : s.svcAlive = true) (hf : s.fullMap = true) (f : State → State) : s.fw f = f s := by
  simp only [State.fw, ha, hf, Bool.not_true, Bool.false_eq_true, if_false, if_true]

theorem State.answer_setUpdate (ha : s.svcAlive = true) (x : Update) (a : Svc) : (s.setUpdate x).answer a = (s.setUpdate x).emit (.svc a) :=
  State.answer_alive (by exact ha) a

/-! ### Commands of the update agent (17 R509) -/

section
variable (ha : s.svcAlive = true)
include ha

theorem State.requestUpdate_idle (h : s.sec.update = .idle) : s.requestUpdate = (s.setUpdate .started).emit (.svc (fwCode 0x10 0 [])) := by
  simp only [State.requestUpdate, h]
  exact State.answer_alive (by exact ha) _

theorem State.requestUpdate_running (h : s.sec.update ≠ .idle) : s.requestUpdate = s.emit (.svc (fwCode 0x10 0x81 [])) := by
  unfold State.requestUpdate
  split
  · exact absurd ‹_› h
  · exact State.answer_alive ha _

theorem State.cancelUpdate_idle (h : s.sec.update = .idle) : s.cancelUpdate = s.emit (.svc (fwCode 0x1D 0x80 [])) := by
  simp only [State.cancelUpdate, h]
  exact State.answer_alive ha _

theorem State.cancelUpdate_running (h : s.sec.update ≠ .idle) : s.cancelUpdate = (s.setUpdate .idle).emit (.svc (fwCode 0x1D 0 [])) := by
  unfold State.cancelUpdate
  split
  · exact absurd ‹_› h
  · exact State.answer_alive (by exact ha) _

theorem State.passTable_idle (h : s.sec.update = .idle) (t : List (BitVec 16)) : s.passTable t = s.emit (.svc (fwCode 0x13 0x80 [])) := by
  simp only [State.passTable, h]
  exact State.answer_alive ha _

theorem State.passTable_started (h : s.sec.update = .started) (t : List (BitVec 16)) :
    s.passTable t = (s.setUpdate (.ready t)).emit (.svc (fwCode 0x13 0 [])) := by
  simp only [State.passTable, h]
  exact State.answer_alive (by exact ha) _

theorem State.updateComponent_idle (h : s.sec.update = .idle) (k : BitVec 16) (size : Nat) :
    s.updateComponent k size = s.emit (.svc (fwCode 0x14 0x80 [])) := by
  simp only [State.updateComponent, h]
  exact State.answer_alive ha _

/-- A component of the table whose size fits its area is asked for from its first byte. -/
theorem State.updateComponent_accepted {t : List (BitVec 16)} {k : BitVec 16} {size : Nat} (h : s.sec.update = .ready t) (hk : k ∈ t)
    (hstage : k = 1 ∨ k = 2) (h0 : 0 < size) (hfits : size ≤ (stageArea (k == 2)).2) : s.updateComponent k size =
      ((s.setUpdate (.loading t k size [])).emit (.svc (fwCode 0x14 0 [0]))).emit (.svc (fwCode 0x15 0 [0, size])) := by
  have hall : t.contains k = true ∧ (k = 1 ∨ k = 2) ∧ 0 < size ∧ size ≤ (stageArea (k == 2)).2 := ⟨List.contains_iff_mem.2 hk, hstage, h0, hfits⟩
  simp only [State.updateComponent, h, if_pos hall]
  rw [State.answer_setUpdate ha]
  exact State.answer_alive (by exact ha) _

theorem State.activate_idle (h : s.sec.update = .idle) : s.activate = s.emit (.svc (fwCode 0x1A 0x80 [])) := by
  simp only [State.activate, h]
  exact State.answer_alive ha _

theorem State.activate_ready {t : List (BitVec 16)} (h : s.sec.update = .ready t) :
    s.activate = ({ s with sec := { s.sec with update := .idle, pendingFw := true } } : State).emit (.svc (fwCode 0x1A 0 [])) := by
  simp only [State.activate, h]
  exact State.answer_alive (by exact ha) _

end

/-! ### A component's data (17 R510, R511) -/

theorem State.firmwareData_idle (h : s.sec.update = .idle) (bs : List Byte) (b a : SigVerdict) : s.firmwareData bs b a = s := by
  simp only [State.firmwareData, h]

section
variable {t : List (BitVec 16)} {k : BitVec 16} {n : Nat} {got bs : List Byte} (ha : s.svcAlive = true) (h : s.sec.update = .loading t k n got)
include ha h

theorem State.firmwareData_asks (hmore : got.length + bs.length < n) (b a : SigVerdict) : s.firmwareData bs b a =
    (s.setUpdate (.loading t k n (got ++ bs))).emit (.svc (fwCode 0x15 0 [got.length + bs.length, n - (got.length + bs.length)])) := by
  have hall : (got ++ bs).take n = got ++ bs := List.take_of_length_le (by rw [List.length_append]; omega)
  simp only [State.firmwareData, h, hall, List.length_append, if_pos hmore]
  exact State.answer_alive (by exact ha) _

theorem State.firmwareData_installs (hlast : got.length + bs.length = n) (b a : SigVerdict) : s.firmwareData bs b a =
    ((s.setUpdate (.ready t)).emit (.svc (fwCode 0x16 0 [0]))).install (k == 2) (got ++ bs) b a := by
  have hall : (got ++ bs).take n = got ++ bs := List.take_of_length_le (by rw [List.length_append]; omega)
  simp only [State.firmwareData, h, hall, List.length_append, hlast, Nat.lt_irrefl, if_false]
  rw [State.answer_setUpdate ha]

end

/-! ### What an installed component leaves in flash -/

theorem Sec.sigCause_congr {c d : Sec} (hecdsa : d.ecdsaRev = c.ecdsaRev) (hlms : d.lmsRev = c.lmsRev) : d.sigCause = c.sigCause := by
  unfold Sec.sigCause
  rw [hecdsa, hlms]

theorem Sec.verify_congr {c d : Sec} (hsvn : d.svn = c.svn) (hecdsa : d.ecdsaRev = c.ecdsaRev) (hlms : d.lmsRev = c.lmsRev) : d.verify = c.verify := by
  unfold Sec.verify
  rw [hsvn, Sec.sigCause_congr hecdsa hlms]

/-- Verifying a bank reads that bank, the fused version and the revoked keys, and nothing else. -/
theorem Sec.verifyBank_congr {c d : Sec} {bank : Bool} (hbank : (if bank then d.flashB else d.flashA) = if bank then c.flashB else c.flashA)
    (hsvn : d.svn = c.svn) (hecdsa : d.ecdsaRev = c.ecdsaRev) (hlms : d.lmsRev = c.lmsRev) (two : Bool) (v : SigVerdict) :
    d.verifyBank two bank v = c.verifyBank two bank v := by
  have hflash : d.flash bank = c.flash bank := by
    unfold Sec.flash
    rw [hbank]
  unfold Sec.verifyBank
  rw [hflash, Sec.verify_congr hsvn hecdsa hlms]

/-- A write into bank A is not seen in bank B. -/
theorem Sec.verifyBank_writeBankA (c : Sec) (two : Bool) (bs : List Byte) (v : SigVerdict) :
    (c.writeBank two false bs).verifyBank two true v = c.verifyBank two true v :=
  Sec.verifyBank_congr (c := c) (d := c.writeBank two false bs) (bank := true) rfl rfl rfl rfl two v

theorem Sec.flash_writeBank (c : Sec) (two bank : Bool) (bs : List Byte) :
    (c.writeBank two bank bs).flash bank (stageArea two).1 bs.length = bs := by
  cases bank <;> exact sread_swrite 0xFF _ _ bs

@[simp] theorem State.sec_answer (s : State) (a : Svc) : (s.answer a).sec = s.sec := by
  simp only [State.answer]
  split <;> rfl

@[simp] theorem State.sec_log (s : State) (i : RecInfo) : (s.log i).sec = s.sec := (congrArg State.sec (s.log_onlyRecords i).beyond :)

/-- An image that fails in bank B leaves bank A alone. -/
theorem State.sec_install_error {two : Bool} {bs : List Byte} {b : SigVerdict} {e : Nat}
    (h : (s.sec.writeBank two true bs).verifyBank two true b = .error e) (a : SigVerdict) :
    (s.install two bs b a).sec = s.sec.writeBank two true bs := by
  simp only [State.install, State.modSec_sec, h, State.sec_log, State.sec_answer]

/-- An image that verifies in bank B is written into bank A too. -/
theorem State.sec_install_ok {two : Bool} {bs : List Byte} {b : SigVerdict} {i : StageImg}
    (h : (s.sec.writeBank two true bs).verifyBank two true b = .ok i) (a : SigVerdict) :
    (s.install two bs b a).sec = (s.sec.writeBank two true bs).writeBank two false bs := by
  simp only [State.install, State.modSec_sec, h, State.sec_answer]

/-- What the two banks hold after an install, whichever way the image verifies in bank B. -/
structure Sec.Installed (c d : Sec) (two : Bool) (bs : List Byte) (b : SigVerdict) : Prop where
  update : d.update = c.update
  pendingFw : d.pendingFw = c.pendingFw
  bankB : d.flash true (stageArea two).1 bs.length = bs
  kept : ∀ e, d.verifyBank two true b = .error e → d.flashA = c.flashA
  bankA : ∀ i, d.verifyBank two true b = .ok i → d.flash false (stageArea two).1 bs.length = bs

theorem State.install_installed (s : State) (two : Bool) (bs : List Byte) (b a : SigVerdict) : s.sec.Installed (s.install two bs b a).sec two bs b := by
  have hB := s.sec.flash_writeBank two true bs
  cases hv : (s.sec.writeBank two true bs).verifyBank two true b with
  | error e =>
    rw [State.sec_install_error hv]
    exact ⟨rfl, rfl, hB, fun _ _ => rfl, fun i hi => by rw [hv] at hi; cases hi⟩
  | ok i =>
    have hsame : ((s.sec.writeBank two true bs).writeBank two false bs).verifyBank two true b = .ok i :=
      (Sec.verifyBank_writeBankA _ two bs b).trans hv
    rw [State.sec_install_ok hv]
    exact ⟨rfl, rfl, hB, fun e he => (by rw [hsame] at he; cases he), fun _ _ => Sec.flash_writeBank _ two false bs⟩

/-! ### The statement -/

/-- Settles O57: each command is one equation in each state of the update, and an install leaves in the banks what the image's check in bank B says
(log entries 20 and 51: the completion codes, and ACTIVATE in the ready state). -/
theorem firmwareUpdate : Obligations.FirmwareUpdate := by
  intro s t k size bs b a saying put
  refine ⟨fun ha hf c hc => ?notReady, fun ha hf => ?answers⟩
  case notReady =>
    have hfw (f : State → State) : Host.Outcome.next (s.fw f) = (Host.Outcome.next (s.emit (.svc (.pldmError 4))) : Res) :=
      congrArg _ (State.fw_notReady ha hf f)
    simp only [List.mem_cons, List.not_mem_nil, or_false] at hc
    rcases hc with rfl | rfl | rfl | rfl | rfl | rfl | rfl | rfl <;> exact hfw _
  case answers =>
    have hrun {f : State → State} {u : State} (h : f s = u) : Host.Outcome.next (s.fw f) = (Host.Outcome.next u : Res) := by
      rw [State.fw_runs ha hf, h]
    have hdata {u : State} (h : s.firmwareData bs b a = u) : exec (.firmwareDataReceive bs b a) s = .next (s.after u) := by
      rw [← h, ← State.fw_runs ha hf (·.firmwareData bs b a)]
      exact finishAll_eq s _
    refine ⟨hrun (State.answer_alive ha _), hrun (State.answer_alive ha _), hrun (State.answer_alive ha _), fun h => ⟨?_, ?_, ?_, ?_, ?_, ?_⟩,
      fun h => ⟨?_, ?_⟩, fun h => ?_, fun h => ⟨fun hk hstage h0 hfits => ?_, ?_⟩, fun n got h hmore => ?_, fun n got h hlast => ?_⟩
    · exact hrun (State.requestUpdate_idle ha h)
    · exact hrun (State.passTable_idle ha h t)
    · exact hrun (State.updateComponent_idle ha h k _)
    · exact hrun (State.activate_idle ha h)
    · exact hrun (State.cancelUpdate_idle ha h)
    · exact hdata (State.firmwareData_idle h bs b a)
    · exact hrun (State.requestUpdate_running ha h)
    · exact hrun (State.cancelUpdate_running ha h)
    · exact hrun (State.passTable_started ha h t)
    · exact hrun (State.updateComponent_accepted ha h hk hstage h0 hfits)
    · exact hrun (State.activate_ready ha h)
    · exact hdata (State.firmwareData_asks ha h hmore b a)
    · obtain ⟨hupdate, hpending, hB, hkept, hA⟩ := ((s.setUpdate (.ready t)).emit (.svc (fwCode 0x16 0 [0]))).install_installed (k == 2) (got ++ bs) b a
      rw [List.length_append, hlast] at hB hA
      exact ⟨_, hdata (State.firmwareData_installs ha h hlast b a), hupdate, hpending, hB, hkept, hA⟩

end Sys2Proof.Machine
end

section
/-!
Training begins (00 R8, 11 R312): what FAB_COORD says of the device's id and of each port, and that the rest of the device stays.
-/

namespace Sys2Proof.Machine

variable {s : State} {w : Word}

/-! ### A fold over the ports -/

/-- `t` differs from `s` in the ports' own state, and in nothing else. -/
def State.OnlyPorts (s t : State) : Prop := t = { s with fab := { s.fab with ports := t.fab.ports } }

/-- Each port is changed once, when what changes it reads no port. -/
theorem State.port_foldl_modPort (F : State → Fin 6 → Port → Port) (hF : ∀ v q f, F (State.modPort v q f) = F v) (ps : List (Fin 6)) (hd : ps.Nodup)
    (s : State) (p : Fin 6) : (ps.foldl (fun s p => s.modPort p (F s p)) s).port p = if p ∈ ps then F s p (s.port p) else s.port p := by
  induction ps generalizing s with
  | nil => rfl
  | cons q ps ih =>
    obtain ⟨hq, hps⟩ := List.nodup_cons.1 hd
    rw [List.foldl_cons, ih hps, hF]
    by_cases hpq : p = q
    · subst hpq
      simp [hq]
    · simp [hpq]

theorem mem_allPorts (p : Fin 6) : p ∈ allPorts := by revert p; decide

/-- Every port is trained to the state that `g` says. -/
@[irreducible] def State.trainAll (s : State) (g : State → Fin 6 → PortState) : State := allPorts.foldl (fun s p => s.modPort p fun q => q.train (g s p)) s

theorem State.onlyPorts_trainAll (s : State) (g : State → Fin 6 → PortState) : s.OnlyPorts (s.trainAll g) := by
  unfold State.trainAll
  exact List.foldlRecOn (motive := s.OnlyPorts) allPorts _ rfl fun v hv p _ => by
    rw [State.OnlyPorts] at hv ⊢
    rw [hv]
    rfl

theorem State.state_trainAll {g : State → Fin 6 → PortState} (hg : ∀ v q f, g (State.modPort v q f) = g v) (s : State) (p : Fin 6) :
    ((s.trainAll g).port p).state = g s p := by
  have hport := State.port_foldl_modPort (fun s p q => q.train (g s p)) (fun v q f => by rw [hg]) allPorts (by decide) s p
  rw [if_pos (mem_allPorts p)] at hport
  rw [State.trainAll, hport]
  rfl

/-! ### Coordinates -/

theorem coordOf_lt (w : Word) (a : Axis) : coordOf w a < 16 := Nat.mod_lt _ (by decide)

/-- The id holds the coordinates as nibbles. -/
theorem devCoord_devOfCoord (w : Word) (a : Axis) : devCoord (BitVec.ofNat 12 (devOfCoord w)).toNat a = coordOf w a := by
  have hx := coordOf_lt w .x
  have hy := coordOf_lt w .y
  have hz := coordOf_lt w .z
  rw [BitVec.toNat_ofNat, devOfCoord, devCoord, Nat.shiftRight_eq_div_pow]
  cases a <;> simp only [axisNo] <;> omega

theorem State.sysDim_trained (h : s.fab.trained = some w) (a : Axis) : s.sysDim a = coordSide w a := by
  simp only [State.sysDim, h]
  cases a <;> rfl

/-- The ports that lead to a neighbour: both of an axis longer than 2, and on an axis of length 2 the one toward the other device (11 R311). -/
theorem State.nbrOf_isNone_iff (h : s.fab.trained = some w) (hid : s.devid = .ofNat 12 (devOfCoord w)) (p : Fin 6) :
    (s.nbrOf s.devid.toNat p.val).isNone = true ↔
      ¬ (2 < coordSide w (portAxis p) ∨ (coordSide w (portAxis p) = 2 ∧ coordOf w (portAxis p) = p.val % 2)) := by
  have hp : Fin.ofNat 6 p.val = p := Fin.ofNat_val_eq_self p
  have hparity := Nat.mod_two_eq_zero_or_one p.val
  simp only [State.nbrOf, hp, State.sysDim_trained h, hid, devCoord_devOfCoord]
  generalize coordSide w (portAxis p) = n
  generalize coordOf w (portAxis p) = i
  by_cases h1 : n ≤ 1
  · simp [h1]
    omega
  · by_cases h2 : n = 2
    · rcases hparity with h0 | h0 <;> simp [h2, h0]
    · simp [h1, h2]
      omega

theorem badCoord_eq_false (h : ∀ a, coordOf w a < coordSide w a) : badCoord w = false := by
  simp [badCoord, h]

theorem badCoord_eq_true (h : ∃ a, coordSide w a ≤ coordOf w a) : badCoord w = true := by
  obtain ⟨a, ha⟩ := h
  cases a <;> simp [badCoord, ha]

/-! ### The beginning of training -/

/-- Training runs under FAB_COORD; nothing of the beat that went before is kept. -/
def State.underCoord (s : State) : State :=
  { s with fab := { s.fab with trained := some s.fab.coord, retraining := true, announced := [], holding := false, checkedTo := 0 } }

/-- What a device outside its shape makes of a port: it trains none. -/
def alonePort (w : Word) (p : Fin 6) : PortState := if coordSide w (portAxis p) = 1 then .unused else .down

/-- What a device within its shape makes of a port: it trains those that lead to a neighbour. -/
def State.shapePort (s : State) (p : Fin 6) : PortState := if (s.nbrOf s.devid.toNat p.val).isNone then .unused else .training

/-- The device with the id of its coordinate. -/
def State.withId (s : State) (w : Word) : State := { s with devid := .ofNat 12 (devOfCoord w), devidValid := true }

theorem State.beginTraining_outside (h : badCoord s.fab.coord = true) : s.beginTraining =
    { s.underCoord.trainAll (fun _ => alonePort s.fab.coord) with
      devid := 0, devidValid := false,
      fab := { (s.underCoord.trainAll fun _ => alonePort s.fab.coord).fab with live := false, isLeader := false } } := by
  unfold State.trainAll
  exact if_pos h

theorem State.beginTraining_inside (h : badCoord s.fab.coord = false) :
    s.beginTraining = (s.underCoord.withId s.fab.coord).trainAll State.shapePort := by
  unfold State.trainAll
  exact if_neg (by rw [h]; exact Bool.false_ne_true)

theorem State.OnlyPorts.sec {t : State} (h : s.OnlyPorts t) : t.sec = s.sec := by rw [h]

theorem State.sec_beginTraining (s : State) : s.beginTraining.sec = s.sec := by
  cases h : badCoord s.fab.coord with
  | true =>
    rw [State.beginTraining_outside h]
    exact (State.onlyPorts_trainAll s.underCoord fun _ => alonePort s.fab.coord).sec
  | false =>
    rw [State.beginTraining_inside h]
    exact (State.onlyPorts_trainAll (s.underCoord.withId s.fab.coord) State.shapePort).sec

theorem State.beginTraining_trainingBegun (s : State) : s.trainingBegun s.beginTraining := by
  cases h : badCoord s.fab.coord with
  | true =>
    have hports := State.onlyPorts_trainAll s.underCoord fun _ => alonePort s.fab.coord
    have hstate := State.state_trainAll (g := fun _ => alonePort s.fab.coord) (fun _ _ _ => rfl) s.underCoord
    rw [State.beginTraining_outside h]
    refine ⟨?_, ?_, ?_, fun hin => ?_, fun _ => ⟨rfl, hstate⟩⟩
    · rw [hports]; rfl
    · rw [hports]; rfl
    · rw [hports]; rfl
    · rw [badCoord_eq_false hin] at h
      cases h
  | false =>
    have hports := State.onlyPorts_trainAll (s.underCoord.withId s.fab.coord) State.shapePort
    have hstate := State.state_trainAll (g := State.shapePort) (fun _ _ _ => rfl) (s.underCoord.withId s.fab.coord)
    rw [State.beginTraining_inside h]
    refine ⟨?_, ?_, ?_, fun _ => ⟨?_, ?_, fun p => ?_⟩, fun hout => ?_⟩
    · rw [hports]; rfl
    · rw [hports]; rfl
    · rw [hports]; rfl
    · rw [hports]; rfl
    · rw [hports]; rfl
    · rw [hstate, State.shapePort]
      simp only [State.nbrOf_isNone_iff (w := s.fab.coord) (s := s.underCoord.withId s.fab.coord) rfl rfl p, ite_not]
    · rw [badCoord_eq_true hout] at h
      cases h

end Sys2Proof.Machine
end

section
/-!
O58, the boot from ROM to the wait for configuration (17 R491-R496): which bank starts, what is measured, how a failure stops, and that the
account of the history leaves the boot block alone and takes no drain flag away.
-/

namespace Sys2Proof.Machine

variable {s t u : State}

/-! ### The two banks -/

/-- Trying the banks reads the flash, the fused version and the revoked keys, and nothing else. -/
theorem Sec.tryBanks_congr {c d : Sec} (hA : d.flashA = c.flashA) (hB : d.flashB = c.flashB) (hsvn : d.svn = c.svn) (hecdsa : d.ecdsaRev = c.ecdsaRev)
    (hlms : d.lmsRev = c.lmsRev) (two first : Bool) (v : BootVerdicts) : d.tryBanks two first v = c.tryBanks two first v := by
  have hverify (bank : Bool) (w : SigVerdict) : d.verifyBank two bank w = c.verifyBank two bank w :=
    Sec.verifyBank_congr (by rw [hA, hB]) hsvn hecdsa hlms two w
  simp only [Sec.tryBanks, hverify]

section
variable {c : Sec} {two first : Bool} {v : BootVerdicts} {i : StageImg} {e f : Nat}

theorem Sec.tryBanks_first (h : c.verifyBank two first (verdictOf v two first) = .ok i) : c.tryBanks two first v = (some (first, i), []) := by
  simp only [Sec.tryBanks, h]

theorem Sec.tryBanks_second (h : c.verifyBank two first (verdictOf v two first) = .error e)
    (h' : c.verifyBank two (!first) (verdictOf v two (!first)) = .ok i) : c.tryBanks two first v = (some (!first, i), [e]) := by
  simp only [Sec.tryBanks, h, h']

theorem Sec.tryBanks_none (h : c.verifyBank two first (verdictOf v two first) = .error e)
    (h' : c.verifyBank two (!first) (verdictOf v two (!first)) = .error f) : c.tryBanks two first v = (none, [e, f]) := by
  simp only [Sec.tryBanks, h, h']

end

/-! ### A boot that fails -/

theorem State.sec_bootFail (s : State) (cause : BitVec 4) (writable : Bool) : (s.bootFail cause writable).sec = { s.sec with stage := 0xF, cause := cause } := by
  cases writable <;> rfl

theorem State.history_bootFail (s : State) (cause : BitVec 4) : (s.bootFail cause true).err.history =
    trimHistory s.err.history s.err.opsec ++ [{ kind := 8, unit := 0, what := .bootFail cause, second := s.err.opsec }] := rfl

/-! ### The ROM (17 R494) -/

/-- The ROM locks the device secret, and measures itself and the fuses. -/
def State.romStart (s : State) : State :=
  let s := s.modSec fun c => { c with secretLocked := true, pendingFw := false }
  (s.setMeas 1 Config.romDigest).setMeas 2 (leBytes 4 s.sec.fuse.toNat ++ Config.repairDigest)

/-- It notes the causes of the tries that failed. -/
def State.romTried (s : State) (tries : List Nat) : State := s.romStart.modSec fun c => { c with tries := tries, fallback := !tries.isEmpty }

theorem State.bootRom_stays (h : s.sec.powered = false ∨ s.sec.stage ≠ 0 ∨ s.sec.secretLocked = true) (v : BootVerdicts) : s.bootRom v = s := if_pos h

theorem State.tryBanks_romStart (s : State) (two first : Bool) (v : BootVerdicts) :
    s.romStart.sec.tryBanks two first v = s.sec.tryBanks two first v :=
  Sec.tryBanks_congr (c := s.sec) (d := s.romStart.sec) rfl rfl rfl rfl rfl two first v

section
variable {v : BootVerdicts} {tries : List Nat} (hp : s.sec.powered = true) (h0 : s.sec.stage = 0) (hl : s.sec.secretLocked = false)
include hp h0 hl

theorem State.romRuns : ¬ (s.sec.powered = false ∨ s.sec.stage ≠ 0 ∨ s.sec.secretLocked = true) := by simp [hp, h0, hl]

/-- A stage 1 that verifies is measured and starts. -/
theorem State.bootRom_starts {k : Bool} {i : StageImg} (h : s.sec.tryBanks false false v = (some (k, i), tries)) : s.bootRom v =
    ((s.romTried tries).setMeas 3 (sha384 i.signed)).modSec fun c => { c with bankS1 := k, ver1 := .ofNat 24 i.version, stage := 1 } := by
  have htry := (s.tryBanks_romStart false false v).trans h
  simp only [State.romStart] at htry
  simp only [State.bootRom, if_neg (State.romRuns hp h0 hl), htry, State.romTried, State.romStart]

theorem State.bootRom_fails (h : s.sec.tryBanks false false v = (none, tries)) : s.bootRom v = (s.romTried tries).bootFail 1 v.flashWritable := by
  have htry := (s.tryBanks_romStart false false v).trans h
  simp only [State.romStart] at htry
  simp only [State.bootRom, if_neg (State.romRuns hp h0 hl), htry, State.romTried, State.romStart]

/-- However the tries end, the device secret stays locked. -/
theorem State.secretLocked_bootRom : (s.bootRom v).sec.secretLocked = true := by
  rcases h : s.sec.tryBanks false false v with ⟨_ | ⟨k, i⟩, tries⟩
  · rw [State.bootRom_fails hp h0 hl h, State.sec_bootFail]
    rfl
  · rw [State.bootRom_starts hp h0 hl h]
    rfl

end

/-! ### The history's account (14 R412, R416) -/

/-- From `s` to `t` the boot block stays, and a drain flag that is set stays set. -/
structure State.KeepsBoot (s t : State) : Prop where
  sec : t.sec = s.sec
  flagged : s.err.flagged = true → t.err.flagged = true

namespace State.KeepsBoot

theorem refl (s : State) : s.KeepsBoot s := ⟨rfl, id⟩

theorem trans (h : s.KeepsBoot t) (h' : t.KeepsBoot u) : s.KeepsBoot u := ⟨h'.sec.trans h.sec, fun hf => h'.flagged (h.flagged hf)⟩

/-- The same with the last step first: its own statement says which state lies between. -/
theorem trans' (h' : t.KeepsBoot u) (h : s.KeepsBoot t) : s.KeepsBoot u := h.trans h'

theorem foldl {α : Type} {f : State → α → State} (h : ∀ (v : State) (a : α), v.KeepsBoot (f v a)) (as : List α) (s : State) :
    s.KeepsBoot (as.foldl f s) :=
  List.foldlRecOn (motive := s.KeepsBoot) as f (.refl s) fun v hv a _ => hv.trans (h v a)

theorem ite {c : Prop} [Decidable c] (ht : s.KeepsBoot t) (hu : s.KeepsBoot u) : s.KeepsBoot (if c then t else u) := by
  split
  · exact ht
  · exact hu

end State.KeepsBoot

theorem State.flagged_drain (s : State) (cause : Code) (trigger : Option (BitVec 12 × StopInfo)) : (s.drain cause trigger).err.flagged = true := by
  cases h : s.err.drained with
  | false => exact (State.drain_fresh cause trigger h).flagged
  | true => simp only [State.drain, h, if_true]

theorem State.logDrain_keepsBoot (s : State) (i : RecInfo) (trigger : Option (BitVec 12 × StopInfo)) : s.KeepsBoot (s.logDrain i trigger) where
  sec := (congrArg State.sec ((s.log_onlyRecords _).trans (State.drain_onlyRecords _ i.code trigger)).beyond :)
  flagged _ := State.flagged_drain _ _ _

theorem State.setRole_keepsBoot (s : State) (set p : Nat) (r : BitVec 4) : s.KeepsBoot (s.setRole set p r) := ⟨rfl, id⟩

theorem State.bootCore_keepsBoot (set : Nat) (s : State) (p : Nat) : s.KeepsBoot (s.bootCore set p) := by
  simp only [State.bootCore]
  refine .ite (.refl s) (.ite ?_ (s.setRole_keepsBoot set p 9))
  split
  · exact (s.setRole_keepsBoot _ _ _).trans (State.setRole_keepsBoot _ _ _ _)
  · exact s.logDrain_keepsBoot _ _

theorem State.wayHandover_keepsBoot (s : State) (slice : Fin 8) (way : Fin 16) : s.KeepsBoot (s.wayHandover slice way) := .ite (.refl s) ⟨rfl, id⟩

theorem State.bootSet_keepsBoot (s : State) (set : Nat) : s.KeepsBoot (s.bootSet set) := .foldl (fun v p => v.bootCore_keepsBoot set p) _ s

/-- No permanent entry of the history reaches the boot block, and none clears the drain flag. -/
theorem State.applyHistory_keepsBoot (s : State) : s.KeepsBoot s.applyHistory := by
  simp only [State.applyHistory]
  refine .trans' (.foldl (fun v p => ?lanes) _ _) ?_
  case lanes =>
    refine .foldl (fun w l => ?_) _ v
    exact .ite ⟨rfl, id⟩ (.refl w)
  refine .trans' (.ite (State.logDrain_keepsBoot _ _ _) (.refl _)) ?_
  refine .trans' (.foldl (fun v p => ?engines) _ _) ?_
  case engines => exact .ite ⟨rfl, id⟩ (.refl v)
  refine .trans' (.foldl (fun v sl => ?ways) _ _) ?_
  case ways =>
    refine .foldl (fun w y => ?_) _ v
    exact .ite ((State.wayHandover_keepsBoot _ sl y).trans' ⟨rfl, id⟩) (.refl w)
  exact .foldl (fun v i => v.bootSet_keepsBoot i) _ s

/-! ### The fuses (17 R493) -/

/-- What passes a check has not failed it. -/
theorem Except.eq_ok_of_ite_error {ε α : Type} {c : Prop} [Decidable c] {e : ε} {x : Except ε α} {i : α} (h : (if c then .error e else x) = .ok i) :
    x = .ok i := by
  split at h
  · cases h
  · exact h

/-- The version of a stage image is a byte of its header. -/
theorem Sec.svn_lt_of_verifyBank {c : Sec} {two bank : Bool} {v : SigVerdict} {i : StageImg} (h : c.verifyBank two bank v = .ok i) : i.svn < 256 := by
  have hverify := Except.eq_ok_of_ite_error h
  simp only [Sec.verify] at hverify
  split at hverify
  · cases hverify
  · have hsig := Except.eq_ok_of_ite_error hverify
    split at hsig
    · cases hsig
    · cases hsig
      exact Nat.mod_lt _ (by decide)

/-- Advancing writes the fuses and the fallback bit alone, and lowers no version. -/
theorem Sec.advance_fuses (c : Sec) (v : BootVerdicts) : ∃ svn ecdsa lms fallback, c.svn ≤ svn ∧
    c.advance v = { c with svn := svn, ecdsaRev := ecdsa, lmsRev := lms, fallback := fallback } := by
  unfold Sec.advance
  split
  · next a b d e ha hb hd he =>
    split
    · refine ⟨_, _, _, _, ?_, rfl⟩
      have hsvn := Sec.svn_lt_of_verifyBank ha
      rw [BitVec.le_def, BitVec.toNat_ofNat, Nat.mod_eq_of_lt (Nat.max_lt.2 ⟨c.svn.isLt, hsvn⟩)]
      exact Nat.le_max_left _ _
    · exact ⟨_, _, _, _, BitVec.le_refl _, rfl⟩
  · exact ⟨_, _, _, _, BitVec.le_refl _, rfl⟩

/-! ### Stage 2 (17 R495, R508) -/

theorem State.drainedQueues_onlyQce (s : State) : s.drainedQueues = { s with qce := s.drainedQueues.qce } :=
  List.foldlRecOn (motive := fun t : State => t = { s with qce := t.qce }) s.qce.queues _ rfl fun v hv e _ => by
    split
    · rw [hv]
      rfl
    · exact hv

/-- A test pack that no longer verifies is dropped. -/
def State.packChecked (s : State) (v : BootVerdicts) : State :=
  { s with tst := { s.tst with act := s.tst.act.filter fun p => s.sec.packGood p v.pack } }

/-- The boot is measured, and configuration is awaited. -/
def State.bootMeasured (s : State) : State :=
  (s.setMeas 6 (Config.bootRecord s.sec.bankS1 s.sec.bankS2 s.sec.fallback s.sec.tries)).modSec fun c => { c with stage := 5 }

theorem State.sec_bootMeasured (s : State) : s.bootMeasured.sec =
    { s.sec with meas := sset [] s.sec.meas 6 (Config.bootRecord s.sec.bankS1 s.sec.bankS2 s.sec.fallback s.sec.tries), stage := 5 } := rfl

/-- What is left of stage 2 once the history is applied. -/
def State.stage2Measured (s : State) (v : BootVerdicts) : State := ((s.packChecked v).modSec fun c => c.advance v).bootMeasured

/-- A device whose flag is set enters service drained (17 R508). -/
theorem State.stage2Ends_eq (s : State) (v : BootVerdicts) : s.stage2Ends v =
    if s.err.flagged = true ∧ s.err.drained = false then
      ((s.stage2Measured v).modErr fun e => { e with drained := true, bootDrain := true }).drainedQueues
    else s.stage2Measured v := rfl

theorem State.sec_stage2Ends (s : State) (v : BootVerdicts) : (s.stage2Ends v).sec = (s.stage2Measured v).sec := by
  rw [State.stage2Ends_eq]
  split
  · rw [State.drainedQueues_onlyQce]
    rfl
  · rfl

theorem State.drained_stage2Ends (hf : s.err.flagged = true) (v : BootVerdicts) : (s.stage2Ends v).err.drained = true := by
  rw [State.stage2Ends_eq]
  split
  · rw [State.drainedQueues_onlyQce]
    rfl
  · next h => exact (Bool.not_eq_false _).mp fun hd => h ⟨hf, hd⟩

/-- The boot block as stage 2 leaves it, for the bank and the measurement that it began with. -/
structure Sec.Stage2Done (c d : Sec) : Prop where
  stage : d.stage = 5
  bankS2 : d.bankS2 = c.bankS2
  meas : sget [] d.meas 4 = sget [] c.meas 4
  svn : c.svn ≤ d.svn

theorem State.stage2Ends_done (s : State) (v : BootVerdicts) : s.sec.Stage2Done (s.stage2Ends v).sec := by
  obtain ⟨svn, ecdsa, lms, fallback, hsvn, hadv⟩ := s.sec.advance_fuses v
  rw [State.sec_stage2Ends, State.stage2Measured, State.sec_bootMeasured, State.modSec_sec, State.packChecked, hadv]
  exact ⟨rfl, rfl, sget_sset_other [] _ 6 4 _ (by decide), hsvn⟩

/-- The areas are read: the history's account is taken, and the ageing steps follow from its hours (16 R462). -/
def State.stage2Ready (s : State) : State :=
  let s := (s.modSec fun c => { c with historyLoaded := true }).applyHistory
  s.modPwr fun p => { p with guard := .ofNat 4 (min 4 (s.err.opsec / 40000000)) }

theorem State.sec_stage2Ready (s : State) : s.stage2Ready.sec = { s.sec with historyLoaded := true } := by
  simp only [State.stage2Ready, State.modPwr_sec]
  exact (State.applyHistory_keepsBoot _).sec

theorem State.flagged_stage2Ready (h : s.err.flagged = true) : s.stage2Ready.err.flagged = true := by
  simp only [State.stage2Ready, State.modPwr_err]
  exact (State.applyHistory_keepsBoot _).flagged h

theorem State.stage2Works_untrained {w : BootWork} (h : w.hbmTrained = false) (v : BootVerdicts) :
    s.stage2Works v w = s.stage2Ready.bootFail 3 w.flashWritable := by
  simp only [State.stage2Works, State.stage2Ready, h, Bool.not_false, if_true]

theorem State.stage2Works_trained {w : BootWork} (h : w.hbmTrained = true) (v : BootVerdicts) :
    s.stage2Works v w = s.stage2Ready.stage2Ends v := by
  simp only [State.stage2Works, State.stage2Ready, h, Bool.not_true, Bool.false_eq_true, if_false]

/-- Stage 1 notes the causes of the tries that failed. -/
def State.stage2Tried (s : State) (tries : List Nat) : State :=
  s.modSec fun c => { c with tries := c.tries ++ tries, fallback := c.fallback || !tries.isEmpty }

/-- It measures the stage 2 that verifies, which then runs. -/
def State.stage2Picked (s : State) (k : Bool) (i : StageImg) (tries : List Nat) : State :=
  ((s.stage2Tried tries).setMeas 4 (sha384 i.signed)).modSec fun c => { c with bankS2 := k, ver2 := .ofNat 24 i.version, stage := 2 }

theorem State.bootStage2_stays (h : s.sec.powered = false ∨ s.sec.stage ≠ 1) (v : BootVerdicts) (w : BootWork) : s.bootStage2 v w = s := if_pos h

section
variable {v : BootVerdicts} {tries : List Nat} (hp : s.sec.powered = true) (h1 : s.sec.stage = 1) {w : BootWork}
include hp h1

theorem State.stage1Runs : ¬ (s.sec.powered = false ∨ s.sec.stage ≠ 1) := by simp [hp, h1]

theorem State.bootStage2_none (h : s.sec.tryBanks true s.sec.bankS1 v = (none, tries)) :
    s.bootStage2 v w = (s.stage2Tried tries).bootFail 2 w.flashWritable := by
  simp only [State.bootStage2, if_neg (State.stage1Runs hp h1), h, State.stage2Tried]

section
variable {k : Bool} {i : StageImg} (h : s.sec.tryBanks true s.sec.bankS1 v = (some (k, i), tries))
include h

theorem State.bootStage2_untested (hself : w.selfTest = false) : s.bootStage2 v w = (s.stage2Picked k i tries).bootFail 4 w.flashWritable := by
  simp only [State.bootStage2, if_neg (State.stage1Runs hp h1), h, hself, Bool.not_false, if_true, State.stage2Picked, State.stage2Tried]

theorem State.bootStage2_unreadable (hself : w.selfTest = true) (hareas : w.areasReadable = false) :
    s.bootStage2 v w = (s.stage2Picked k i tries).bootFail 5 w.flashWritable := by
  simp only [State.bootStage2, if_neg (State.stage1Runs hp h1), h, hself, hareas, Bool.not_true, Bool.not_false, Bool.false_eq_true, if_false, if_true, State.stage2Picked,
    State.stage2Tried]

theorem State.bootStage2_works (hself : w.selfTest = true) (hareas : w.areasReadable = true) :
    s.bootStage2 v w = (s.stage2Picked k i tries).stage2Works v w := by
  simp only [State.bootStage2, if_neg (State.stage1Runs hp h1), h, hself, hareas, Bool.not_true, Bool.false_eq_true, if_false, State.stage2Picked, State.stage2Tried]

end

end

theorem State.flagged_stage2Picked (h : s.err.flagged = true) (k : Bool) (i : StageImg) (tries : List Nat) :
    (s.stage2Picked k i tries).err.flagged = true := h

theorem State.meas_stage2Picked (s : State) (k : Bool) (i : StageImg) (tries : List Nat) :
    sget [] (s.stage2Picked k i tries).sec.meas 4 = sha384 i.signed := sget_sset_same _ _ _ _

end Sys2Proof.Machine
end

section
/-!
O58, from configuration to the ready device (17 R496-R498, R508): training begins, both ports end, the drain flag is cleared, and seconds are
counted; and the statement about boot.
-/

namespace Sys2Proof.Machine

variable {s t u : State}

/-! ### Configuration and the host port (17 R496, R497) -/

/-- The device is configured. -/
def State.withCfgDone (s : State) : State := s.modSec fun c => { c with cfgDone := true, stage := 6 }

theorem State.configured_other (h : s.sec.stage ≠ 5) : s.configured = s := if_pos h

theorem State.configured_begins (h : s.sec.stage = 5) : s.configured = s.withCfgDone.beginTraining := if_neg (not_not_intro h)

theorem State.hostRetry_tries (h6 : s.sec.stage = 6) (hu : s.sec.hostUp = false) (ok : Bool) :
    s.hostRetry ok = { s with sec := { s.sec with hostUp := ok } } := if_pos ⟨h6, hu⟩

theorem State.hostRetry_stays (h : s.sec.stage ≠ 6 ∨ s.sec.hostUp = true) (ok : Bool) : s.hostRetry ok = s :=
  if_neg fun ⟨h6, hu⟩ => h.elim (· h6) fun hup => by rw [hu] at hup; cases hup

/-- Both ports have ended: the device is ready, and the intervals of the spare cores begin. -/
def State.readied (s : State) (n : BitVec 16) : State :=
  let s := s.modSec fun c => { c with stage := 7, tReady := n }
  { s with tst := { s.tst with lastSwap := (List.range 8).foldl (fun m i => sset 0 m i s.err.opsec) s.tst.lastSwap } }

theorem State.bootReady_ready (h6 : s.sec.stage = 6) (hu : s.sec.hostUp = true) (hd : s.sec.fabricDone = true) (n : BitVec 16) :
    s.bootReady n = if s.err.drained then s.readied n else (s.readied n).emit (.pwrGood true) := by
  simp only [State.bootReady, h6, hu, hd, and_self, if_true]
  rfl

theorem State.bootReady_waits (h : s.sec.stage ≠ 6 ∨ s.sec.hostUp = false ∨ s.sec.fabricDone = false) (n : BitVec 16) : s.bootReady n = s := by
  refine if_neg fun ⟨h6, hu, hd⟩ => ?_
  rcases h with h | h | h
  · exact h h6
  · rw [hu] at h; cases h
  · rw [hd] at h; cases h

/-! ### What a live-link map tells the ports (11 R324, R325) -/

/-- From `s` to `t` only symbols left, and neither the error block nor who is live changed. -/
structure State.TellsPorts (s t : State) : Prop where
  err : t.err = s.err
  live : t.fab.live = s.fab.live
  liveIds : t.fab.liveIds = s.fab.liveIds
  out : ∃ tail, t.out = s.out ++ tail ∧ ∀ o ∈ tail, ∃ p y, o = .sym p y

theorem State.TellsPorts.of_out_eq (he : t.err = s.err) (hl : t.fab.live = s.fab.live) (hi : t.fab.liveIds = s.fab.liveIds) (ho : t.out = s.out) :
    s.TellsPorts t := ⟨he, hl, hi, [], by simp [ho]⟩

theorem State.TellsPorts.trans (h : s.TellsPorts t) (h' : t.TellsPorts u) : s.TellsPorts u := by
  obtain ⟨o, ho, hsym⟩ := h.out
  obtain ⟨o', ho', hsym'⟩ := h'.out
  refine ⟨h'.err.trans h.err, h'.live.trans h.live, h'.liveIds.trans h.liveIds, o ++ o', by rw [ho', ho, List.append_assoc], fun x hx => ?_⟩
  exact (List.mem_append.1 hx).elim (hsym x) (hsym' x)

theorem State.symOn_tellsPorts (s : State) (ps : List (Fin 6)) (y : Sym) : s.TellsPorts (s.symOn ps y) :=
  ⟨rfl, rfl, rfl, _, rfl, fun x hx => by
    obtain ⟨p, -, rfl⟩ := List.mem_map.1 hx
    exact ⟨p, y, rfl⟩⟩

theorem State.emit_tellsPorts (s : State) (p : Fin 6) (y : Sym) : s.TellsPorts (s.emit (.sym p y)) := s.symOn_tellsPorts [p] y

theorem State.retime_tellsPorts (s : State) : s.TellsPorts s.retime := .of_out_eq rfl rfl rfl rfl

theorem State.mapChanged_tellsPorts (s : State) : s.TellsPorts s.mapChanged := by
  have hports : s.TellsPorts (allPorts.foldl (fun t p =>
      if s.treeChildren.contains p then t else t.modPort p fun q => { q with childHold := none }) s) := by
    refine List.foldlRecOn (motive := s.TellsPorts) allPorts _ (.of_out_eq rfl rfl rfl rfl) fun v hv p _ => ?_
    split
    · exact hv
    · exact hv.trans (.of_out_eq rfl rfl rfl rfl)
  simp only [State.mapChanged]
  refine .trans ?_ (State.retime_tellsPorts _)
  split
  · exact hports.trans (State.emit_tellsPorts _ _ _)
  · exact hports

/-! ### The drain flag is cleared (17 R508) -/

/-- A device with a link in service that neither drains nor was cut off may be live (11 R323). -/
theorem State.mayLive_of_portUp (hid : s.devidValid = true) (hd : s.err.drained = false) (hp : s.fab.parted = false) {p : Fin 6}
    (hup : s.portUp p = true) : s.mayLive = true := by
  have hmem : p ∈ s.upPorts := List.mem_filter.2 ⟨mem_allPorts p, hup⟩
  have hne : s.upPorts.isEmpty = false := by
    rw [List.isEmpty_eq_false_iff]
    exact List.ne_nil_of_mem hmem
  simp only [State.mayLive, hid, hd, hp, hne, Bool.not_false, Bool.or_true, Bool.and_self]

/-- The device is one of the live ones again. -/
def State.amongLive (s : State) : State :=
  { s with fab := { s.fab with live := true, drainedIds := s.fab.drainedIds.filter (· != s.devid),
                               liveIds := s.fab.liveIds.filter (· != s.devid) ++ [s.devid] } }

theorem State.backAlive_live (h : s.mayLive = true) : s.amongLive.TellsPorts s.backAlive := by
  simp only [State.backAlive, h, if_true]
  exact (State.symOn_tellsPorts s.amongLive _ _).trans (State.mapChanged_tellsPorts _)

theorem State.backAlive_alone (h : s.mayLive = false) : s.backAlive = s := by simp only [State.backAlive, h, Bool.false_eq_true, if_false]

/-- What leaves a device whose drain has ended is symbols, and its errors stay as they are. -/
theorem State.backAlive_out (s : State) :
    s.backAlive.err = s.err ∧ ∃ tail, s.backAlive.out = s.out ++ tail ∧ ∀ o ∈ tail, ∃ p y, o = .sym p y := by
  cases h : s.mayLive with
  | true => exact ⟨(State.backAlive_live h).err, (State.backAlive_live h).out⟩
  | false =>
    rw [State.backAlive_alone h]
    exact ⟨rfl, [], (List.append_nil _).symm, fun o ho => absurd ho List.not_mem_nil⟩

/-- The flag alone is cleared. -/
def State.unflagged (s : State) : State := { s with err := { s.err with flagged := false } }

/-- A drain for the flag only has ended. -/
def State.undrained (s : State) : State := { s with err := { s.err with flagged := false, drained := false, bootDrain := false } }

/-- A queue that the drain put in error is taken out of it. -/
def State.requeue (s : State) (e : Nat × Queue) : State :=
  if e.2.valid && e.2.err && e.2.errCode == eDrained then s.modQueue (.ofNat 12 e.1) fun q => { q with err := false, errCode := 0 } else s

def State.requeueAll (s : State) : State := s.qce.queues.foldl State.requeue s

theorem State.requeueAll_onlyQce (s : State) : s.requeueAll = { s with qce := s.requeueAll.qce } :=
  List.foldlRecOn (motive := fun t : State => t = { s with qce := t.qce }) s.qce.queues State.requeue rfl fun v hv e _ => by
    simp only [State.requeue]
    split
    · rw [hv]
      rfl
    · exact hv

theorem State.clearDrain_early (h : s.sec.stage ≠ 7) : s.clearDrain = s := if_pos h

theorem State.clearDrain_flag (h : s.sec.stage = 7) (hb : s.err.bootDrain = false) : s.clearDrain = s.unflagged := by
  simp only [State.clearDrain, h, ne_eq, not_true_eq_false, if_false, State.modErr_err, hb, Bool.false_eq_true]
  rfl

theorem State.clearDrain_drained (h : s.sec.stage = 7) (hb : s.err.bootDrain = true) :
    s.clearDrain = (s.undrained.requeueAll.emit (.pwrGood true)).backAlive := by
  simp only [State.clearDrain, h, ne_eq, not_true_eq_false, if_false, State.modErr_err, hb, if_true]
  rfl

/-- A device with a link in service is live again (11 R323). -/
theorem State.clearDrain_live (hid : s.devidValid = true) (hp : s.fab.parted = false) {p : Fin 6} (hup : s.portUp p = true) :
    (s.undrained.requeueAll.emit (.pwrGood true)).backAlive.fab.live = true ∧
      s.devid ∈ (s.undrained.requeueAll.emit (.pwrGood true)).backAlive.fab.liveIds := by
  rw [State.requeueAll_onlyQce]
  generalize s.undrained.requeueAll.qce = q
  have htells := State.backAlive_live (s := ({ s.undrained with qce := q } : State).emit (.pwrGood true)) (State.mayLive_of_portUp hid rfl hp hup)
  rw [htells.live, htells.liveIds]
  exact ⟨rfl, List.mem_append_right _ (List.mem_singleton_self _)⟩

/-! ### Seconds of operation (14 R415) -/

theorem State.operatingSecond_written (hp : s.sec.powered = true) : s.operatingSecond true = { s with err := { s.err with
    opsec := s.err.opsec + 1, history := s.err.history ++ s.err.heldHistory, heldHistory := [] } } := by
  simp only [State.operatingSecond, hp, Bool.true_eq_false, if_false, if_true]
  rfl

/-- A second without entries of its own has nothing to hold. -/
theorem State.operatingSecond_unwritten (hp : s.sec.powered = true) (h : ∀ x ∈ s.err.history, x.second ≠ s.err.opsec) :
    s.operatingSecond false = { s with err := { s.err with opsec := s.err.opsec + 1 } } := by
  have hnone : (s.err.history.filter fun x => x.second == s.err.opsec) = [] := List.filter_eq_nil_iff.2 fun x hx => by simpa using h x hx
  simp only [State.operatingSecond, hp, Bool.true_eq_false, Bool.false_eq_true, if_false, State.modErr_err, hnone, List.isEmpty_nil, if_true]
  rfl

/-! ### The statement -/

/-- Settles O58: the banks' verdicts and the work's results each pick one equation of the ROM and of stage 2, and what follows is one equation of each
command (log entries 48 and 51: training begins at cfg_done, and PWR_GOOD is low while the device is drained). -/
theorem boot : Obligations.Boot := by
  refine ⟨fun s v => ⟨fun h => ?romStays, fun hp h0 hl => ?rom⟩, fun s v w => ⟨fun h => ?stage1Stays, fun hp h1 => ?stage1⟩,
    fun s v n ok ha hf => ?service, fun s hp => ?seconds⟩
  case romStays => exact congrArg Host.Outcome.next (State.bootRom_stays h v)
  case rom =>
    refine ⟨s.bootRom v, rfl, State.secretLocked_bootRom hp h0 hl, fun i hi => ?_, fun e i he hi => ?_, fun e f he hf => ?_⟩
    · rw [State.bootRom_starts hp h0 hl (Sec.tryBanks_first hi)]
      exact ⟨rfl, rfl, rfl, sget_sset_same _ _ _ _⟩
    · rw [State.bootRom_starts hp h0 hl (Sec.tryBanks_second he hi)]
      exact ⟨rfl, rfl, rfl, rfl, sget_sset_same _ _ _ _⟩
    · rw [State.bootRom_fails hp h0 hl (Sec.tryBanks_none he hf), State.sec_bootFail]
      refine ⟨rfl, rfl, fun hw => ?_⟩
      rw [hw]
      exact ⟨_, State.history_bootFail _ 1, rfl⟩
  case stage1Stays => exact congrArg Host.Outcome.next (State.bootStage2_stays h v w)
  case stage1 =>
    refine ⟨s.bootStage2 v w, rfl, fun r h => ?_, fun k i r h => ?_⟩
    · rw [State.bootStage2_none hp h1 h, State.sec_bootFail]
      exact ⟨rfl, rfl⟩
    have hmeas := s.meas_stage2Picked k i r
    cases hself : w.selfTest with
    | false =>
      rw [State.bootStage2_untested hp h1 h hself, State.sec_bootFail]
      exact ⟨rfl, hmeas, fun _ => ⟨rfl, rfl⟩, nofun, nofun, nofun⟩
    | true =>
      cases hareas : w.areasReadable with
      | false =>
        rw [State.bootStage2_unreadable hp h1 h hself hareas, State.sec_bootFail]
        exact ⟨rfl, hmeas, nofun, fun _ _ => ⟨rfl, rfl⟩, nofun, nofun⟩
      | true =>
        rw [State.bootStage2_works hp h1 h hself hareas]
        cases hhbm : w.hbmTrained with
        | false =>
          rw [State.stage2Works_untrained hhbm, State.sec_bootFail, State.sec_stage2Ready]
          exact ⟨rfl, hmeas, nofun, nofun, fun _ _ _ => ⟨rfl, rfl⟩, nofun⟩
        | true =>
          obtain ⟨hstage, hbank, hkept, hsvn⟩ := (s.stage2Picked k i r).stage2Ready.stage2Ends_done v
          rw [State.sec_stage2Ready] at hbank hkept hsvn
          rw [State.stage2Works_trained hhbm]
          refine ⟨hbank, hkept.trans hmeas, nofun, nofun, nofun, fun _ _ _ => ⟨hstage, hsvn, fun hf => ?_⟩⟩
          exact State.drained_stage2Ends (State.flagged_stage2Ready (State.flagged_stage2Picked hf k i r)) v
  case service =>
    refine ⟨fun h5 => ?_, fun h5 => ?_, fun h6 hu => congrArg Host.Outcome.next (State.hostRetry_tries h6 hu ok),
      fun h => congrArg Host.Outcome.next (State.hostRetry_stays h ok), fun h6 hu hd => ⟨s.bootReady n, rfl, ?_⟩,
      fun h => congrArg Host.Outcome.next (State.bootReady_waits h n), fun h7 => ?_, fun h7 hb => ?_, fun h7 hb => ?_⟩
    · rw [exec_cfgDone_service ha hf, State.configured_other h5]
    · rw [exec_cfgDone_service ha hf, State.configured_begins h5]
      exact ⟨_, rfl, State.sec_beginTraining _, State.beginTraining_trainingBegun s.withCfgDone⟩
    · rw [State.bootReady_ready h6 hu hd]
      cases hdrained : s.err.drained with
      | false => exact ⟨rfl, fun _ => rfl, nofun⟩
      | true => exact ⟨rfl, nofun, fun _ => rfl⟩
    · rw [exec_clearDrain_service ha hf, State.clearDrain_early h7]
    · rw [exec_clearDrain_service ha hf, State.clearDrain_flag h7 hb]
      rfl
    · obtain ⟨herr, tail, htail, hsym⟩ := State.backAlive_out (s.undrained.requeueAll.emit (.pwrGood true))
      have herr' : s.undrained.requeueAll.err = s.undrained.err := by rw [State.requeueAll_onlyQce]
      have hout : s.undrained.requeueAll.out = s.out := by rw [State.requeueAll_onlyQce]; rfl
      rw [exec_clearDrain_service ha hf, State.clearDrain_drained h7 hb]
      refine ⟨_, rfl, ?_, ?_, ⟨tail, ?_, hsym⟩, fun hid hp ⟨p, hup⟩ => State.clearDrain_live hid hp hup⟩
      · rw [herr]
        exact (congrArg Err.drained herr' :)
      · rw [herr]
        exact (congrArg Err.flagged herr' :)
      · rw [htail, State.emit_out, hout, List.append_assoc]
        rfl
  case seconds =>
    refine ⟨(finishAll_eq s _).trans ?_, fun h => (finishAll_eq s _).trans ?_⟩
    · rw [State.operatingSecond_written hp]
    · rw [State.operatingSecond_unwritten hp h]

end Sys2Proof.Machine
end

section
/-!
The word of a core instruction, read back (04 R104-R109): each body form is read as it was put together, and every core instruction is one of
these forms under one of the five units.
-/

namespace Sys2Proof.Machine

/-! ### One lemma per body form -/

theorem ifZero_of_eq {w : Nat} {x : BitVec w} {i : Option Instr} (h : x = 0#w) : ifZero x i = i := if_pos h

theorem ifZero_zero {w : Nat} (i : Option Instr) : ifZero (0#w) i = i := ifZero_of_eq rfl

theorem decodeReg_bodyReg (a b c : BitVec 5) (f : BitVec 5 → BitVec 5 → BitVec 5 → Instr) : decodeReg (bodyReg a b c) f = some (f a b c) := by
  simp (disch := decide) only [decodeReg, bodyReg, extract_append_high, extract_append_low, extract_all, Nat.reduceSub, ifZero_zero]

theorem decodeImm_bodyImm (a b : BitVec 5) (i : Word) (f : BitVec 5 → BitVec 5 → Word → Instr) : decodeImm (bodyImm a b i) f = some (f a b i) := by
  simp (disch := decide) only [decodeImm, bodyImm, extract_append_high, extract_append_low, extract_all, Nat.reduceSub, ifZero_zero]

theorem decodeAddr_bodyAddr (d a : BitVec 4) (r : BitVec 5) (i : Word) (f : BitVec 4 → BitVec 4 → BitVec 5 → Word → Instr) :
    decodeAddr (bodyAddr d a r i) f = some (f d a r i) := by
  simp (disch := decide) only [decodeAddr, bodyAddr, extract_append_high, extract_append_low, extract_all, Nat.reduceSub, ifZero_zero]

theorem decodeMat_bodyMat (d p m n k : BitVec 5) (i : BitVec 16) (f : BitVec 5 → BitVec 5 → BitVec 5 → BitVec 5 → BitVec 5 → BitVec 16 → Instr) :
    decodeMat (bodyMat d p m n k i) f = some (f d p m n k i) := by
  simp (disch := decide) only [decodeMat, bodyMat, extract_append_high, extract_append_low, extract_all, Nat.reduceSub, ifZero_zero]

theorem decodeVmem_bodyMem (t : BitVec 6) (m : BitVec 4) (u : Bool) (r : BitVec 5) (i : BitVec 16)
    (f : BitVec 6 → BitVec 4 → Bool → BitVec 5 → BitVec 16 → Instr) : decodeVmem (bodyMem t m u r i) f = some (f t m u r i) := by
  simp (disch := decide) only [decodeVmem, bodyMem, extract_append_high, extract_append_low, extract_all, Nat.reduceSub, ifZero_zero,
    bit_append_high, bit_append_low, bit_ofBool]

theorem decodeVacc_bodyAcc (t : BitVec 6) (a : BitVec 3) (r c : BitVec 2) (f : BitVec 6 → BitVec 3 → BitVec 2 → BitVec 2 → Instr) :
    decodeVacc (bodyAcc t a r c) f = some (f t a r c) := by
  simp (disch := decide) only [decodeVacc, bodyAcc, extract_append_high, extract_append_low, extract_all, Nat.reduceSub, ifZero_zero]

/-! ### The forms of one instruction each -/

variable (h : Ih)

theorem decodeSeq_movsa (d : BitVec 5) (a : BitVec 4) (hi : Bool) : decodeSeq h 0x16 (d ++ a ++ BitVec.ofBool hi ++ 0#36) = some (.movsa h d a hi) := by
  change ifZero _ _ = _
  simp (disch := decide) only [extract_append_high, extract_append_low, extract_all, Nat.reduceSub, ifZero_zero, bit_append_high, bit_append_low,
    bit_ofBool]

/-- Each condition's code is its own, and ALWAYS names no register (04 R107). -/
theorem readCond_bodyBr (c : Cond) (off : BitVec 24) : readCond (bodyBr c off) = some c := by
  have hcode : (bodyBr c off).extractLsb' 43 3 = (condBits c).1 := by
    simp (disch := decide) only [bodyBr, extract_append_high, extract_all, Nat.reduceSub]
  have hfirst : (bodyBr c off).extractLsb' 36 5 = (condBits c).2.1 := by
    simp (disch := decide) only [bodyBr, extract_append_high, extract_append_low, extract_all, Nat.reduceSub]
  have hsecond : (bodyBr c off).extractLsb' 31 5 = (condBits c).2.2 := by
    simp (disch := decide) only [bodyBr, extract_append_high, extract_append_low, extract_all, Nat.reduceSub]
  simp only [readCond, hcode, hfirst, hsecond]
  cases c <;> rfl

theorem decodeSeq_br (c : Cond) (off : BitVec 24) : decodeSeq h 0x1C (bodyBr c off) = some (.br h c off) := by
  have hc := readCond_bodyBr c off
  have hgap : (bodyBr c off).extractLsb' 41 2 = 0#2 ∧ (bodyBr c off).extractLsb' 24 7 = 0#7 ∧ (bodyBr c off).extractLsb' 0 24 = off := by
    simp (disch := decide) only [bodyBr, extract_append_high, extract_append_low, extract_all, Nat.reduceSub, and_self]
  change ifZero _ (ifZero _ (match readCond (bodyBr c off) with | some c => _ | none => none)) = _
  rw [hc, hgap.1, hgap.2.1, hgap.2.2, ifZero_zero, ifZero_zero]

theorem decodeSeq_rdflg (d : BitVec 5) (cl : Bool) : decodeSeq h 0x1D (bodyImm d 0 (0#31 ++ BitVec.ofBool cl)) = some (.rdflg h d cl) := by
  have hfields (x : Word) : (bodyImm d 0 x).extractLsb' 32 4 = 0#4 ∧ (bodyImm d 0 x).extractLsb' 41 5 = d ∧
      (bodyImm d 0 x).extractLsb' 1 31 = x.extractLsb' 1 31 ∧ (bodyImm d 0 x).getLsbD 0 = x.getLsbD 0 := by
    simp (disch := decide) only [bodyImm, extract_append_high, extract_append_low, extract_all, Nat.reduceSub, bit_append_low, and_self]
  obtain ⟨hgap, hd, hrest, hbit⟩ := hfields (0#31 ++ BitVec.ofBool cl)
  have hzero : (0#31 ++ BitVec.ofBool cl).extractLsb' 1 31 = 0#31 := (extract_append_high _ _ 1 31 (by decide)).trans (extract_all _)
  have hclear : (0#31 ++ BitVec.ofBool cl).getLsbD 0 = cl := (bit_append_low _ _ 0 (by decide)).trans (bit_ofBool cl)
  refine (ifZero_of_eq hgap).trans ((ifZero_of_eq (hrest.trans hzero)).trans ?_)
  rw [hd, hbit, hclear]

/-- The one operand that a word may hold and a program may not: an EPI past tile 7 is not well formed (04 R109, R130). -/
theorem decodeMxu_epi (d o : BitVec 5) (b t : BitVec 3) (ht : b.toNat + t.toNat ≤ 7) :
    decodeMxu h 0x02 (d ++ o ++ b ++ t ++ 0#30) = some (.epi h d o b t) := by
  change ifZero _ _ = _
  simp (disch := decide) only [extract_append_high, extract_append_low, extract_all, Nat.reduceSub, ifZero_zero, if_pos ht]

theorem decodeMxu_accinit (m : BitVec 8) (i : Bool) : decodeMxu h 0x03 (m ++ BitVec.ofBool i ++ 0#37) = some (.accinit h m i) := by
  change ifZero _ _ = _
  simp (disch := decide) only [extract_append_high, extract_append_low, extract_all, Nat.reduceSub, ifZero_zero, bit_append_high, bit_append_low,
    bit_ofBool]

/-- A program without a predicate holds no predicate tile (07 R206). -/
theorem decodeVec_vprog (td ta tb : BitVec 6) (tp : Option (BitVec 6)) (d : BitVec 5) :
    decodeVec h 0x00 (td ++ ta ++ tb ++ tp.getD 0 ++ BitVec.ofBool tp.isSome ++ d ++ 0#16) = some (.vprog h td ta tb tp d) := by
  change ifZero _ (if _ then _ else _) = _
  simp (disch := decide) only [extract_append_high, extract_append_low, extract_all, Nat.reduceSub, ifZero_zero, bit_append_high, bit_append_low,
    bit_ofBool]
  cases tp <;> rfl

theorem decodeVec_vred (td ta : BitVec 6) (r : RedOp) (x : Bool) :
    decodeVec h 0x01 (td ++ ta ++ ropBits r ++ BitVec.ofBool x ++ 0#30) = some (.vred h td ta r x) := by
  change ifZero _ (match readRop _ with | some r => _ | none => none) = _
  simp (disch := decide) only [extract_append_high, extract_append_low, extract_all, Nat.reduceSub, ifZero_zero, bit_append_high, bit_append_low,
    bit_ofBool, readRop_ropBits]

theorem decodeVec_vcvt (t : BitVec 6) (c r : BitVec 5) (i : BitVec 16) : decodeVec h 0x04 (t ++ c ++ 0#13 ++ r ++ 0#1 ++ i) = some (.vcvt h t c r i) := by
  change ifZero _ (ifZero _ _) = _
  simp (disch := decide) only [extract_append_high, extract_append_low, extract_all, Nat.reduceSub, ifZero_zero]

theorem decodeVec_vmov (d a : BitVec 6) : decodeVec h 0x07 (d ++ a ++ 0#34) = some (.vmov h d a) := by
  change ifZero _ _ = _
  simp (disch := decide) only [extract_append_high, extract_append_low, extract_all, Nat.reduceSub, ifZero_zero]

theorem decodeVec_vfill (d : BitVec 6) (r : BitVec 5) : decodeVec h 0x08 (d ++ r ++ 0#35) = some (.vfill h d r) := by
  change ifZero _ _ = _
  simp (disch := decide) only [extract_append_high, extract_append_low, extract_all, Nat.reduceSub, ifZero_zero]

/-- The forms that name a descriptor: the engine's field is read, or is 0 and is not read. -/
theorem bodyDesc_fields (d : BitVec 5) (e : BitVec 2) :
    (bodyDesc d e).extractLsb' 41 5 = d ∧ (bodyDesc d e).extractLsb' 39 2 = e ∧ (bodyDesc d e).extractLsb' 0 39 = 0#39 := by
  simp (disch := decide) only [bodyDesc, extract_append_high, extract_append_low, extract_all, Nat.reduceSub, and_self]

theorem bodyDesc_low (d : BitVec 5) : (bodyDesc d 0).extractLsb' 0 41 = 0#41 := by
  rw [show bodyDesc d 0 = d ++ (0#41) from BitVec.append_assoc ..]
  exact (extract_append_low d _ 0 41 (by decide)).trans (extract_all _)

theorem decodeStm_sarm (d : BitVec 5) (e : Fin 4) : decodeStm h 0x00 (bodyDesc d (BitVec.ofFin (w := 2) e)) = some (.sarm h d e) := by
  obtain ⟨hd, he, h0⟩ := bodyDesc_fields d (BitVec.ofFin (w := 2) e)
  refine (ifZero_of_eq h0).trans ?_
  rw [hd, he]

theorem bodyTok_fields (k : Fin 16) (n : BitVec 16) :
    ((bodyTok k n).extractLsb' 42 4).toFin = k ∧ (bodyTok k n).extractLsb' 26 16 = n ∧ (bodyTok k n).extractLsb' 0 26 = 0#26 := by
  simp (disch := decide) only [bodyTok, extract_append_high, extract_append_low, extract_all, Nat.reduceSub, and_self]

theorem bodyBeat_fields (r : BitVec 5) (i : Word) :
    (bodyBeat r i).extractLsb' 41 5 = r ∧ (bodyBeat r i).extractLsb' 0 32 = i ∧ (bodyBeat r i).extractLsb' 32 9 = 0#9 := by
  simp (disch := decide) only [bodyBeat, extract_append_high, extract_append_low, extract_all, Nat.reduceSub, and_self]

/-! ### The statement -/

/-- The word of this instruction, if it has one, is read as the instruction without its detections. -/
def ReadsBack (i : Instr) : Prop := ∀ w, encodeCore i = some w → ∃ h, i.header = some h ∧ decodeCore h.core w = some i.clean

/-- The header of a word that carries no detection. -/
def bareHeader (h : Ih) : Ih := ⟨h.core, h.wt, h.sg, []⟩

/-- It is enough that the decoder of the instruction's unit reads its body back: the fields of the header are read for all (04 R104). -/
theorem readsBack_of_unit {i : Instr} {h : Ih} {u : BitVec 3} {o : BitVec 5} {b : BitVec 46} (he : encodeCore i = some (instrWord u o h b))
    (hh : i.header = some h) (hd : decodeCore h.core (instrWord u o h b) = some i.clean) : ReadsBack i := by
  intro w hw
  obtain rfl : instrWord u o h b = w := Option.some.inj (he.symm.trans hw)
  exact ⟨h, hh, hd⟩

variable {h : Ih} {o : BitVec 5} {b : BitVec 46} {i : Instr}

theorem readsBack_seq (he : encodeCore i = some (instrWord 0 o h b)) (hh : i.header = some h) (hd : decodeSeq (bareHeader h) o b = some i.clean) :
    ReadsBack i := readsBack_of_unit he hh ((decode_word ..).trans hd)

theorem readsBack_mxu (he : encodeCore i = some (instrWord 1 o h b)) (hh : i.header = some h) (hd : decodeMxu (bareHeader h) o b = some i.clean) :
    ReadsBack i := readsBack_of_unit he hh ((decode_word ..).trans hd)

theorem readsBack_vec (he : encodeCore i = some (instrWord 2 o h b)) (hh : i.header = some h) (hd : decodeVec (bareHeader h) o b = some i.clean) :
    ReadsBack i := readsBack_of_unit he hh ((decode_word ..).trans hd)

theorem readsBack_stm (he : encodeCore i = some (instrWord 3 o h b)) (hh : i.header = some h) (hd : decodeStm (bareHeader h) o b = some i.clean) :
    ReadsBack i := readsBack_of_unit he hh ((decode_word ..).trans hd)

theorem readsBack_syn (he : encodeCore i = some (instrWord 4 o h b)) (hh : i.header = some h) (hd : decodeSyn (bareHeader h) o b = some i.clean) :
    ReadsBack i := readsBack_of_unit he hh ((decode_word ..).trans hd)

/-- Every well-formed instruction reads back: one case for each core instruction; the other commands have no word. -/
theorem readsBack (i : Instr) (hwf : i.wellFormed = true) : ReadsBack i := by
  cases i with
  | nop h => exact readsBack_seq rfl rfl (ifZero_zero _)
  | add h a b c => exact readsBack_seq rfl rfl (decodeReg_bodyReg a b c (.add _))
  | sub h a b c => exact readsBack_seq rfl rfl (decodeReg_bodyReg a b c (.sub _))
  | mul h a b c => exact readsBack_seq rfl rfl (decodeReg_bodyReg a b c (.mul _))
  | and h a b c => exact readsBack_seq rfl rfl (decodeReg_bodyReg a b c (.and _))
  | or h a b c => exact readsBack_seq rfl rfl (decodeReg_bodyReg a b c (.or _))
  | xor h a b c => exact readsBack_seq rfl rfl (decodeReg_bodyReg a b c (.xor _))
  | shl h a b c => exact readsBack_seq rfl rfl (decodeReg_bodyReg a b c (.shl _))
  | shr h a b c => exact readsBack_seq rfl rfl (decodeReg_bodyReg a b c (.shr _))
  | sra h a b c => exact readsBack_seq rfl rfl (decodeReg_bodyReg a b c (.sra _))
  | min h a b c => exact readsBack_seq rfl rfl (decodeReg_bodyReg a b c (.min _))
  | minu h a b c => exact readsBack_seq rfl rfl (decodeReg_bodyReg a b c (.minu _))
  | max h a b c => exact readsBack_seq rfl rfl (decodeReg_bodyReg a b c (.max _))
  | maxu h a b c => exact readsBack_seq rfl rfl (decodeReg_bodyReg a b c (.maxu _))
  | slt h a b c => exact readsBack_seq rfl rfl (decodeReg_bodyReg a b c (.slt _))
  | sltu h a b c => exact readsBack_seq rfl rfl (decodeReg_bodyReg a b c (.sltu _))
  | addi h a b n => exact readsBack_seq rfl rfl (decodeImm_bodyImm a b n (.addi _))
  | muli h a b n => exact readsBack_seq rfl rfl (decodeImm_bodyImm a b n (.muli _))
  | andi h a b n => exact readsBack_seq rfl rfl (decodeImm_bodyImm a b n (.andi _))
  | ori h a b n => exact readsBack_seq rfl rfl (decodeImm_bodyImm a b n (.ori _))
  | adda h d a r n => exact readsBack_seq rfl rfl (decodeAddr_bodyAddr d a r n (.adda _))
  | addah h d a r n => exact readsBack_seq rfl rfl (decodeAddr_bodyAddr d a r n (.addah _))
  | movsa h d a hi => exact readsBack_seq rfl rfl (decodeSeq_movsa _ d a hi)
  | ldo h a b n => exact readsBack_seq rfl rfl (decodeImm_bodyImm a b n (.ldo _))
  | sto h a b n => exact readsBack_seq rfl rfl (decodeImm_bodyImm a b n (.sto _))
  | dld h a b n => exact readsBack_seq rfl rfl (decodeImm_bodyImm a b n (.dld _))
  | dst h a b n => exact readsBack_seq rfl rfl (decodeImm_bodyImm a b n (.dst _))
  | dbind h a b n => exact readsBack_seq rfl rfl (decodeImm_bodyImm a b n (.dbind _))
  | br h c off => exact readsBack_seq rfl rfl (decodeSeq_br _ c off)
  | rdflg h d cl => exact readsBack_seq rfl rfl (decodeSeq_rdflg _ d cl)
  | endProgram h => exact readsBack_seq rfl rfl (ifZero_zero _)
  | mma h d p m n k x => exact readsBack_mxu rfl rfl (decodeMat_bodyMat d p m n k x (.mma _))
  | attn h d p m n k x => exact readsBack_mxu rfl rfl (decodeMat_bodyMat d p m n k x (.attn _))
  | epi h d o b t =>
    have htiles : b.toNat + t.toNat ≤ 7 := of_decide_eq_true (Bool.and_eq_true_iff.1 hwf).2
    exact readsBack_mxu rfl rfl (decodeMxu_epi _ d o b t htiles)
  | accinit h m x => exact readsBack_mxu rfl rfl (decodeMxu_accinit _ m x)
  | vprog h td ta tb tp d => exact readsBack_vec rfl rfl (decodeVec_vprog _ td ta tb tp d)
  | vred h td ta r x => exact readsBack_vec rfl rfl (decodeVec_vred _ td ta r x)
  | vld h t f u r x => exact readsBack_vec rfl rfl (decodeVmem_bodyMem t f u r x (.vld _))
  | vst h t f u r x => exact readsBack_vec rfl rfl (decodeVmem_bodyMem t f u r x (.vst _))
  | vcvt h t c r x => exact readsBack_vec rfl rfl (decodeVec_vcvt _ t c r x)
  | vaccr h t a r c => exact readsBack_vec rfl rfl (decodeVacc_bodyAcc t a r c (.vaccr _))
  | vaccw h t a r c => exact readsBack_vec rfl rfl (decodeVacc_bodyAcc t a r c (.vaccw _))
  | vmov h d a => exact readsBack_vec rfl rfl (decodeVec_vmov _ d a)
  | vfill h d r => exact readsBack_vec rfl rfl (decodeVec_vfill _ d r)
  | sarm h d e => exact readsBack_stm rfl rfl (decodeStm_sarm _ d e)
  | sexp h d => exact readsBack_stm rfl rfl ((ifZero_of_eq (bodyDesc_low d)).trans (congrArg (some <| Instr.sexp _ ·) (bodyDesc_fields d 0).1))
  | tsig h k n =>
    obtain ⟨hk, hn, h0⟩ := bodyTok_fields k n
    exact readsBack_syn rfl rfl ((ifZero_of_eq h0).trans (congrArg₂ (some <| Instr.tsig _ · ·) hk hn))
  | twait h k n =>
    obtain ⟨hk, hn, h0⟩ := bodyTok_fields k n
    exact readsBack_syn rfl rfl ((ifZero_of_eq h0).trans (congrArg₂ (some <| Instr.twait _ · ·) hk hn))
  | waitbeat h r x =>
    obtain ⟨hr, hx, h0⟩ := bodyBeat_fields r x
    exact readsBack_syn rfl rfl ((ifZero_of_eq h0).trans (congrArg₂ (some <| Instr.waitbeat _ · ·) hr hx))
  | beatmark h r x =>
    obtain ⟨hr, hx, h0⟩ := bodyBeat_fields r x
    exact readsBack_syn rfl rfl ((ifZero_of_eq h0).trans (congrArg₂ (some <| Instr.beatmark _ · ·) hr hx))
  | coll h d => exact readsBack_syn rfl rfl ((ifZero_of_eq (bodyDesc_low d)).trans (congrArg (some <| Instr.coll _ ·) (bodyDesc_fields d 0).1))
  | lbar h => exact readsBack_syn rfl rfl (ifZero_zero _)
  | _ => intro w hw; cases hw

/-- Settles O2: the decoder of each unit reads the forms of its own instructions back. -/
theorem decodeEncode : Obligations.DecodeEncode := fun i w hwf hw => readsBack i hwf w hw

end Sys2Proof.Machine
end

section
/-!
The words of the MMA that the manual writes out (04 R127), and what stands in the registers and tables right after reset.
-/

namespace Sys2Proof.Machine

/-! ### The words of the MMA -/

/-- Settles O3: each of the three words is the encoding of its MMA, which is read back; operation 0x1F of the sequencer is reserved. -/
theorem mmaWords : Obligations.MmaWords := by
  unfold Obligations.MmaWords
  intro h
  have hwait : instrWord 1 0x00 (h (some 2) none) (bodyMat 3 6 0 0 0 0) = 0x2090066000000000#64 := by decide
  have hplain : instrWord 1 0x00 (h none none) (bodyMat 3 6 0 0 0 0) = 0x2000066000000000#64 := by decide
  have hsignal : instrWord 1 0x00 (h none (some 7)) (bodyMat 3 6 0 0 0 0) = 0x2005C66000000000#64 := by decide
  have hreads {g : Ih} {w : BitVec 64} (hw : instrWord 1 0x00 g (bodyMat 3 6 0 0 0 0) = w) :
      decodeCore g.core w = some (.mma (bareHeader g) 3 6 0 0 0 0) :=
    hw ▸ (decode_word ..).trans (decodeMat_bodyMat 3 6 0 0 0 0 (.mma _))
  exact ⟨hreads hwait, hreads hplain, hreads hsignal, rfl⟩

/-! ### Reset -/

/-- QCE_NET_CTL and QCE_EVQ right after reset: port 47710 with both addresses off, and the event queue on with number 0 (13 R403). -/
theorem regValue_reset_qce (p : Path) : State.reset.regValue p .qceNetCtl = 0x0000BA5E ∧ State.reset.regValue p .qceEvq = 0x80000000 := by
  constructor <;> rfl

theorem wf_reset : State.reset.wf = true := by
  simp only [State.wf, Memory.wf_reset, Bool.true_and]
  rfl

/-- Settles O4: the registers are computed from the fields that reset gives, on both paths alike. -/
theorem resetValues : Obligations.ResetValues :=
  ⟨fun p => ⟨rfl, (regValue_reset_qce p).1, (regValue_reset_qce p).2, rfl, rfl, rfl, rfl, rfl, rfl, rfl, rfl, rfl⟩, wf_reset⟩

/-- Settles O5: the table of queues holds queue 0 alone, and an absent queue is invalid. -/
theorem resetQueues : Obligations.ResetQueues := by
  refine ⟨rfl, rfl, rfl, fun q hq => ?_⟩
  have hkey : (0 : Nat) ≠ q.toNat := fun h => hq (BitVec.eq_of_toNat_eq h.symm)
  simp [State.queue, State.reset, sget, hkey]

end Sys2Proof.Machine
end

section
/-!
The SEQ instructions that only change their core, and those that a violation stops (04 R102, R106-R108).
-/

namespace Sys2Proof.Machine

variable {s : State} {h : Ih} {l : Launch}

/-! ### The two ways that a ready SEQ instruction goes -/

/-- The state that the effect of a SEQ instruction meets: its token is taken and the pc stands after it. -/
def State.seqStarted (s : State) (h : Ih) : State := s.modCore h.core.val fun k => k.seqStart h

@[simp] theorem State.core_seqStarted (s : State) (h : Ih) : (s.seqStarted h).core h.core.val = (s.core h.core.val).seqStart h :=
  s.core_modCore_same h.core.val _

/-- A SEQ instruction whose effect is the core `k'` completes with its signal. -/
theorem State.seq_sets (bits : Dword) {f : State → Launch → Nat → Except Code State} (k' : Core) (r : s.seqReady h l)
    (hf : f (s.seqStarted h) l h.core.val = .ok ((s.seqStarted h).setCore h.core.val k'))
    (hk : k'.k = ((s.core h.core.val).seqStart h).k) :
    ∃ t, finish s (s.seq h bits f) = .next t ∧ s.onlyCore t h.core.val (k'.giveTok h.sg) := by
  have hroom (x : Fin 16) (hx : h.sg = some x) : ((((s.seqStarted h).setCore h.core.val k').core h.core.val).tok x).toNat < 65535 := by
    rw [State.core_setCore_same, Core.tok, hk]
    exact r.2.2.2 x hx
  obtain ⟨t, ht, ho⟩ := s.seq_ready h l bits f r _ hf hroom
  rw [State.core_setCore_same] at ho
  have hall : s.onlyCore t h.core.val (k'.giveTok h.sg) :=
    State.onlyCore_trans (State.onlyCore_trans (s.onlyCore_modCore h.core.val _) (State.onlyCore_setCore k' _ h.core.val)) ho
  exact ⟨t, by rw [ht, finish_false s t (State.onlyCore_out hall) (by rw [hall.1])], hall⟩

/-- A SEQ instruction that meets a violation stops its queue in the state that it met (04 R108). -/
theorem State.seq_stops (bits : Dword) {f : State → Launch → Nat → Except Code State} {code : Code} (r : s.seqReady h l)
    (hf : f (s.seqStarted h) l h.core.val = .error code) :
    finish s (s.seq h bits f) =
      .next (s.after (s.stop l { code := code, core := some h.core.val, pc := (s.core h.core.val).pc, bits := bits })) := by
  rw [s.seq_error h l bits f code r hf, finish_true]

/-! ### Scalar and address instructions (04 R106) -/

/-- An operation on two registers. -/
theorem State.alu_ready (bits : Dword) (rd a b : BitVec 5) (f : Word → Word → Word) (r : s.seqReady h l) :
    ∃ t, s.alu h bits rd a b f = .next t ∧ s.onlyCore t h.core.val
      ((((s.core h.core.val).seqStart h).setS rd (f ((s.core h.core.val).rs a) ((s.core h.core.val).rs b))).giveTok h.sg) := by
  have hgives := s.seqCore_ready h l bits (fun k => k.setS rd (f (k.rs a) (k.rs b))) r (Core.k_setS ..)
  simp only [Core.rs_seqStart] at hgives
  exact hgives

/-- An operation on a register and the immediate. -/
theorem State.aluImm_ready (bits : Dword) (rd a : BitVec 5) (imm : Word) (f : Word → Word → Word) (r : s.seqReady h l) :
    ∃ t, s.aluImm h bits rd a imm f = .next t ∧ s.onlyCore t h.core.val
      ((((s.core h.core.val).seqStart h).setS rd (f ((s.core h.core.val).rs a) imm)).giveTok h.sg) := by
  have hgives := s.seqCore_ready h l bits (fun k => k.setS rd (f (k.rs a) imm)) r (Core.k_setS ..)
  simp only [Core.rs_seqStart] at hgives
  exact hgives

section Comparisons
variable (a b : Word)

theorem minWord_eq : minWord a b = if a.toInt ≤ b.toInt then a else b := by
  simp only [minWord, BitVec.slt_iff_toInt_lt, ← not_le, ite_not]

theorem minuWord_eq : minuWord a b = if a.toNat ≤ b.toNat then a else b := by
  simp only [minuWord, BitVec.ult_iff_lt, BitVec.lt_def, ← not_le, ite_not]

theorem maxWord_eq : maxWord a b = if a.toInt ≤ b.toInt then b else a := by
  rcases lt_trichotomy a.toInt b.toInt with hlt | heq | hgt
  · rw [maxWord, if_pos (BitVec.slt_iff_toInt_lt.2 hlt), if_pos hlt.le]
  · rw [BitVec.eq_of_toInt_eq heq, maxWord, if_pos le_rfl, ite_self]
  · rw [maxWord, if_neg (mt BitVec.slt_iff_toInt_lt.1 hgt.not_gt), if_neg hgt.not_ge]

theorem maxuWord_eq : maxuWord a b = if a.toNat ≤ b.toNat then b else a := by
  rcases lt_trichotomy a.toNat b.toNat with hlt | heq | hgt
  · rw [maxuWord, if_pos (BitVec.ult_iff_lt.2 hlt), if_pos hlt.le]
  · rw [BitVec.eq_of_toNat_eq heq, maxuWord, if_pos le_rfl, ite_self]
  · rw [maxuWord, if_neg (mt BitVec.ult_iff_lt.1 hgt.not_gt), if_neg hgt.not_ge]

theorem sltWord_eq : sltWord a b = if a.toInt < b.toInt then 1 else 0 := by
  simp only [sltWord, BitVec.slt_iff_toInt_lt]

theorem sltuWord_eq : sltuWord a b = if a.toNat < b.toNat then 1 else 0 := by
  simp only [sltuWord, BitVec.ult_iff_lt, BitVec.lt_def]

end Comparisons

/-- Settles O6: each instruction is one operation on its core; the comparisons of words are those of their values. -/
theorem scalarResults : Obligations.ScalarResults := by
  refine ⟨fun s h l rd a b imm r => ?_, fun s h l ad asrc rd rs imm hi r => ?_⟩
  · have hreg (bits : Dword) (f : Word → Word → Word) := State.alu_ready bits rd a b f r
    have himm (bits : Dword) (f : Word → Word → Word) := State.aluImm_ready bits rd a imm f r
    refine ⟨hreg _ (· + ·), hreg _ (· - ·), hreg _ (· * ·), hreg _ (· &&& ·), hreg _ (· ||| ·), hreg _ (· ^^^ ·),
      hreg _ fun a b => a <<< shiftCount b, hreg _ fun a b => a >>> shiftCount b, hreg _ fun a b => a.sshiftRight (shiftCount b),
      ?_, ?_, ?_, ?_, ?_, ?_, himm _ (· + ·), himm _ (· * ·), himm _ (· &&& ·), himm _ (· ||| ·)⟩
    · exact minWord_eq _ _ ▸ hreg _ minWord
    · exact minuWord_eq _ _ ▸ hreg _ minuWord
    · exact maxWord_eq _ _ ▸ hreg _ maxWord
    · exact maxuWord_eq _ _ ▸ hreg _ maxuWord
    · exact sltWord_eq _ _ ▸ hreg _ sltWord
    · exact sltuWord_eq _ _ ▸ hreg _ sltuWord
  · refine ⟨s.seqCore_ready h l _ id r rfl, ?_, ?_, ?_⟩
    · have hgives := s.seqCore_ready h l (bitsOf (.adda h ad asrc rs imm)) (fun k => k.setA ad (k.ra asrc + imm.signExtend 64 + (k.rs rs).setWidth 64)) r rfl
      simp only [Core.rs_seqStart, Core.ra_seqStart] at hgives
      exact hgives
    · have hgives := s.seqCore_ready h l (bitsOf (.addah h ad asrc rs imm))
        (fun k => k.setA ad (k.ra asrc + (((k.rs rs).setWidth 64 + imm.setWidth 64) <<< 32))) r rfl
      simp only [Core.rs_seqStart, Core.ra_seqStart] at hgives
      exact hgives
    · have hgives := s.seqCore_ready h l (bitsOf (.movsa h rd asrc hi)) (fun k => k.setS rd (if hi then hi32 (k.ra asrc) else lo32 (k.ra asrc))) r
        (Core.k_setS ..)
      simp only [Core.ra_seqStart] at hgives
      exact hgives

/-! ### Words of the local stores (04 R108) -/

theorem ostWordOk_iff {a : Nat} : ostWordOk a = true ↔ a % 4 = 0 ∧ a < 0x300000 := by
  rw [ostWordOk, Bool.and_eq_true, beq_iff_eq, decide_eq_true_eq, ostSize]
theorem dscWordOk_iff {a : Nat} : dscWordOk a = true ↔ a % 4 = 0 ∧ a < 0x10000 := by simp [dscWordOk]
theorem dstWordOk_iff {a : Nat} : dstWordOk a = true ↔ a % 4 = 0 ∧ 128 ≤ a ∧ a < 0x10000 := by
  rw [dstWordOk, Bool.and_eq_true, dscWordOk_iff, decide_eq_true_eq]
  tauto

/-- What an access to a word of a local store does: at an offset that is one, the core changes by `g`; else it is a violation. -/
def localAccess (ok : Nat → Bool) (rs1 : BitVec 5) (imm : Word) (g : Core → Nat → Core) (s : State) (_ : Launch) (c : Nat) : Except Code State :=
  if ok ((s.core c).offset rs1 imm) then .ok (s.setCore c (g (s.core c) ((s.core c).offset rs1 imm))) else .error eLocalBound

section Access
variable {ok : Nat → Bool} {rs1 : BitVec 5} {imm : Word} {g : Core → Nat → Core} (bits : Dword)

theorem State.localAccess_completes (r : s.seqReady h l) (hok : ok ((s.core h.core.val).rs rs1 + imm).toNat = true)
    (hk : (g ((s.core h.core.val).seqStart h) ((s.core h.core.val).rs rs1 + imm).toNat).k = ((s.core h.core.val).seqStart h).k) :
    ∃ t, finish s (s.seq h bits (localAccess ok rs1 imm g)) = .next t ∧
      s.onlyCore t h.core.val ((g ((s.core h.core.val).seqStart h) ((s.core h.core.val).rs rs1 + imm).toNat).giveTok h.sg) := by
  refine State.seq_sets bits _ r ?_ hk
  simp only [localAccess, State.core_seqStarted, Core.offset_seqStart, hok, if_true]

theorem State.localAccess_error (hok : ok ((s.core h.core.val).rs rs1 + imm).toNat = false) :
    localAccess ok rs1 imm g (s.seqStarted h) l h.core.val = .error eLocalBound := by
  simp only [localAccess, State.core_seqStarted, Core.offset_seqStart, hok, Bool.false_eq_true, if_false]

theorem State.localAccess_stops (r : s.seqReady h l) (hok : ok ((s.core h.core.val).rs rs1 + imm).toNat = false) :
    finish s (s.seq h bits (localAccess ok rs1 imm g)) =
      .next (s.after (s.stop l { code := eLocalBound, core := some h.core.val, pc := (s.core h.core.val).pc, bits := bits })) :=
  State.seq_stops bits r (State.localAccess_error hok)

end Access

theorem exec_ldo (rd rs1 : BitVec 5) (imm : Word) : exec (.ldo h rd rs1 imm) s =
    finish s (s.seq h (bitsOf (.ldo h rd rs1 imm)) (localAccess ostWordOk rs1 imm fun k a => k.setS rd (.ofNat 32 (leNat (k.ostRead a 4))))) := rfl

theorem exec_sto (rd rs1 : BitVec 5) (imm : Word) : exec (.sto h rd rs1 imm) s =
    finish s (s.seq h (bitsOf (.sto h rd rs1 imm)) (localAccess ostWordOk rs1 imm fun k a => k.ostWrite a (leBytes 4 (k.rs rd).toNat))) := rfl

theorem exec_dld (rd rs1 : BitVec 5) (imm : Word) : exec (.dld h rd rs1 imm) s =
    finish s (s.seq h (bitsOf (.dld h rd rs1 imm)) (localAccess dscWordOk rs1 imm fun k a => k.setS rd (k.dw (a / 64) (a / 4 % 16)))) := rfl

/-- The effect of a DST at the offset `a`. -/
def dstAccess (rd : BitVec 5) (a : Nat) (s : State) (l : Launch) (c : Nat) : Except Code State :=
  if dstWordOk a then .ok (s.dstWord l c a ((s.core c).rs rd)) else .error eLocalBound

/-- A DST whose offset is no word of its store waits for no line, and stops the queue. -/
theorem exec_dst_stops (rd rs1 : BitVec 5) (imm : Word) (r : s.seqReady h l) (hok : dstWordOk ((s.core h.core.val).rs rs1 + imm).toNat = false) :
    exec (.dst h rd rs1 imm) s = .next (s.after (s.stop l
      { code := eLocalBound, core := some h.core.val, pc := (s.core h.core.val).pc, bits := bitsOf (.dst h rd rs1 imm) })) := by
  have hexec : exec (.dst h rd rs1 imm) s =
      (let a := ((s.core h.core.val).rs rs1 + imm).toNat
       if (s.canIssue h.core.val).isSome && (s.core h.core.val).dstWaits h a then .next (s.setCore h.core.val { s.core h.core.val with seqWait := none })
       else
         let q := s.seq h (bitsOf (.dst h rd rs1 imm)) (dstAccess rd a)
         finish s (q.1, q.2 || (s.core h.core.val).streamBusy (.ofNat 10 (a / 64)))) := rfl
  have hwaits : (s.core h.core.val).dstWaits h ((s.core h.core.val).rs rs1 + imm).toNat = false := by
    simp only [Core.dstWaits, hok, Bool.and_false, Bool.false_and]
  have hstop := s.seq_error h l (bitsOf (.dst h rd rs1 imm)) (dstAccess rd ((s.core h.core.val).rs rs1 + imm).toNat) eLocalBound r
    (by simp only [dstAccess, hok, Bool.false_eq_true, if_false])
  rw [hexec]
  simp only [hwaits, Bool.and_false, Bool.false_eq_true, if_false, hstop, Bool.true_or, finish_true]

/-- A STO changes the four bytes of its word and no other. -/
theorem State.onlyCore_ostWrite {t : State} {c : Nat} {k : Core} {g : Option (Fin 16)} {a : Nat} {bs : List Byte}
    (ho : s.onlyCore t c ((((k.seqStart h)).ostWrite a bs).giveTok g)) :
    (t.core c).ostRead a bs.length = bs ∧ ∀ b n, b + n ≤ a ∨ a + bs.length ≤ b → (t.core c).ostRead b n = k.ostRead b n := by
  obtain ⟨-, hcore, -⟩ := ho
  rw [hcore]
  simp only [Core.ostRead_giveTok]
  refine ⟨Core.ostRead_ostWrite _ a bs, fun b n hb => ?_⟩
  rw [Core.ostRead_ostWrite_other _ a b n bs hb, Core.ostRead_seqStart]

/-- Settles O8: a good offset sets the core, and a bad one stops the queue in the state that the instruction met. -/
theorem localWords : Obligations.LocalWords := by
  refine ⟨fun s h l rd rs1 imm r => ⟨fun h4 hlt => ?_, fun h4 hlt => ?_, fun h4 hlt => ?_⟩,
    fun s h l rd rs1 imm r => ⟨fun hbad => ⟨?_, ?_⟩, fun hbad => ?_, fun hbad => ?_⟩⟩
  · rw [exec_ldo, ← Core.ostRead_seqStart _ h]
    exact State.localAccess_completes _ r (ostWordOk_iff.2 ⟨h4, hlt⟩) (Core.k_setS ..)
  · rw [exec_sto, ← Core.rs_seqStart _ h rd]
    obtain ⟨t, ht, ho⟩ := State.localAccess_completes (bitsOf (.sto h rd rs1 imm)) r
      (g := fun k a => k.ostWrite a (leBytes 4 (k.rs rd).toNat)) (ostWordOk_iff.2 ⟨h4, hlt⟩) rfl
    have hbytes := State.onlyCore_ostWrite ho
    rw [Laws.leBytes_length] at hbytes
    exact ⟨t, ht, ho, hbytes⟩
  · rw [exec_dld, ← Core.dw_seqStart _ h]
    exact State.localAccess_completes _ r (dscWordOk_iff.2 ⟨h4, hlt⟩) (Core.k_setS ..)
  · exact (exec_ldo ..).trans (State.localAccess_stops _ r (Bool.eq_false_iff.2 (mt ostWordOk_iff.1 hbad)))
  · exact (exec_sto ..).trans (State.localAccess_stops _ r (Bool.eq_false_iff.2 (mt ostWordOk_iff.1 hbad)))
  · exact (exec_dld ..).trans (State.localAccess_stops _ r (Bool.eq_false_iff.2 (mt dscWordOk_iff.1 hbad)))
  · exact exec_dst_stops rd rs1 imm r (Bool.eq_false_iff.2 (mt dstWordOk_iff.1 hbad))

end Sys2Proof.Machine
end

section
/-!
BR and END: the condition, the target and the encoding of a branch (04 R107), and how a core retires (04 R110).
-/

namespace Sys2Proof.Machine

variable {s : State} {h : Ih} {l : Launch}

/-! ### BR -/

@[simp] theorem Core.holds_seqStart (k : Core) (h : Ih) (c : Cond) : (k.seqStart h).holds c = k.holds c := by
  cases c <;> simp only [Core.holds, Core.rs_seqStart]

/-- The core after a BR that has started: a branch that is taken goes 8 sext(off24) from its own address. -/
def Core.branched (k : Core) (c : Cond) (off : BitVec 24) : Core := if k.holds c then { k with pc := branchPc k.pc off } else k

theorem exec_br (c : Cond) (off : BitVec 24) : exec (.br h c off) s = s.seqCore h (bitsOf (.br h c off)) fun k => k.branched c off := rfl

theorem exec_br_ready (c : Cond) (off : BitVec 24) (r : s.seqReady h l) : ∃ t, exec (.br h c off) s = .next t ∧
    s.onlyCore t h.core.val ((((s.core h.core.val).seqStart h).branched c off).giveTok h.sg) := by
  rw [exec_br]
  refine s.seqCore_ready h l _ (fun k => k.branched c off) r ?_
  simp only [Core.branched]
  split <;> rfl

theorem Core.branched_taken (k : Core) {c : Cond} (off : BitVec 24) (hc : k.holds c = true) : (k.seqStart h).branched c off =
    { k.seqStart h with pc := k.pc + (off.signExtend 64 * 8#64).setWidth 20 } := by
  have hpc : (k.seqStart h).pc = k.pc + 8 := by rw [Core.seqStart_frame]
  rw [Core.branched, Core.holds_seqStart, if_pos hc, branchPc, hpc, BitVec.add_sub_cancel]

theorem Core.branched_not_taken (k : Core) {c : Cond} (off : BitVec 24) (hc : ¬k.holds c = true) :
    (k.seqStart h).branched c off = k.seqStart h := by
  rw [Core.branched, Core.holds_seqStart, if_neg hc]

/-- A field of a field. -/
theorem extract_extract {n : Nat} (w : BitVec n) {a m b k : Nat} (hbk : b + k ≤ m) : (w.extractLsb' a m).extractLsb' b k = w.extractLsb' (a + b) k := by
  apply BitVec.eq_of_getLsbD_eq
  intro i hi
  simp only [BitVec.getLsbD_extractLsb', hi, decide_true, Bool.true_and, show b + i < m by omega, Nat.add_assoc]

/-- A reserved condition, or ALWAYS with a register that is not s0, is no condition. -/
theorem readCond_reserved {b : BitVec 46} (hb : b.extractLsb' 43 3 = 7 ∨ (b.extractLsb' 43 3 = 6 ∧ (b.extractLsb' 36 5 ≠ 0 ∨ b.extractLsb' 31 5 ≠ 0))) :
    readCond b = none := by
  rcases hb with h7 | ⟨h6, hreg⟩
  · simp only [readCond, h7]
    rfl
  · have hno : ¬(b.extractLsb' 36 5 = 0 ∧ b.extractLsb' 31 5 = 0) := not_and_or.2 hreg
    simp only [readCond, h6]
    exact if_neg hno

theorem decodeSeq_br_reserved {b : BitVec 46} (h : Ih) (hb : readCond b = none) : decodeSeq h 0x1C b = none := by
  change ifZero _ (ifZero _ (match readCond b with | some c => _ | none => none)) = none
  rw [hb]
  simp only [ifZero, ite_self]

/-- A word of the opcode of BR whose condition is none is no instruction. -/
theorem decodeCore_br_reserved (c : Fin 64) {w : BitVec 64} (hop : w.extractLsb' 56 8 = 0x1C) (hb : readCond (w.extractLsb' 0 46) = none) :
    decodeCore c w = none := by
  have hcode : w.extractLsb' 56 5 = 0x1C := by rw [← extract_extract w (a := 56) (m := 8) (b := 0) (by decide), hop]; rfl
  have hunit : w.extractLsb' 61 3 = 0 := by rw [← extract_extract w (a := 56) (m := 8) (b := 5) (by decide), hop]; rfl
  simp only [decodeCore, hcode, hunit]
  split
  · exact decodeSeq_br_reserved _ hb
  · rfl

/-- The loader rejects code of one word that is no instruction (04 R130). -/
theorem CoreSrc.decode_of_none {k : CoreSrc} {w : BitVec 64} (hk : k.code = [w]) (hw : ∀ c, decodeCore c w = none) :
    ∃ r, k.decode = .error r ∧ r.code = eOpcode := by
  refine ⟨{ code := eOpcode, check := 1, core := k.core, offset := k.codeAt }, ?_, rfl⟩
  simp only [CoreSrc.decode, hk, List.length_singleton, List.range_one, List.foldl_cons, List.foldl_nil, List.getD_cons_zero]
  simp only [hw]
  rfl

/-- The fields of a BR's word: its opcode, its condition's code and its offset. -/
theorem br_fields (h : Ih) (c : Cond) (off : BitVec 24) : let w := instrWord 0 0x1C h (bodyBr c off)
    w.extractLsb' 43 3 = (condBits c).1 ∧ w.extractLsb' 0 24 = off ∧ w.extractLsb' 56 8 = 0x1C := by
  intro w
  refine ⟨?_, ?_, ?_⟩
  · simp (disch := decide) only [w, instrWord, bodyBr, extract_append_high, extract_append_low, extract_all, Nat.reduceSub]
  · simp (disch := decide) only [w, instrWord, bodyBr, extract_append_low, extract_all]
  · simp (disch := decide) only [w, instrWord, extract_append_high, Nat.reduceSub]
    decide

/-- Settles O10: the condition decides between the target and the next instruction, and each word of the opcode is a condition's or none. -/
theorem branches : Obligations.Branches := by
  refine ⟨fun s h l c off r => ?_, fun c w hop hcond => ?_, fun h off a b x hx => ?_⟩
  · intro k holds
    have hholds : holds ↔ k.holds c = true := by
      cases c with
      | eq a b => exact beq_iff_eq.symm
      | ne a b => exact bne_iff_ne.symm
      | lt a b => exact BitVec.slt_iff_toInt_lt.symm
      | ge a b => simp only [holds, Core.holds, Bool.not_eq_true', ← Bool.not_eq_true, BitVec.slt_iff_toInt_lt, not_lt]
      | ltu a b => exact BitVec.ult_iff_lt.symm
      | geu a b => simp only [holds, Core.holds, Bool.not_eq_true', ← Bool.not_eq_true, BitVec.ult_iff_lt, BitVec.lt_def, not_lt]
      | always => exact (iff_of_true trivial rfl)
    obtain ⟨t, ht, ho⟩ := exec_br_ready c off r
    refine ⟨t, ht, ho.1, fun hc => ?_, fun hc => ?_⟩
    · rwa [Core.branched_taken _ off (hholds.1 hc)] at ho
    · rwa [Core.branched_not_taken _ off (mt hholds.2 hc)] at ho
  · have hnone : readCond (w.extractLsb' 0 46) = none := readCond_reserved (by
      rwa [extract_extract w (by decide), extract_extract w (by decide), extract_extract w (by decide)])
    exact ⟨decodeCore_br_reserved c hop hnone, fun k hk => CoreSrc.decode_of_none hk fun c => decodeCore_br_reserved c hop hnone⟩
  · have hbits : (condBits x.1).1 = x.2 := by
      simp only [List.mem_cons, List.not_mem_nil, or_false] at hx
      rcases hx with rfl | rfl | rfl | rfl | rfl | rfl | rfl <;> rfl
    obtain ⟨hc, hoff, hop⟩ := br_fields h x.1 off
    exact ⟨_, rfl, hc.trans hbits, hoff, hop⟩

/-! ### END -/

/-- Boundaries that a launch's marks can hold are held under more marks too. -/
theorem State.holdsOf_subset (s : State) (l : Launch) {ms ns : List (Nat × Word)} (h : ms ⊆ ns) : s.holdsOf l ms ⊆ s.holdsOf l ns := by
  simp only [State.holdsOf]
  split
  · exact List.Subset.refl _
  · split
    · exact List.Subset.refl _
    · exact List.map_subset _ h

section Quiet
variable {cs : Sparse Core}

/-- Cores of which none has a new obligation hold no other boundary. -/
theorem State.residentHolds_withCores (hob : ∀ c, (sget {} cs c).obligation = (s.core c).obligation ∨ (sget {} cs c).obligation = none) :
    ({ s with cores := cs } : State).residentHolds ⊆ s.residentHolds := by
  change (match s.resident with | some l => s.holdsOf l _ | none => []) ⊆ (match s.resident with | some l => s.holdsOf l _ | none => [])
  cases s.resident with
  | none => exact List.Subset.refl _
  | some l =>
    refine s.holdsOf_subset l fun m hm => ?_
    obtain ⟨c, hc, hmark⟩ := List.mem_filterMap.1 hm
    refine List.mem_filterMap.2 ⟨c, hc, ?_⟩
    rcases hob c with hsame | hgone
    · rwa [← hsame]
    · rw [show ({ s with cores := cs } : State).core c = sget {} cs c from rfl, hgone] at hmark
      exact absurd hmark (by simp)

theorem State.asserted_withCores (hob : ∀ c, (sget {} cs c).obligation = (s.core c).obligation ∨ (sget {} cs c).obligation = none)
    (hs : s.asserted = []) : ({ s with cores := cs } : State).asserted = [] := by
  simp only [State.asserted, List.filter_eq_nil_iff] at hs ⊢
  refine fun o ho => hs o ?_
  simp only [State.obligations] at ho ⊢
  split at ho
  · exact absurd ho List.not_mem_nil
  · next hd =>
    rw [if_neg hd]
    rcases List.mem_append.1 ho with hr | hh
    · exact List.mem_append_left _ (State.residentHolds_withCores hob hr)
    · exact List.mem_append_right _ hh

/-- Cores that assert no more, and of which one still runs where one did, leave a quiet machine quiet. -/
theorem State.quiet_withCores (hq : s.quiet = true)
    (hob : ∀ c, (sget {} cs c).obligation = (s.core c).obligation ∨ (sget {} cs c).obligation = none)
    (hend : (∃ c, c < 64 ∧ (s.core c).ended = false) → ∃ c, c < 64 ∧ (sget {} cs c).ended = false) : ({ s with cores := cs } : State).quiet = true := by
  simp only [State.quiet, Bool.and_eq_true] at hq ⊢
  obtain ⟨⟨⟨⟨⟨⟨⟨⟨hn, hd⟩, hl⟩, ha⟩, hrun⟩, hres⟩, hr⟩, hp⟩, hdue⟩ := hq
  refine ⟨⟨⟨⟨⟨⟨⟨⟨hn, hd⟩, hl⟩, ?_⟩, ?_⟩, hres⟩, hr⟩, hp⟩, hdue⟩
  · exact List.isEmpty_iff.2 (State.asserted_withCores hob (List.isEmpty_iff.1 ha))
  · change (match s.running with | some l => _ | none => true) = true
    cases hs : s.running with
    | none => rfl
    | some l =>
      rw [hs] at hrun
      simp only [Bool.or_eq_true, List.any_eq_true, List.mem_range, Bool.not_eq_true'] at hrun ⊢
      exact hrun.imp hend id

end Quiet

theorem exec_endProgram (h : Ih) (s : State) : exec (.endProgram h) s = finishAll s (s.endCore h (bitsOf (.endProgram h))).1 := rfl

/-- END waits while an earlier instruction is under way. -/
theorem State.endCore_waits (bits : Dword) (r : s.seqReady h l) (hd : (s.core h.core.val).allDoneBefore (s.core h.core.val).serialNo = false) :
    s.endCore h bits = (s.modCore h.core.val fun k => { k with seqWait := none }, false) := by
  obtain ⟨hissue, htok, -, -⟩ := r
  simp only [State.endCore, hd, Bool.not_false, if_true, hissue, Option.isSome_some]
  simp only [State.modCore, htok, if_true]

theorem State.modCore_eq_withCores (s : State) (c : Nat) (f : Core → Core) : s.modCore c f = { s with cores := sset {} s.cores c (f (s.core c)) } := rfl

/-- A core as END leaves it (04 R110). -/
def Core.retired (k : Core) (h : Ih) : Core := { k.seqStart h with obligation := none, ended := true, k := [] }

/-- Until every core has joined or ended, or while none waits in an LBAR, no barrier is passed (04 R120). -/
theorem State.passBarrier_of_no_head (l : Launch) (hb : ∀ c, (s.core c).barHead = none) : s.passBarrier l = (s, false) := by
  simp [State.passBarrier, hb]

/-- A launch of which a core still runs does not commit. -/
theorem State.commitIfDone_running {c : Nat} (hc : c < 64) (he : (s.core c).ended = false) : s.commitIfDone = (s, false) := by
  have hall : ((List.range 64).all fun c => (s.core c).ended) = false := by
    simp only [List.all_eq_false, List.mem_range]
    exact ⟨c, hc, by simp [he]⟩
  simp only [State.commitIfDone, hall, Bool.false_and, Bool.false_eq_true, if_false]
  split <;> rfl

theorem State.onlyCore_running {t : State} {c : Nat} {k : Core} (ho : s.onlyCore t c k) : t.running = s.running := by rw [ho.1]; rfl

@[simp] theorem Core.qSyn_seqStart (k : Core) (h : Ih) : (k.seqStart h).qSyn = k.qSyn := by rw [Core.seqStart_frame]

/-- END without a signal whose core has nothing under way retires it, while another core still runs and none waits in an LBAR. -/
theorem State.endCore_retires (bits : Dword) (r : s.seqReady h l) (hd : (s.core h.core.val).allDoneBefore (s.core h.core.val).serialNo = true)
    (hsg : h.sg = none) {c : Nat} (hc : c < 64) (hne : c ≠ h.core.val) (he : (s.core c).ended = false) (hb : ∀ c, (s.core c).barHead = none) :
    s.onlyCore (s.endCore h bits).1 h.core.val ((s.core h.core.val).retired h) := by
  obtain ⟨t, ht, ho⟩ := s.seq_ready h l bits (fun s _ c => .ok (s.modCore c fun k => { k with obligation := none, ended := true })) r _ rfl
    (by simp [hsg])
  -- the core at rest, before its counts go
  have hrest : s.onlyCore t h.core.val { (s.core h.core.val).seqStart h with obligation := none, ended := true } := by
    have hall := State.onlyCore_trans (State.onlyCore_trans (s.onlyCore_modCore h.core.val _) (State.onlyCore_modCore _ h.core.val _)) ho
    simpa only [hsg, Core.giveTok, State.core_modCore_same] using hall
  have hgone := State.onlyCore_trans hrest (t.onlyCore_modCore h.core.val fun k => { k with k := [] })
  rw [hrest.2.1] at hgone
  set u := t.modCore h.core.val fun k => { k with k := [] } with hu
  have hrun : t.running = some l := (State.onlyCore_running hrest).trans (s.canIssue_some l _ r.1).1
  have hheads (i : Nat) : (u.core i).barHead = none := by
    by_cases hi : i = h.core.val
    · rw [hi, hgone.2.1, ← hb h.core.val]
      simp only [Core.barHead, Core.qSyn_seqStart]
    · rw [hgone.2.2 i hi, hb i]
  have hother : (u.core c).ended = false := by rw [hgone.2.2 c hne, he]
  have hend : (s.endCore h bits).1 = u := by
    simp only [State.endCore, hd, Bool.not_true, Bool.false_eq_true, if_false, ht, hrun, hrest.2.1, ← hu, State.passBarrier_of_no_head l hheads,
      State.commitIfDone_running hc hother]
  rw [hend]
  exact hgone

/-- Settles O12: END is its waiting or its retiring; both leave the machine as quiet as it was. -/
theorem endRetires : Obligations.EndRetires := by
  intro s h l r
  refine ⟨fun hd hq => ?_, fun hd hsg hother hb hq => ?_⟩
  · have hcore (c : Nat) : ((s.modCore h.core.val fun k => { k with seqWait := none }).core c).obligation = (s.core c).obligation ∧
        ((s.modCore h.core.val fun k => { k with seqWait := none }).core c).ended = (s.core c).ended := by
      by_cases hc : c = h.core.val
      · subst hc; simp
      · simp [hc]
    have hquiet : (s.modCore h.core.val fun k => { k with seqWait := none }).quiet = true :=
      State.quiet_withCores hq (fun c => .inl (hcore c).1) fun ⟨c, hc, he⟩ => ⟨c, hc, (hcore c).2.trans he⟩
    rw [exec_endProgram, State.endCore_waits _ r hd]
    exact finishAll_quiet s _ [] hquiet rfl (by simp) (by simp)
  · obtain ⟨c, hc, hne, he⟩ := hother
    have ho := State.endCore_retires (bitsOf (.endProgram h)) r hd hsg hc hne he hb
    set t := (s.endCore h (bitsOf (.endProgram h))).1 with ht
    have hquiet : t.quiet = true := by
      have hq' : ({ s with cores := t.cores } : State).quiet = true := by
        refine State.quiet_withCores hq (fun i => ?_) fun _ => ⟨c, hc, (congrArg Core.ended (ho.2.2 c hne)).trans he⟩
        change (t.core i).obligation = _ ∨ (t.core i).obligation = _
        by_cases hi : i = h.core.val
        · rw [hi, ho.2.1]; exact .inr rfl
        · rw [ho.2.2 i hi]; exact .inl rfl
      rwa [← ho.1] at hq'
    refine ⟨t, ?_, ho, ?_⟩
    · rw [exec_endProgram, ← ht]
      exact finishAll_quiet s t [] hquiet (by rw [ho.1]) (by simp [State.onlyCore_out ho]) (by simp)
    · simp only [State.canIssue, ho.2.1, Core.retired, Bool.true_or, if_true]
      split <;> rfl

end Sys2Proof.Machine
end

section
/-!
Unit instructions as they issue (04 R100, R101, R112, R113): behind others they wait with their operands; alone and ready they begin, and the state
takes what their unit answers.
-/

namespace Sys2Proof.Machine

variable {s : State} {h : Ih} {l : Launch} {bits : Dword} {u : CUnit}

/-! ### Waiting -/

/-- Behind others a unit instruction enters its queue, and no more. -/
theorem State.issueRes_waits {op : Core → UOp} (w : s.unitWaits h u l) : s.issueRes h bits u op = .next (s.queuedState h bits u op) := by
  rw [State.issueRes, s.issue_waits h l bits u op w]
  exact finish_false s _ rfl rfl

theorem exec_waits {i : Instr} {op : Core → UOp} (he : exec i s = s.issueRes h (bitsOf i) u op) (w : s.unitWaits h u l) :
    exec i s = .next (s.queuedState h (bitsOf i) u op) := he.trans (State.issueRes_waits w)

theorem exec_epi {d r : BitVec 5} {b t : BitVec 3} (hbt : b.toNat + t.toNat ≤ 7) :
    exec (.epi h d r b t) s = s.issueRes h (bitsOf (.epi h d r b t)) .mxu fun k => .epi (k.slot d) (k.rs r) b t := if_neg (Nat.not_lt.2 hbt)

/-- An EPI past tile 7 stops its queue (entry 54 of the log). -/
theorem exec_epi_past {d r : BitVec 5} {b t : BitVec 3} (hbt : b.toNat + t.toNat > 7) (r' : s.seqReady h l) : exec (.epi h d r b t) s =
    .next (s.after (s.stop l { code := eOpcode, core := some h.core.val, pc := (s.core h.core.val).pc, bits := bitsOf (.epi h d r b t) })) := by
  rw [show exec (.epi h d r b t) s = finish s (s.seq h (bitsOf (.epi h d r b t)) fun _ _ _ => .error eOpcode) from if_pos hbt]
  exact State.seq_stops _ r' rfl

theorem exec_beatmark (r : BitVec 5) (w : Word) : exec (.beatmark h r w) s =
    finishAll s (s.issue h (bitsOf (.beatmark h r w)) .syn fun k => .beatmark (k.rs r + w)).1 := rfl

/-- Settles O13: each instruction is an issue, and an issue behind others is the queue with one more. -/
theorem unitQueues : Obligations.UnitQueues := by
  intro s h l d p m n k r imm td ta tb tp t3 u3 rb cb fmt b rop mask eng tk w
  refine ⟨exec_waits rfl, exec_waits rfl, fun hbt => exec_waits (exec_epi hbt), exec_epi_past, exec_waits rfl, exec_waits rfl, exec_waits rfl,
    exec_waits rfl, exec_waits rfl, exec_waits rfl, exec_waits rfl, exec_waits rfl, exec_waits rfl, exec_waits rfl, exec_waits rfl, exec_waits rfl,
    exec_waits rfl, exec_waits rfl, exec_waits rfl, exec_waits rfl, exec_waits rfl, fun hw => ?_⟩
  rw [exec_beatmark, s.issue_waits h l _ _ _ hw, finishAll_eq]

/-! ### Beginning -/

section Begins
variable {op : UOp}

/-- An issue reads the operands of the core as it stands: it is the issue of the operation that they give. -/
theorem State.issue_operands (s : State) (h : Ih) (bits : Dword) (u : CUnit) (op : Core → UOp) :
    s.issue h bits u op = s.issue h bits u fun _ => op (s.core h.core.val) := rfl

/-- The state in which the operation begins. -/
abbrev State.begun (s : State) (h : Ih) (bits : Dword) (u : CUnit) (op : UOp) : State := s.begunState h bits u fun _ => op

/-- The instruction as its unit sees it. -/
abbrev State.ins (s : State) (h : Ih) (bits : Dword) (op : UOp) : Issued := s.issued h bits fun _ => op

theorem State.issueRes_begins (w : s.unitBegins h bits u (fun _ => op) l) (hl : ∀ line, op ≠ .coll line) (hb : op ≠ .lbar) :
    s.issueRes h bits u (fun _ => op) =
      finish s (finishBegin l h.core.val u (s.ins h bits op) (runOp {} (s.begun h bits u op) l h.core.val (s.ins h bits op))) := by
  rw [State.issueRes, s.issue_begins h l bits u _ w hl hb]

/-! How what a unit answers enters the state. -/

section FinishBegin
variable {c : Nat} {i : Issued} {g : Began}

theorem finishBegin_flies (hs : g.stop = none) (hf : g.fly = true) (hh : g.halt = none ∨ ∃ e, g.halt = some e ∧ e.isHeld = true) :
    finishBegin l c u i g = (g.flies c u i, false) := by
  rcases hh with hh | ⟨e, hh, he⟩
  · simp only [finishBegin, hs, hf, hh, if_true, Began.flies]
  · simp only [finishBegin, hs, hf, hh, he, if_true, Began.flies]

theorem finishBegin_halts {e : XFail} (hs : g.stop = none) (hf : g.fly = true) (hh : g.halt = some e) (he : e.isHeld = false) :
    finishBegin l c u i g = ((g.flies c u i).haltOn l e (some (c, i.pc)) 0 0, true) := by
  simp only [finishBegin, hs, hf, hh, he, if_true, Bool.false_eq_true, if_false, Began.flies]

theorem finishBegin_mute (hs : g.stop = none) (hf : g.fly = false) (hm : g.mute = true) :
    finishBegin l c u i g = (g.s.orFlags c g.flags, true) := by
  simp only [finishBegin, hs, hf, hm, Bool.false_eq_true, if_false, if_true]

theorem finishBegin_ends (hs : g.stop = none) (hf : g.fly = false) (hm : g.mute = false) :
    finishBegin l c u i g = (g.s.orFlags c g.flags).signalOpt l c i.sg (i.info c) := by
  simp only [finishBegin, hs, hf, hm, Bool.false_eq_true, if_false]

theorem finishBegin_stops {info : StopInfo} (hs : g.stop = some info) :
    finishBegin l c u i g = (((g.s.orFlags c g.flags).applyMarks g.marks).stop l info, true) := by
  simp only [finishBegin, hs]

end FinishBegin

/-- A unit instruction that begins does what its unit answers. -/
theorem exec_runs {i : Instr} (he : exec i s = s.issueRes h (bitsOf i) u fun _ => op) (hl : ∀ line, op ≠ .coll line) (hb : op ≠ .lbar)
    (w : s.unitBegins h (bitsOf i) u (fun _ => op) l) :
    let c := h.core.val
    let ins := s.issued h (bitsOf i) fun _ => op
    let g := runOp {} (s.begunState h (bitsOf i) u fun _ => op) l c ins
    (g.stop = none → g.fly = true → (g.halt = none ∨ ∃ e, g.halt = some e ∧ e.isHeld = true) →
      exec i s = .next ((s.ownedDrain (g.flies c u ins)).sendFlits s.out.length)) ∧
    (∀ e, g.stop = none → g.fly = true → g.halt = some e → e.isHeld = false →
      exec i s = .next (s.after ((g.flies c u ins).haltOn l e (some (c, ins.pc)) 0 0))) ∧
    (g.stop = none → g.fly = false → g.mute = true → exec i s = .next (s.after (g.s.orFlags c g.flags))) ∧
    ∀ info, g.stop = some info → exec i s = .next (s.after (((g.s.orFlags c g.flags).applyMarks g.marks).stop l info)) := by
  intro c ins g
  rw [he, State.issueRes_begins w hl hb]
  refine ⟨fun hs hf hh => ?_, fun e hs hf hh hheld => ?_, fun hs hf hm => ?_, fun info hs => ?_⟩
  · rw [finishBegin_flies hs hf hh]; rfl
  · rw [finishBegin_halts hs hf hh hheld, finish_true]
  · rw [finishBegin_mute hs hf hm, finish_true]
  · rw [finishBegin_stops hs, finish_true]

end Begins

/-- Settles O14: each of the seven is an issue whose unit's answer is its meaning. -/
theorem unitRuns : Obligations.UnitRuns := by
  intro s h l d p m n k r imm td ta tb tp t3 u3 b rop
  refine ⟨exec_runs rfl ?_ ?_, exec_runs rfl ?_ ?_, fun hbt => exec_runs (exec_epi hbt) ?_ ?_, exec_runs rfl ?_ ?_, exec_runs rfl ?_ ?_,
    exec_runs rfl ?_ ?_, exec_runs rfl ?_ ?_⟩
  all_goals exact nofun

end Sys2Proof.Machine
end

section
/-!
What the instructions of one core do when they begin (04 R109, R112, R117, R118, 07 R194, R199): the core that a beginning instruction meets, the ways
in which it flies, completes or stops, and the effect of each on tiles, accumulators and stores.
-/

namespace Sys2Proof.Machine

variable {s : State} {h : Ih} {l : Launch} {bits : Dword} {u : CUnit} {op : UOp}

/-! ### The core that a beginning instruction meets -/

theorem Core.setUnitQ_self (k : Core) {q : List Issued} (hq : k.unitQ u = q) : k.setUnitQ u q = k := by
  subst hq; cases u <;> rfl

/-- An instruction that begins as it issues leaves its queue empty again: its core has taken its token and counted its issue. -/
theorem Core.unitStart_of_queue (k : Core) (h : Ih) (i : Issued) (hq : k.unitQ u = []) :
    (({ k.setUnitQ u (k.unitQ u ++ [i]) with pc := k.pc + 8, serialNo := k.serialNo + 1 } : Core).takeTok h.wt).setUnitQ u [] = k.unitStart h := by
  have hk := k.setUnitQ_self hq
  rw [← hk]
  cases u <;> cases hw : h.wt <;> simp only [Core.unitStart, hw] <;> rfl

theorem State.begun_onlyCore (w : s.unitBegins h bits u (fun _ => op) l) : s.onlyCore (s.begun h bits u op) h.core.val ((s.core h.core.val).unitStart h) := by
  have hq := State.onlyCore_trans (State.onlyCore_setCore _ s h.core.val)
    ((s.queuedState h bits u fun _ => op).onlyCore_modCore h.core.val fun k => (k.takeTok h.wt).setUnitQ u [])
  rw [State.queuedState, State.core_setCore_same, Core.unitStart_of_queue _ h _ w.2.1] at hq
  exact hq

/-! ### Flying, completing, stopping -/

theorem State.orFlags_zero (s : State) (c : Nat) : s.orFlags c 0 = s := if_pos rfl

section Exec
variable {i : Instr} (he : exec i s = s.issueRes h (bitsOf i) u fun _ => op) (hl : ∀ line, op ≠ .coll line) (hb : op ≠ .lbar)
  (w : s.unitBegins h (bitsOf i) u (fun _ => op) l)
include he hl hb w

/-- An instruction whose unit answers no more than a state flies in that state. -/
theorem exec_flies {v : State} (hg : runOp {} (s.begun h (bitsOf i) u op) l h.core.val (s.ins h (bitsOf i) op) = { s := v }) (ho : v.out = s.out)
    (hlost : v.hbm.ownedLost = s.hbm.ownedLost) :
    exec i s = .next (v.modCore h.core.val fun k => k.flying (s.ins h (bitsOf i) op) u) := by
  have hfly := (exec_runs he hl hb w).1
  rw [hg] at hfly
  have hflies : ({ s := v } : Began).flies h.core.val u (s.ins h (bitsOf i) op) = v.modCore h.core.val fun k => k.flying (s.ins h (bitsOf i) op) u := rfl
  have hdrain := State.ownedDrain_same s (v.modCore h.core.val fun k => k.flying (s.ins h (bitsOf i) op) u) hlost
  have hsend := State.sendFlits_self s (v.modCore h.core.val fun k => k.flying (s.ins h (bitsOf i) op) u) ho
  rw [hfly rfl rfl (.inl rfl), hflies, hdrain, hsend]

/-- A violation stops the queue in the state in which the instruction began. -/
theorem exec_stops {code : Code} (hg : runOp {} (s.begun h (bitsOf i) u op) l h.core.val (s.ins h (bitsOf i) op) =
      .error (s.begun h (bitsOf i) u op) ((s.ins h (bitsOf i) op).info h.core.val) code) :
    exec i s = .next (s.after ((s.begun h (bitsOf i) u op).stop l { (s.ins h (bitsOf i) op).info h.core.val with code := code })) := by
  have hstop := (exec_runs he hl hb w).2.2.2
  rw [hg] at hstop
  rw [hstop _ rfl]
  rfl

end Exec

/-- An instruction that completes as it begins, with its signal. -/
theorem State.issue_ends (w : s.unitBegins h bits u (fun _ => op) l) (hl : ∀ line, op ≠ .coll line) (hb : op ≠ .lbar) {v : State} {k : Core}
    (hg : runOp {} (s.begun h bits u op) l h.core.val (s.ins h bits op) = { s := v, fly := false }) (hv : s.onlyCore v h.core.val k)
    (hroom : k.sigRoom h.sg) : ∃ t, s.issue h bits u (fun _ => op) = (t, false) ∧ s.onlyCore t h.core.val (k.giveTok h.sg) := by
  obtain ⟨t, ht, ho⟩ := v.signalOpt_room l h.core.val h.sg ((s.ins h bits op).info h.core.val) (by rw [hv.2.1]; exact hroom)
  rw [hv.2.1] at ho
  refine ⟨t, ?_, State.onlyCore_trans hv ho⟩
  rw [s.issue_begins h l bits u _ w hl hb]
  change finishBegin l h.core.val u (s.ins h bits op) (runOp {} (s.begun h bits u op) l h.core.val (s.ins h bits op)) = _
  rw [hg, finishBegin_ends rfl rfl rfl, State.orFlags_zero]
  exact ht

theorem exec_ends {i : Instr} (he : exec i s = s.issueRes h (bitsOf i) u fun _ => op) (hl : ∀ line, op ≠ .coll line) (hb : op ≠ .lbar)
    (w : s.unitBegins h (bitsOf i) u (fun _ => op) l) {v : State} {k : Core}
    (hg : runOp {} (s.begun h (bitsOf i) u op) l h.core.val (s.ins h (bitsOf i) op) = { s := v, fly := false }) (hv : s.onlyCore v h.core.val k)
    (hroom : k.sigRoom h.sg) : ∃ t, exec i s = .next t ∧ s.onlyCore t h.core.val (k.giveTok h.sg) := by
  obtain ⟨t, ht, ho⟩ := State.issue_ends w hl hb hg hv hroom
  refine ⟨t, ?_, ho⟩
  rw [he, State.issueRes, ht]
  exact finish_false s t (State.onlyCore_out ho) (by rw [ho.1])

/-! ### VEC instructions -/

/-- The busy count of a VEC instruction changes the physical cores only, and by nothing that the logical cores hold. -/
theorem State.vecGroups_withCores (s : State) (cs : Sparse Core) (c n : Nat) :
    ({ s with cores := cs } : State).vecGroups c n = { s with cores := cs, pcores := (s.vecGroups c n).pcores } := by
  simp only [State.vecGroups, State.countOn]
  change (match s.physOf c with | some i => _ | none => _) = _
  cases s.physOf c <;> rfl

/-- A VEC instruction that writes a core flies; the core's physical core counts four groups more. -/
theorem exec_vec {i : Instr} (he : exec i s = s.issueRes h (bitsOf i) .vec fun _ => op) (hl : ∀ line, op ≠ .coll line) (hb : op ≠ .lbar)
    (w : s.unitBegins h (bitsOf i) .vec (fun _ => op) l) {k : Core}
    (hg : runOp {} (s.begun h (bitsOf i) .vec op) l h.core.val (s.ins h (bitsOf i) op) = vecDone (s.begun h (bitsOf i) .vec op) h.core.val k 0 none) :
    ∃ t, exec i s = .next t ∧ s.onlyVec t h.core.val (k.flying (s.ins h (bitsOf i) op) .vec) := by
  have hset := State.onlyCore_trans (State.begun_onlyCore w) (State.onlyCore_setCore k _ h.core.val)
  have hv := State.vecGroups_withCores s ((s.begun h (bitsOf i) .vec op).setCore h.core.val k).cores h.core.val 4
  rw [← hset.1] at hv
  refine ⟨_, exec_flies he hl hb w hg (by rw [hv]) (by rw [hv]), ?_⟩
  have hcore (j : Nat) : (((s.begun h (bitsOf i) .vec op).setCore h.core.val k).vecGroups h.core.val 4).core j =
      ((s.begun h (bitsOf i) .vec op).setCore h.core.val k).core j := by rw [hv]; rfl
  refine ⟨by rw [State.modCore, hv]; rfl, ?_, fun j hj => ?_⟩
  · rw [State.core_modCore_same, hcore, hset.2.1]
  · rw [State.core_modCore_other _ _ _ _ hj, hcore, hset.2.2 j hj]

/-! ### Tiles -/

section Tiles
variable (k : Core)

@[simp] theorem Core.tileWords_unitStart (h : Ih) (t : BitVec 6) : (k.unitStart h).tileWords t = k.tileWords t := by rw [Core.unitStart_frame]; rfl
@[simp] theorem Core.tileIsI32_unitStart (h : Ih) (t : BitVec 6) : (k.unitStart h).tileIsI32 t = k.tileIsI32 t := by rw [Core.unitStart_frame]; rfl
@[simp] theorem Core.accIsI32_unitStart (h : Ih) (t : Nat) : (k.unitStart h).accIsI32 t = k.accI32.getLsbD t := by rw [Core.unitStart_frame]; rfl
@[simp] theorem Core.acc_unitStart (h : Ih) : (k.unitStart h).acc = k.acc := by rw [Core.unitStart_frame]
@[simp] theorem Core.accI32_unitStart (h : Ih) : (k.unitStart h).accI32 = k.accI32 := by rw [Core.unitStart_frame]
@[simp] theorem Core.length_tileWords (t : BitVec 6) : (k.tileWords t).length = 1024 := by simp [Core.tileWords, sread]

/-- A bit set or cleared in a word of tags. -/
theorem getLsbD_tag {n : Nat} (m : BitVec n) (t x : Nat) (on : Bool) (hx : x < n) :
    (if on then m ||| (1#n <<< t) else m &&& ~~~(1#n <<< t)).getLsbD x = if x = t then on else m.getLsbD x := by
  have hbit : (1#n <<< t).getLsbD x = decide (x = t) := by
    change (BitVec.twoPow n t).getLsbD x = _
    rw [BitVec.getLsbD_twoPow, ← Bool.decide_and, decide_eq_decide]
    omega
  generalize 1#n <<< t = b at hbit ⊢
  rcases eq_or_ne x t with rfl | ht <;> cases on <;> simp_all [-BitVec.getLsbD_eq_getElem]

/-- A tile that was written reads as written, with its type. -/
theorem Core.tileWords_setTile_same (t : BitVec 6) {ws : List Word} (isI : Bool) (hlen : ws.length = 1024) : (k.setTile t ws isI).tileWords t = ws := by
  have hread := sread_swrite 0 k.tile (1024 * t.toNat) ws
  rwa [hlen] at hread

theorem Core.tileWords_setTile_other {t x : BitVec 6} {ws : List Word} (isI : Bool) (hlen : ws.length = 1024) (hx : x ≠ t) :
    (k.setTile t ws isI).tileWords x = k.tileWords x := by
  have hne : x.toNat ≠ t.toNat := fun e => hx (BitVec.eq_of_toNat_eq e)
  exact sread_swrite_other 0 k.tile (1024 * t.toNat) (1024 * x.toNat) 1024 ws (by omega)

theorem Core.tileIsI32_setTile (t x : BitVec 6) (ws : List Word) (isI : Bool) :
    (k.setTile t ws isI).tileIsI32 x = if x = t then isI else k.tileIsI32 x := by
  simp only [Core.tileIsI32, Core.setTile, getLsbD_tag _ _ _ isI x.isLt, BitVec.toNat_inj]

end Tiles

/-- A VEC instruction that writes one tile whole flies, and every other tile stays (07 R199). -/
theorem exec_moves {i : Instr} (he : exec i s = s.issueRes h (bitsOf i) .vec fun _ => op) (hl : ∀ line, op ≠ .coll line) (hb : op ≠ .lbar)
    (w : s.unitBegins h (bitsOf i) .vec (fun _ => op) l) {td : BitVec 6} {ws : List Word} {isI : Bool} (hlen : ws.length = 1024)
    (hg : runOp {} (s.begun h (bitsOf i) .vec op) l h.core.val (s.ins h (bitsOf i) op) =
      vecDone (s.begun h (bitsOf i) .vec op) h.core.val (((s.core h.core.val).unitStart h).setTile td ws isI) 0 none) :
    ∃ t, exec i s = .next t ∧
      s.onlyVec t h.core.val ((((s.core h.core.val).unitStart h).setTile td ws isI).flying (s.ins h (bitsOf i) op) .vec) ∧
      (t.core h.core.val).tileWords td = ws ∧ (t.core h.core.val).tileIsI32 td = isI ∧
      ∀ x, x ≠ td → (t.core h.core.val).tileWords x = (s.core h.core.val).tileWords x ∧
        (t.core h.core.val).tileIsI32 x = (s.core h.core.val).tileIsI32 x := by
  obtain ⟨t, ht, ho⟩ := exec_vec he hl hb w hg
  have hwords (x : BitVec 6) : (t.core h.core.val).tileWords x = (((s.core h.core.val).unitStart h).setTile td ws isI).tileWords x := by rw [ho.2.1]; rfl
  have htype (x : BitVec 6) : (t.core h.core.val).tileIsI32 x = (((s.core h.core.val).unitStart h).setTile td ws isI).tileIsI32 x := by rw [ho.2.1]; rfl
  refine ⟨t, ht, ho, ?_, ?_, fun x hx => ⟨?_, ?_⟩⟩
  · rw [hwords, Core.tileWords_setTile_same _ _ _ hlen]
  · rw [htype, Core.tileIsI32_setTile, if_pos rfl]
  · rw [hwords, Core.tileWords_setTile_other _ _ hlen hx, Core.tileWords_unitStart]
  · rw [htype, Core.tileIsI32_setTile, if_neg hx, Core.tileIsI32_unitStart]

/-! ### Writes of many keys -/

section Scatter
variable {α β : Type} [DecidableEq α] (d : α) (key : β → Nat)

/-- A key that no entry names reads as before. -/
theorem sget_scatter_other (es : List (α × β)) (t : Sparse α) (x : Nat) (hx : ∀ e ∈ es, key e.2 ≠ x) :
    sget d (es.foldl (fun a e => sset d a (key e.2) e.1) t) x = sget d t x := by
  induction es generalizing t with
  | nil => rfl
  | cons e es ih =>
    rw [List.foldl_cons, ih _ fun f hf => hx f (List.mem_cons_of_mem _ hf), sget_sset, if_neg (hx e List.mem_cons_self)]

/-- A key that one entry names reads that entry's value. -/
theorem sget_scatter (es : List (α × β)) (t : Sparse α) {e : α × β} (he : e ∈ es) (hk : (es.map fun f => key f.2).Nodup) :
    sget d (es.foldl (fun a e => sset d a (key e.2) e.1) t) (key e.2) = e.1 := by
  induction es generalizing t with
  | nil => exact absurd he List.not_mem_nil
  | cons f es ih =>
    obtain ⟨hf, hes⟩ := List.nodup_cons.1 hk
    rcases List.mem_cons.1 he with rfl | he
    · rw [List.foldl_cons, sget_scatter_other d key es _ _ fun g hg hgf => hf (List.mem_map.2 ⟨g, hg, hgf⟩), sget_sset_same]
    · exact ih _ he hes

end Scatter

/-! ### Moves of tiles (04 R109, 07 R199) -/

/-- The positions of a block have keys of their own. -/
theorem blockKey_inj {tile : Nat} {rb cb : BitVec 2} {n m : Nat} (hk : blockKey tile rb.toNat cb.toNat n = blockKey tile rb.toNat cb.toNat m) : n = m := by
  simp only [blockKey, accKey, tileRow, tileCol] at hk
  have := cb.isLt
  omega

/-- The words of an accumulator after a tile's words stand in one of its blocks. -/
def blockWritten (acc : Sparse Word) (tile : BitVec 3) (rb cb : BitVec 2) (ws : List Word) : Sparse Word :=
  (ws.zip (List.range 1024)).foldl (fun a e => sset 0 a (blockKey tile.toNat rb.toNat cb.toNat e.2) e.1) acc

theorem sget_blockWritten (acc : Sparse Word) (tile : BitVec 3) (rb cb : BitVec 2) {ws : List Word} (hlen : ws.length = 1024) {n : Nat} (hn : n < 1024) :
    sget 0 (blockWritten acc tile rb cb ws) (blockKey tile.toNat rb.toNat cb.toNat n) = ws.getD n 0 := by
  have hmem : (ws.getD n 0, n) ∈ ws.zip (List.range 1024) := by
    refine List.mem_iff_getElem.2 ⟨n, by rw [List.length_zip, hlen, List.length_range]; omega, ?_⟩
    rw [List.getElem_zip, List.getElem_range, List.getD_eq_getElem _ _ (by omega)]
  refine sget_scatter 0 (blockKey tile.toNat rb.toNat cb.toNat) (ws.zip (List.range 1024)) acc hmem ?_
  have hkeys : ((ws.zip (List.range 1024)).map fun e => blockKey tile.toNat rb.toNat cb.toNat e.2) =
      (List.range 1024).map (blockKey tile.toNat rb.toNat cb.toNat) := by
    have hsnd := List.map_snd_zip (l₁ := ws) (l₂ := List.range 1024) (by rw [hlen, List.length_range])
    conv_rhs => rw [← hsnd]
    rw [List.map_map]
    rfl
  rw [hkeys]
  exact List.nodup_range.map fun _ _ he => blockKey_inj he

theorem sget_blockWritten_other (acc : Sparse Word) (tile : BitVec 3) (rb cb : BitVec 2) (ws : List Word) {a : Nat}
    (ha : ∀ n, n < 1024 → a ≠ blockKey tile.toNat rb.toNat cb.toNat n) : sget 0 (blockWritten acc tile rb cb ws) a = sget 0 acc a :=
  sget_scatter_other 0 _ _ acc a fun _ he hka => ha _ (List.mem_range.1 (List.of_mem_zip he).2) hka.symm

/-- Settles O15: three of the moves write one tile whole, and VACCW scatters one tile over a block. -/
theorem tileMoves : Obligations.TileMoves := by
  intro s h l td ta r tile rb cb c k key isI moves
  refine ⟨fun w => ?_, fun w => ?_, fun w => ?_, ?_⟩
  · refine exec_moves (op := .vmov td ta) rfl nofun nofun w (k.length_tileWords ta) ?_
    change runVmov td ta (s.begun h _ .vec _) l c (s.ins h (bitsOf (.vmov h td ta)) (.vmov td ta)) = _
    simp only [runVmov, (State.begun_onlyCore w).2.1, Core.tileWords_unitStart, Core.tileIsI32_unitStart, c, k]
  · refine exec_moves (op := .vfill td (k.rs r)) rfl nofun nofun w List.length_replicate ?_
    change runVfill td (k.rs r) (s.begun h _ .vec _) l c (s.ins h (bitsOf (.vfill h td r)) (.vfill td (k.rs r))) = _
    simp only [runVfill, (State.begun_onlyCore w).2.1, c]
  · refine exec_moves (op := .vaccr td tile rb cb) rfl nofun nofun w (by simp) ?_
    change runVaccr td tile rb cb (s.begun h _ .vec _) l c (s.ins h (bitsOf (.vaccr h td tile rb cb)) (.vaccr td tile rb cb)) = _
    simp only [runVaccr, (State.begun_onlyCore w).2.1, Core.acc_unitStart, Core.accIsI32_unitStart, c, k, isI]
    rfl
  · intro i op w
    have hb := (State.begun_onlyCore w).2.1
    refine ⟨fun htype => ?_, fun htype => ?_⟩
    · obtain ⟨t, ht, ho⟩ := exec_vec (op := op) (k := { k.unitStart h with acc := blockWritten k.acc tile rb cb (k.tileWords td) }) rfl nofun nofun w (by
        change runVaccw td tile rb cb (s.begun h _ .vec op) l c (s.ins h (bitsOf i) op) = _
        simp only [runVaccw, hb, c]
        simp only [Core.tileWords_unitStart, Core.tileIsI32_unitStart, Core.acc_unitStart, Core.accIsI32_unitStart]
        rw [if_neg (by simpa using htype)]
        rfl)
      exact ⟨t, _, ht, ho, fun n hn => sget_blockWritten _ tile rb cb (k.length_tileWords td) hn,
        fun a ha => sget_blockWritten_other _ tile rb cb _ ha⟩
    · refine exec_stops (op := op) rfl nofun nofun w ?_
      change runVaccw td tile rb cb (s.begun h _ .vec op) l c (s.ins h (bitsOf i) op) = _
      simp only [runVaccw, hb, c]
      simp only [Core.tileIsI32_unitStart, Core.accIsI32_unitStart]
      exact if_pos (by simpa using htype)

/-! ### Loads and stores of tiles (04 R109, 07 R199) -/

/-- A part of what was read is the read of that part. -/
theorem sread_part {α : Type} (d : α) (t : Sparse α) (a m : Nat) {b n : Nat} (hbn : b + n ≤ m) :
    ((sread d t a m).drop b).take n = sread d t (a + b) n := by
  apply List.ext_getElem
  · simp [sread]; omega
  · intro i h1 h2
    simp only [sread, List.length_map, List.length_range] at h2
    simp [sread, Nat.add_assoc]

theorem length_wordBytes (ws : List Word) : (wordBytes ws).length = 4 * ws.length := by
  induction ws with
  | nil => rfl
  | cons w ws ih =>
    rw [wordBytes, List.map_cons, List.flatten_cons, List.length_append, Laws.leBytes_length]
    rw [wordBytes] at ih
    simp only [ih, List.length_cons]
    omega

@[simp] theorem Core.ostRead_flying (k : Core) (i : Issued) (u : CUnit) (a n : Nat) : (k.flying i u).ostRead a n = k.ostRead a n := rfl

theorem tileOutside_iff {off w : Nat} : tileOutside off w = true ↔ ¬(off % 64 = 0 ∧ off + 1024 * w ≤ 0x300000) := by
  rw [tileOutside, Bool.or_eq_true, bne_iff_ne, decide_eq_true_eq, ostSize]
  omega

/-- Settles O16: VLD reads its elements where the tile's bytes stand, VST writes the tile's bytes, and a tile outside the store stops both. -/
theorem tileMemory : Obligations.TileMemory := by
  intro s h l tv fmt uns r imm c k f n off inside ld st lop sop
  refine ⟨fun w hf huns => ?_, fun w huns hf => ?_⟩
  · have hcore := (State.begun_onlyCore w).2.1
    have hfmt : (uns && f != 2 && f != 5) = false := by
      cases hu : uns with
      | false => rfl
      | true => rcases huns hu with h2 | h5 <;> simp [*]
    have hrun : runOp {} (s.begun h (bitsOf ld) .vec lop) l c (s.ins h (bitsOf ld) lop) =
        if tileOutside off n then .error (s.begun h (bitsOf ld) .vec lop) ((s.ins h (bitsOf ld) lop).info c) eLocalBound
        else vecDone (s.begun h (bitsOf ld) .vec lop) c ((k.unitStart h).setTile tv
          ((List.range 1024).map fun i => vldElem f uns (elemAt (k.ostRead off (1024 * n)) n i)) (fmtIsInt f)) 0 none := by
      change runVld tv fmt uns off (s.begun h (bitsOf ld) .vec lop) l c (s.ins h (bitsOf ld) lop) = _
      simp only [runVld, c, hcore]
      rw [if_neg (by omega : ¬fmt.toNat ≥ 8), if_neg (by simpa using hfmt)]
      simp only [Core.ostRead_unitStart]
      rfl
    refine ⟨fun hin => ?_, fun hout => ?_⟩
    · rw [if_neg (fun hb => tileOutside_iff.1 hb hin)] at hrun
      obtain ⟨t, ht, ho⟩ := exec_vec (op := lop) rfl nofun nofun w hrun
      have helems : (List.range 1024).map (fun i => vldElem f uns (elemAt (k.ostRead off (1024 * n)) n i)) =
          (List.range 1024).map fun i => vldElem f uns (.ofNat 32 (leNat (k.ostRead (off + n * i) n))) := by
        refine List.map_congr_left fun i hi => ?_
        have hpart := sread_part 0 k.ost off (1024 * n) (b := n * i) (n := n) (by
          have := List.mem_range.1 hi
          nlinarith)
        rw [elemAt, Core.ostRead, hpart]
        rfl
      rw [helems] at ho
      exact ⟨t, ht, ho⟩
    · rw [if_pos (tileOutside_iff.2 hout)] at hrun
      exact exec_stops (op := lop) rfl nofun nofun w hrun
  · have hcore := (State.begun_onlyCore w).2.1
    have hrun : runOp {} (s.begun h (bitsOf st) .vec sop) l c (s.ins h (bitsOf st) sop) =
        if tileOutside off 4 then .error (s.begun h (bitsOf st) .vec sop) ((s.ins h (bitsOf st) sop).info c) eLocalBound
        else vecDone (s.begun h (bitsOf st) .vec sop) c ((k.unitStart h).ostWrite off (wordBytes (k.tileWords tv))) 0 none := by
      change runVst tv fmt uns off (s.begun h (bitsOf st) .vec sop) l c (s.ins h (bitsOf st) sop) = _
      simp only [runVst, c, hcore, Core.tileWords_unitStart, Core.tileIsI32_unitStart]
      rw [if_neg (by omega : ¬fmt.toNat ≥ 8), if_neg (by simp [huns]; omega), if_neg]
      rcases hf with ⟨h6, ht⟩ | ⟨h7, ht⟩
      · simp only [f] at h6; simp [h6, show (s.core h.core.val).tileIsI32 tv = false from ht]
      · simp only [f] at h7; simp [h7, show (s.core h.core.val).tileIsI32 tv = true from ht]
    refine ⟨fun hin => ?_, fun hout => ?_⟩
    · rw [if_neg (fun hb => tileOutside_iff.1 hb hin)] at hrun
      obtain ⟨t, ht, ho⟩ := exec_vec (op := sop) rfl nofun nofun w hrun
      have hlen : (wordBytes (k.tileWords tv)).length = 4096 := by rw [length_wordBytes, Core.length_tileWords]
      have hread (a n : Nat) : (t.core c).ostRead a n = ((k.unitStart h).ostWrite off (wordBytes (k.tileWords tv))).ostRead a n := by
        rw [ho.2.1, Core.ostRead_flying]
      refine ⟨t, ht, ho, ?_, fun a n ha => ?_⟩
      · rw [hread, ← hlen, Core.ostRead_ostWrite]
      · rw [hread, Core.ostRead_ostWrite_other _ off a n _ (by rwa [hlen]), Core.ostRead_unitStart]
    · rw [if_pos (tileOutside_iff.2 hout)] at hrun
      exact exec_stops (op := sop) rfl nofun nofun w hrun

end Sys2Proof.Machine
end

section
/-!
ACCINIT (04 R109), the instructions of the SYN unit (04 R112, R117, R118, R120), and what ends a wait (04 R113, R115, R116).
-/

namespace Sys2Proof.Machine

variable {s : State} {h : Ih} {l : Launch} {bits : Dword} {u : CUnit} {op : UOp}

/-! ### ACCINIT -/

theorem sget_sclear {α : Type} (d : α) (t : Sparse α) (k n i : Nat) : sget d (sclear t k n) i = if k ≤ i ∧ i < k + n then d else sget d t i := by
  induction t with
  | nil => simp [sclear]
  | cons e t ih =>
    obtain ⟨j, w⟩ := e
    simp only [sclear] at ih
    by_cases hj : k ≤ j ∧ j < k + n
    · rw [sclear, List.filter_cons_of_neg (by simp [hj]), ih]
      by_cases hi : k ≤ i ∧ i < k + n
      · rw [if_pos hi, if_pos hi]
      · have hne : j ≠ i := fun e => hi (e ▸ hj)
        rw [if_neg hi, if_neg hi, sget, if_neg hne]
    · rw [sclear, List.filter_cons_of_pos (by simpa only [Bool.not_eq_true', ← Bool.not_eq_true, Bool.and_eq_true, decide_eq_true_eq] using hj), sget, ih, sget]
      by_cases hji : j = i
      · subst hji; simp [hj]
      · simp only [hji, if_false]

/-- One tile of an ACCINIT. -/
def Core.clearTile (mask : BitVec 8) (isI : Bool) (k : Core) (t : Nat) : Core :=
  if mask.getLsbD t then { k.tagAcc t isI with acc := sclear k.acc (16384 * t) 16384 } else k

theorem Core.sget_acc_clearTile (mask : BitVec 8) (isI : Bool) (k : Core) (t a : Nat) :
    sget 0 (k.clearTile mask isI t).acc a = if a / 16384 = t ∧ mask.getLsbD t = true then 0 else sget 0 k.acc a := by
  rw [Core.clearTile]
  split
  · next hm =>
    rw [sget_sclear]
    exact if_congr (by simp only [hm, and_true]; omega) rfl rfl
  · next hm => rw [if_neg fun h => hm h.2]

theorem Core.accI32_clearTile (mask : BitVec 8) (isI : Bool) (k : Core) (t : Nat) {n : Nat} (hn : n < 8) :
    (k.clearTile mask isI t).accI32.getLsbD n = if n = t ∧ mask.getLsbD t = true then isI else k.accI32.getLsbD n := by
  rw [Core.clearTile]
  split
  · next hm =>
    refine (getLsbD_tag k.accI32 t n isI hn).trans (if_congr ?_ rfl rfl)
    simp only [hm, and_true]
  · next hm => rw [if_neg fun h => hm h.2]

theorem Core.clearTile_frame (mask : BitVec 8) (isI : Bool) (k : Core) (t : Nat) :
    k.clearTile mask isI t = { k with acc := (k.clearTile mask isI t).acc, accI32 := (k.clearTile mask isI t).accI32 } := by
  simp only [Core.clearTile]
  split <;> rfl

/-- The tiles of a list that the mask names hold +0. -/
theorem Core.sget_acc_clearTiles (mask : BitVec 8) (isI : Bool) (ts : List Nat) (k : Core) (a : Nat) :
    sget 0 (ts.foldl (Core.clearTile mask isI) k).acc a = if a / 16384 ∈ ts ∧ mask.getLsbD (a / 16384) = true then 0 else sget 0 k.acc a := by
  induction ts generalizing k with
  | nil => simp
  | cons t ts ih =>
    rw [List.foldl_cons, ih, Core.sget_acc_clearTile]
    by_cases ht : a / 16384 = t <;> by_cases hm : mask.getLsbD (a / 16384) = true <;> simp_all

/-- They have their tag. -/
theorem Core.accI32_clearTiles (mask : BitVec 8) (isI : Bool) (ts : List Nat) (k : Core) {n : Nat} (hn : n < 8) :
    (ts.foldl (Core.clearTile mask isI) k).accI32.getLsbD n = if n ∈ ts ∧ mask.getLsbD n = true then isI else k.accI32.getLsbD n := by
  induction ts generalizing k with
  | nil => simp
  | cons t ts ih =>
    rw [List.foldl_cons, ih, Core.accI32_clearTile _ _ _ _ hn]
    by_cases ht : n = t <;> by_cases hm : mask.getLsbD n = true <;> simp_all

theorem Core.clearTiles_frame (mask : BitVec 8) (isI : Bool) (ts : List Nat) (k : Core) : ts.foldl (Core.clearTile mask isI) k =
    { k with acc := (ts.foldl (Core.clearTile mask isI) k).acc, accI32 := (ts.foldl (Core.clearTile mask isI) k).accI32 } := by
  induction ts generalizing k with
  | nil => rfl
  | cons t ts ih =>
    rw [List.foldl_cons, ih, Core.clearTile_frame]

theorem Core.clearAcc_eq (k : Core) (mask : BitVec 8) (isI : Bool) : k.clearAcc mask isI = (List.range 8).foldl (Core.clearTile mask isI) k := rfl

/-- Settles O17: the accumulator is cleared tile by tile. -/
theorem accumulatorInit : Obligations.AccumulatorInit := by
  intro s h l mask i32 c k i w
  have hb := State.begun_onlyCore w
  have hv := State.onlyCore_trans hb ((s.begun h (bitsOf i) .mxu (.accinit mask i32)).onlyCore_modCore c fun k => k.clearAcc mask i32)
  rw [hb.2.1] at hv
  set ins := s.issued h (bitsOf i) fun _ => UOp.accinit mask i32 with hins
  have hfly := exec_flies (op := .accinit mask i32) rfl nofun nofun w (v := (s.begun h (bitsOf i) .mxu (.accinit mask i32)).modCore c fun k => k.clearAcc mask i32)
    rfl (State.onlyCore_out hv) (by rw [hv.1])
  have ht := State.onlyCore_trans hv (State.onlyCore_modCore _ c fun k => k.flying ins .mxu)
  rw [hv.2.1] at ht
  refine ⟨_, _, hfly, ht, fun a ha => ?_, fun n hn => ?_, ?_⟩
  · change sget 0 ((k.unitStart h).clearAcc mask i32).acc a = _
    rw [Core.clearAcc_eq, Core.sget_acc_clearTiles, Core.acc_unitStart]
    exact if_congr (and_iff_right (List.mem_range.2 (by omega))) rfl rfl
  · change ((k.unitStart h).clearAcc mask i32).accI32.getLsbD n = _
    rw [Core.clearAcc_eq, Core.accI32_clearTiles _ _ _ _ hn, Core.accI32_unitStart]
    exact if_congr (and_iff_right (List.mem_range.2 hn)) rfl rfl
  · exact congrArg (fun k : Core => k.flying ins .mxu) (Core.clearTiles_frame mask i32 (List.range 8) (k.unitStart h))

/-! ### Counters and beats -/

section Run
variable {c : Nat} {t : Fin 16} {n : BitVec 16} {m : Word} {i : Issued}

theorem runTsig_fits (hle : ((s.core c).tok t).toNat + n.toNat ≤ 65535) :
    runTsig t n s l c i = { s := s.modCore c fun k => k.setTok t (k.tok t + n), fly := false } := by
  have hsum : BitVec.ofNat 16 (((s.core c).tok t).toNat + n.toNat) = (s.core c).tok t + n := by
    rw [BitVec.ofNat_add, BitVec.ofNat_toNat, BitVec.ofNat_toNat, BitVec.setWidth_eq, BitVec.setWidth_eq]
  simp only [runTsig, State.signal, if_neg (Nat.not_lt.2 hle), hsum, Bool.false_eq_true, if_false, State.modCore]

theorem runTsig_over (hgt : ((s.core c).tok t).toNat + n.toNat > 65535) : runTsig t n s l c i = .error s (i.info c) eTokenOver := by
  simp only [runTsig, State.signal, if_pos hgt, if_true]

theorem runWaitbeat_begun (c : Nat) (i : Issued) (hm : m ≤ l.beat s.fab.cnt) : runWaitbeat m s l c i = { s := s, fly := false } := by
  simp only [runWaitbeat, hm, decide_true, Bool.not_true]

theorem runWaitbeat_early (c : Nat) (i : Issued) (hm : ¬m ≤ l.beat s.fab.cnt) : runWaitbeat m s l c i = { s := s } := by
  simp only [runWaitbeat, hm, decide_false, Bool.not_false]

theorem runBeatmark_ahead (hm : m = 0xFFFFFFFF ∨ ¬m < l.beat s.fab.cnt) : runBeatmark m s l c i =
    { s := s.modCore c fun k => { k with obligation := if m = 0xFFFFFFFF then none else some m }, fly := false } :=
  if_neg fun h => hm.elim h.1 fun hlt => hlt h.2

theorem runBeatmark_past (hm : m ≠ 0xFFFFFFFF ∧ m < l.beat s.fab.cnt) : runBeatmark m s l c i = .error s (i.info c) eBeatOrder := if_pos hm

end Run

/-- A TWAIT begins only while its counter, its token taken, holds what it takes (04 R112). -/
theorem State.twait_holds {x : Fin 16} {n : BitVec 16} (w : s.unitBegins h bits .syn (fun _ => .twait x n) l) :
    n.toNat ≤ (((s.core h.core.val).unitStart h).tok x).toNat := by
  have hready := w.2.2.2.1
  rw [State.headReady, Bool.and_eq_true] at hready
  have htok : (((s.queuedState h bits .syn fun _ => .twait x n).core h.core.val).takeTok h.wt).tok x = ((s.core h.core.val).unitStart h).tok x := by
    rw [State.queuedState, State.core_setCore_same]
    simp only [Core.unitStart]
    cases h.wt <;> rfl
  have hle := of_decide_eq_true hready.2
  rwa [← htok]

/-- Settles O18: what each of the four does with its core, in the state in which it begins. -/
theorem synchronization : Obligations.Synchronization := by
  intro s h l x n r imm c k b m now begins ends stops
  have hcore {i : Instr} {op : UOp} (w : begins i op) : (s.begun h (bitsOf i) .syn op).core c = b := (State.begun_onlyCore w).2.1
  have hmods {i : Instr} {op : UOp} (w : begins i op) (f : Core → Core) : s.onlyCore ((s.begun h (bitsOf i) .syn op).modCore c f) c (f b) := by
    have ho := State.onlyCore_trans (State.begun_onlyCore w) (State.onlyCore_modCore _ c f)
    rwa [hcore w] at ho
  refine ⟨fun w => ⟨fun hle hroom => ?_, fun hgt => ?_⟩, fun w => ⟨State.twait_holds w, fun hroom => ?_⟩, fun w => ⟨fun hm hroom => ?_, fun hm => ?_⟩,
    fun w => ⟨fun hm hroom => ?_, fun hm => ?_⟩⟩
  · exact exec_ends (op := .tsig x n) rfl nofun nofun w (runTsig_fits (by rwa [hcore w])) (hmods w fun k => k.setTok x (k.tok x + n)) hroom
  · exact exec_stops (op := .tsig x n) rfl nofun nofun w (runTsig_over (by rwa [hcore w]))
  · exact exec_ends (op := .twait x n) rfl nofun nofun w rfl (hmods w fun k => k.setTok x (k.tok x - n)) hroom
  · exact exec_ends (op := .waitbeat m) rfl nofun nofun w (runWaitbeat_begun c (s.ins h (bitsOf (.waitbeat h r imm)) (.waitbeat m)) hm) (State.begun_onlyCore w) hroom
  · exact ⟨_, exec_flies (op := .waitbeat m) rfl nofun nofun w (runWaitbeat_early c (s.ins h (bitsOf (.waitbeat h r imm)) (.waitbeat m)) hm) rfl rfl, hmods w fun k => k.flying _ .syn⟩
  · obtain ⟨t, ht, ho⟩ := State.issue_ends (op := .beatmark m) w nofun nofun (runBeatmark_ahead hm) (hmods w _) hroom
    refine ⟨t, ?_, ho⟩
    rw [exec_beatmark, State.issue_operands, ht, finishAll_eq]
  · have hissue := s.issue_begins h l (bitsOf (.beatmark h r imm)) .syn (fun _ => .beatmark m) w nofun nofun
    have hrun : runOp {} (s.begun h (bitsOf (.beatmark h r imm)) .syn (.beatmark m)) l c (s.ins h (bitsOf (.beatmark h r imm)) (.beatmark m)) = _ :=
      runBeatmark_past hm
    change exec _ s = _
    rw [exec_beatmark, State.issue_operands, hissue, hrun, finishBegin_stops rfl, finishAll_eq]
    rfl

end Sys2Proof.Machine
end

section
/-!
The device barrier (04 R120), the heads of queues and flights (04 R100, R112, R113), and the limits of waits and of beats (04 R115, R116).
-/

namespace Sys2Proof.Machine

variable {s t : State} {h : Ih} {l : Launch} {bits : Dword} {u : CUnit} {op : UOp} {c : Nat}

/-! ### The device barrier -/

theorem State.enqueue_alone {op : Core → UOp} (hi : s.canIssue h.core.val = some l) (hq : (s.core h.core.val).unitQ u = []) :
    s.enqueue h bits u op = (s.queuedState h bits u op, true) := by
  simp only [State.enqueue, hi, hq, List.length_nil, List.isEmpty_nil]
  simp only [State.queuedState, State.issued, hq]
  rfl

/-- The core of an LBAR that has joined: it keeps the head of its queue. -/
def Core.joinedWith (k : Core) (i : Issued) : Core :=
  { k.takeTok i.wt with joined := k.joined + 1, qSyn := { i with wt := none, joinedBar := true, det := [] } :: k.qSyn.drop 1 }

/-- An LBAR whose wait has ended and that no detection meets joins, and the barrier may pass. -/
theorem State.joinBar_joins {i : Issued} (hnew : i.joinedBar = false) (hs : (s.core c).stopped = false) (hm : s.inTakeover c = false)
    (htok : (s.core c).tokOk i.wt = true) (hdone : (s.core c).allDoneBefore i.serial = true) (hdet : i.det = [])
    (hl : (s.launchOf l.qid).isNone = false) : s.joinBar l c i [] = (s.modCore c fun k => k.joinedWith i).passBarrier l := by
  simp only [State.joinBar, hnew, hs, hm, htok, hdone, hdet, hl, List.append_nil, State.detect_nil, Bool.not_true, Bool.or_self, Bool.false_eq_true,
    if_false, List.isEmpty_nil, Bool.or_false]
  rfl

/-- While a core runs that has not joined, the barrier is not passed. -/
theorem State.passBarrier_early {i : Nat} (hi : i < 64) (he : (s.core i).ended = false) (hj : (s.core i).joined ≤ s.barPassed) :
    s.passBarrier l = (s, false) := by
  have hall : ((List.range 64).all fun c => (s.core c).hasJoined (s.barPassed + 1)) = false := by
    simp only [List.all_eq_false, List.mem_range]
    exact ⟨i, hi, by simp only [Core.hasJoined, he, Bool.false_or, decide_eq_true_eq]; omega⟩
  simp only [State.passBarrier, hall, Bool.false_and, Bool.false_eq_true, if_false]

/-- What passing the barrier does at one core: an LBAR that has joined leaves its queue and completes. -/
def passCore (l : Launch) (r : State × Bool) (c : Nat) : State × Bool :=
  match (r.1.core c).barHead with
  | some i =>
    if (r.1.launchOf l.qid).isNone then r
    else
      let q := (r.1.modCore c fun k => { k with qSyn := k.qSyn.drop 1 }).signalOpt l c i.sg (i.info c)
      (q.1, r.2 || q.2)
  | none => r

theorem State.passBarrier_passes (hall : ∀ i, i < 64 → (s.core i).hasJoined (s.barPassed + 1) = true) (hc : c < 64)
    (hh : (s.core c).barHead.isSome = true) :
    s.passBarrier l = (List.range 64).foldl (passCore l) ({ s with barPassed := s.barPassed + 1 }, false) := by
  refine if_pos ?_
  rw [Bool.and_eq_true, List.all_eq_true, List.any_eq_true]
  exact ⟨fun i hi => hall i (List.mem_range.1 hi), c, List.mem_range.2 hc, hh⟩

theorem passCore_none (r : State × Bool) (hh : (r.1.core c).barHead = none) : passCore l r c = r := by simp only [passCore, hh]

theorem foldl_passCore_none (ns : List Nat) (r : State × Bool) (hh : ∀ i ∈ ns, (r.1.core i).barHead = none) : ns.foldl (passCore l) r = r := by
  induction ns with
  | nil => rfl
  | cons n ns ih =>
    rw [List.foldl_cons, passCore_none r (hh n List.mem_cons_self)]
    exact ih fun i hi => hh i (List.mem_cons_of_mem _ hi)

/-- One LBAR alone completes, and its head is gone. -/
theorem foldl_passCore_one (ns : List Nat) {v : State} (hc : c ∈ ns) (hother : ∀ i ∈ ns, i ≠ c → (s.core i).barHead = none)
    (hpass : passCore l (s, false) c = (v, false)) (hgone : ∀ i ∈ ns, (v.core i).barHead = none) : ns.foldl (passCore l) (s, false) = (v, false) := by
  induction ns with
  | nil => exact absurd hc List.not_mem_nil
  | cons n ns ih =>
    rw [List.foldl_cons]
    by_cases hn : n = c
    · rw [hn, hpass]
      exact foldl_passCore_none ns _ fun i hi => hgone i (List.mem_cons_of_mem _ hi)
    · rw [passCore_none (s, false) (hother n List.mem_cons_self hn)]
      exact ih ((List.mem_cons.1 hc).resolve_left (Ne.symm hn)) (fun i hi => hother i (List.mem_cons_of_mem _ hi))
        fun i hi => hgone i (List.mem_cons_of_mem _ hi)

theorem passCore_completes {i : Issued} {b : Bool} (hh : (s.core c).barHead = some i) (hl : (s.launchOf l.qid).isNone = false)
    (hs : (s.modCore c fun k => { k with qSyn := k.qSyn.drop 1 }).signalOpt l c i.sg (i.info c) = (t, b)) : passCore l (s, false) c = (t, b) := by
  simp only [passCore, hh, hl, Bool.false_eq_true, if_false, hs, Bool.false_or]

/-- The last LBAR to join is alone: it passes the barrier and completes, and nothing else changes. -/
theorem State.passBarrier_one {i : Issued} (hall : ∀ j, j < 64 → (s.core j).hasJoined (s.barPassed + 1) = true) (hc : c < 64)
    (hh : (s.core c).barHead = some i) (hone : (s.core c).qSyn = [i]) (hothers : ∀ j, j < 64 → j ≠ c → (s.core j).barHead = none)
    (hroom : (s.core c).sigRoom i.sg) (hl : (s.launchOf l.qid).isNone = false) :
    ∃ t, s.passBarrier l = (t, false) ∧
      ({ s with barPassed := s.barPassed + 1 } : State).onlyCore t c (({ s.core c with qSyn := [] } : Core).giveTok i.sg) := by
  set p : State := { s with barPassed := s.barPassed + 1 } with hp
  have hxo := p.onlyCore_modCore c fun k => { k with qSyn := k.qSyn.drop 1 }
  rw [show p.core c = s.core c from rfl, hone] at hxo
  obtain ⟨t, hsig, ht⟩ := (p.modCore c fun k => { k with qSyn := k.qSyn.drop 1 }).signalOpt_room l c i.sg (i.info c) (by rw [hxo.2.1]; exact hroom)
  rw [hxo.2.1] at ht
  have hto := State.onlyCore_trans hxo ht
  have hgone (j : Nat) (hlt : j < 64) : (t.core j).barHead = none := by
    by_cases hj : j = c
    · rw [hj, hto.2.1, Core.giveTok_frame]; rfl
    · rw [hto.2.2 j hj]; exact hothers j hlt hj
  refine ⟨t, ?_, hto⟩
  rw [State.passBarrier_passes hall hc (by rw [hh]; rfl)]
  exact foldl_passCore_one _ (List.mem_range.2 hc) (fun j hlt hj => hothers j (List.mem_range.1 hlt) hj) (passCore_completes hh hl hsig)
    fun j hlt => hgone j (List.mem_range.1 hlt)

/-- The core with an LBAR alone at the head of SYN, as the sequencer leaves it. -/
def Core.withLbar (k : Core) (i : Issued) : Core := { k with qSyn := [i], pc := k.pc + 8, serialNo := k.serialNo + 1 }

theorem Core.allDoneBefore_withLbar (k : Core) {i : Issued} (hq : k.qSyn = []) (hi : i.serial = k.serialNo) (hd : k.allDoneBefore k.serialNo = true) :
    (k.withLbar i).allDoneBefore i.serial = true := by
  simp only [Core.allDoneBefore, Core.queued, Core.withLbar, hq, hi, List.append_nil, List.all_append, Bool.and_eq_true] at hd ⊢
  exact ⟨⟨hd.1, by simp [hi]⟩, hd.2⟩

theorem Core.joinedWith_withLbar (k : Core) {i : Issued} (hw : i.wt = h.wt) (hdet : i.det = []) : (k.withLbar i).joinedWith i =
    { k.unitStart h with joined := k.joined + 1, qSyn := [{ i with wt := none, joinedBar := true }] } := by
  simp only [Core.joinedWith, Core.withLbar, Core.unitStart, hw, ← hdet]
  cases h.wt <;> rfl

/-- LBAR whose core has completed everything before it: its issue is its joining. -/
theorem State.issue_lbar (hi : s.canIssue h.core.val = some l) (hq : (s.core h.core.val).qSyn = []) (htok : (s.core h.core.val).tokOk h.wt = true)
    (hdet : h.det = []) (hdone : (s.core h.core.val).allDoneBefore (s.core h.core.val).serialNo = true) :
    ∃ v, s.issue h bits .syn (fun _ => .lbar) = v.passBarrier l ∧ s.onlyCore v h.core.val
      { (s.core h.core.val).unitStart h with
        joined := (s.core h.core.val).joined + 1, qSyn := [{ s.ins h bits .lbar with wt := none, joinedBar := true }] } := by
  obtain ⟨hrun, -, hstop, hmoved⟩ := s.canIssue_some l _ hi
  set q := s.queuedState h bits .syn fun _ => .lbar with hqdef
  have hcore : q.core h.core.val = (s.core h.core.val).withLbar (s.ins h bits .lbar) := by
    rw [hqdef, State.queuedState, State.core_setCore_same]
    change ({ s.core h.core.val with qSyn := (s.core h.core.val).qSyn ++ _, pc := _, serialNo := _ } : Core) = _
    rw [hq]
    rfl
  have hjoin : q.joinBar l h.core.val (s.ins h bits .lbar) [] =
      (q.modCore h.core.val fun k => k.joinedWith (s.ins h bits .lbar)).passBarrier l :=
    State.joinBar_joins rfl (by rw [hcore]; exact hstop) hmoved (by rw [hcore]; exact htok)
      (by rw [hcore]; exact Core.allDoneBefore_withLbar _ hq rfl hdone) hdet (s.launchOf_canIssue l _ hi)
  refine ⟨q.modCore h.core.val fun k => k.joinedWith (s.ins h bits .lbar), ?_, ?_⟩
  · have hhead : q.beginHead h.core.val .syn [] = q.joinBar l h.core.val (s.ins h bits .lbar) [] := by
      have hrunq : q.running = some l := hrun
      have hunit : (q.core h.core.val).unitQ .syn = [s.ins h bits .lbar] := by rw [hcore]; rfl
      simp only [State.beginHead, hrunq, hunit]
      rfl
    rw [State.issue, State.enqueue_alone (u := .syn) hi hq, if_pos rfl, ← hqdef, hhead, hjoin]
  · have ho := State.onlyCore_trans (State.onlyCore_setCore _ s h.core.val) (q.onlyCore_modCore h.core.val fun k => k.joinedWith (s.ins h bits .lbar))
    rw [hcore, Core.joinedWith_withLbar _ rfl hdet] at ho
    exact ho

/-- Settles O19: LBAR joins; with a core missing that is all, and when it is the last its LBAR alone completes. -/
theorem deviceBarrier : Obligations.DeviceBarrier := by
  intro s h l c k ins hi hq htok hdet hdone
  obtain ⟨v, hissue, hv⟩ := State.issue_lbar (bits := bitsOf (.lbar h)) hi hq htok hdet hdone
  have hexec : exec (.lbar h) s = finish s (v.passBarrier l) := by rw [← hissue]; rfl
  have hbar : v.barPassed = s.barPassed := by rw [hv.1]
  refine ⟨fun ⟨i, hlt, hne, he, hj⟩ => ⟨v, ?_, hv⟩, fun hothers hpassed hroom => ?_⟩
  · rw [hexec, State.passBarrier_early hlt (by rw [hv.2.2 i hne]; exact he) (by rw [hv.2.2 i hne, hbar]; exact hj)]
    exact finish_false s v (State.onlyCore_out hv) (by rw [hv.1])
  · have hhead : (v.core c).barHead = some { ins with wt := none, joinedBar := true } := by rw [hv.2.1]; rfl
    have hall (i : Nat) (hlt : i < 64) : (v.core i).hasJoined (v.barPassed + 1) = true := by
      by_cases hic : i = c
      · rw [hic, hv.2.1, Core.hasJoined, hbar]
        simp only [Bool.or_eq_true, decide_eq_true_eq]
        exact .inr (Nat.succ_le_succ hpassed)
      · rw [hv.2.2 i hic, Core.hasJoined, (hothers i hlt hic).1, Bool.true_or]
    have hone : (v.core c).qSyn = [{ ins with wt := none, joinedBar := true }] := by rw [hv.2.1]
    obtain ⟨t, hpass, ht⟩ := State.passBarrier_one (l := l) hall h.core.isLt hhead hone
      (fun i hlt hic => by rw [hv.2.2 i hic]; exact (hothers i hlt hic).2) (by rw [hv.2.1]; exact hroom)
      (by rw [hv.1]; exact s.launchOf_canIssue l _ hi)
    have hempty : ({ k.unitStart h with joined := k.joined + 1 } : Core).unitQ .syn = [] := by rw [Core.unitStart_frame]; exact hq
    refine ⟨t, ?_, ?_, ?_, fun i hic => ?_⟩
    · rw [hexec, hpass]
      have hout : v.out = s.out := State.onlyCore_out hv
      exact finish_false s t ((State.onlyCore_out ht).trans hout) (by rw [ht.1, hv.1])
    · rw [ht.1]
      exact congrArg (· + 1) hbar
    · rw [ht.2.1, hv.2.1, ← Core.setUnitQ_self _ hempty]
      rfl
    · rw [ht.2.2 i hic, ← hv.2.2 i hic]
      rfl

/-! ### Heads of queues and flights -/

/-- The launch that runs is accepted. -/
theorem State.launchOf_running (hr : s.running = some l) : (s.launchOf l.qid).isNone = false := by
  have hmem : l ∈ s.launches := by
    rw [State.running] at hr
    split at hr
    · next m hm =>
      split at hr
      · rw [← Option.some.inj hr]
        exact List.mem_of_find?_eq_some hm
      · exact absurd hr (by simp)
    · exact absurd hr (by simp)
  rw [State.launchOf, Option.isNone_eq_false_iff, List.find?_isSome]
  exact ⟨l, hmem, by simp⟩

/-- A head that is neither an LBAR nor a COLL begins as every unit's instructions do. -/
theorem State.beginHead_unit {i : Issued} {rest : List Issued} (hr : s.running = some l) (hq : (s.core c).unitQ u = i :: rest) (hb : i.op ≠ .lbar)
    (hc : ∀ line, i.op ≠ .coll line) (det : List Detection) : s.beginHead c u det = s.beginUnit c u det (runOp {}) := by
  simp only [State.beginHead, hr, hq]

/-- A head whose wait has ended and that nothing holds leaves its queue, and the state takes what its unit answers. -/
theorem State.beginUnit_ready {i : Issued} {rest : List Issued} {run : State → Launch → Nat → Issued → Began} (hr : s.running = some l)
    (hq : (s.core c).unitQ u = i :: rest) (hdet : i.det = []) (hs : (s.core c).stopped = false) (hm : s.inTakeover c = false)
    (hready : s.headReady (s.core c) i = true) (hlock : (s.core c).interlockOk i = true) : s.beginUnit c u [] run =
      finishBegin l c u i (run (s.modCore c fun k => (k.takeTok i.wt).setUnitQ u rest) l c i) := by
  have hi : ({ i with det := [] } : Issued) = i := by rw [← hdet]
  simp only [State.beginUnit, hr, hq, hs, hm, hready, hlock, hdet, List.append_nil, State.detect_nil, State.launchOf_running hr, Bool.not_true,
    Bool.or_self, Bool.false_eq_true, if_false, List.isEmpty_nil, Bool.or_false, hi]

theorem State.beginUnit_held {i : Issued} {rest : List Issued} {run : State → Launch → Nat → Issued → Began} (hr : s.running = some l)
    (hq : (s.core c).unitQ u = i :: rest)
    (hno : ¬((s.core c).stopped = false ∧ s.inTakeover c = false ∧ s.headReady (s.core c) i = true ∧ (s.core c).interlockOk i = true)) :
    s.beginUnit c u [] run = (s, false) := by
  have hheld : ((s.core c).stopped || s.inTakeover c || !s.headReady (s.core c) i || !(s.core c).interlockOk i) = true := by
    by_contra hn
    simp only [Bool.or_eq_true, Bool.not_eq_true', not_or, Bool.not_eq_true, Bool.not_eq_false] at hn
    exact hno ⟨hn.1.1.1, hn.1.1.2, hn.1.2, hn.2⟩
  simp only [State.beginUnit, hr, hq, hheld, if_true]

theorem exec_unitInstructionBegin (c : Fin 64) (u : CUnit) : exec (.unitInstructionBegin c u []) s = finishAll s (s.beginHead c.val u []).1 := rfl

/-- A flight that carries no marks ends with its flags and its signal. -/
theorem State.completeFlight_ends {f : Flight} (hm : f.marks = [])
    (hroom : ({ s.core c with flight := (s.core c).flight.filter fun g => g.ins.serial != f.ins.serial, flags := (s.core c).flags ||| f.flags } : Core).sigRoom
      f.ins.sg) : ∃ t, s.completeFlight l c f = (t, false) ∧ s.onlyCore t c
        (({ s.core c with flight := (s.core c).flight.filter fun g => g.ins.serial != f.ins.serial, flags := (s.core c).flags ||| f.flags } : Core).giveTok
          f.ins.sg) := by
  have hmod := s.onlyCore_modCore c fun k =>
    { k with flight := k.flight.filter fun g => g.ins.serial != f.ins.serial, flags := k.flags ||| f.flags }
  obtain ⟨t, hsig, ht⟩ := State.signalOpt_room _ l c f.ins.sg (f.ins.info c) (by rw [hmod.2.1]; exact hroom)
  rw [hmod.2.1] at ht
  refine ⟨t, ?_, State.onlyCore_trans hmod ht⟩
  simp only [State.completeFlight, hm, State.applyMarks, List.foldl_nil]
  rw [hsig]

/-- Settles O22: a head that is ready begins and any other stays, and a flight in the core ends as it should. -/
theorem headsAndFlights : Obligations.HeadsAndFlights := by
  refine ⟨fun s c u l i rest hr hq hdet hb hc => ⟨fun ⟨hs, hm, hready, hlock⟩ => ?_, fun hno => ?_⟩,
    fun s c n l f hr hf hend hhalt hm hmarks hroom => ?_⟩
  · rw [exec_unitInstructionBegin, State.beginHead_unit hr hq hb hc, State.beginUnit_ready hr hq hdet hs hm hready hlock, finishAll_eq]
  · rw [exec_unitInstructionBegin, State.beginHead_unit hr hq hb hc, State.beginUnit_held hr hq hno, finishAll_eq]
  · have hserial : f.ins.serial = n := by simpa using List.find?_some hf
    subst hserial
    obtain ⟨t, hdone, ht⟩ := State.completeFlight_ends (l := l) hmarks hroom
    refine ⟨t, ?_, ht⟩
    have hcomplete : s.completeSerial c.val f.ins.serial = (t, false) := by
      simp only [State.completeSerial, hr, hf, hend, hhalt, hm, Option.isSome_none, Bool.or_self, Bool.false_eq_true, if_false, hdone]
    rw [show exec (.instructionComplete c f.ins.serial) s = finish s (s.completeSerial c.val f.ins.serial) from rfl, hcomplete]
    exact finish_false s t (State.onlyCore_out ht) (by rw [ht.1])

/-! ### Limits -/

/-- Settles O23: each limit is one comparison, and before it the state stays. -/
theorem limits : Obligations.Limits := by
  refine ⟨fun s c u l i rest hl hs hq => ⟨fun hw hlim => ?_, fun hlim => ?_⟩, fun s l a hr ha => ⟨fun hlim => ?_, fun hlim => ?_⟩⟩
  · have hexp : s.expireWait c.val u = (s.stop l { i.info c.val with code := eWaitLimit, cause := .ofNat 5 (i.counter (s.core c.val)) }, true) := by
      simp only [State.expireWait, hl, hq, hs, hw, hlim, Option.isNone_none, decide_true, Bool.and_self, if_true]
    rw [show exec (.waitLimitExpiry c u) s = finish s (s.expireWait c.val u) from rfl, hexp, finish_true]
  · have hexp : s.expireWait c.val u = (s, false) := by
      simp only [State.expireWait, hl, hq, decide_eq_false (Nat.not_le.2 hlim), Bool.and_false, Bool.false_eq_true, if_false]
    rw [show exec (.waitLimitExpiry c u) s = finish s (s.expireWait c.val u) from rfl, hexp, finish_false s s rfl rfl]
  · have hrange : s.beatRange = (s.stop l { code := eBeatRange, kind := 8, detail := s.fab.cnt }, true) := by
      simp only [State.beatRange, hr, ha, ge_iff_le, if_pos hlim]
    rw [show exec .beatRangeExpiry s = finish s s.beatRange from rfl, hrange, finish_true]
  · have hrange : s.beatRange = (s, false) := by
      simp only [State.beatRange, hr, ha, ge_iff_le, if_neg (Nat.not_le.2 hlim)]
    rw [show exec .beatRangeExpiry s = finish s s.beatRange from rfl, hrange, finish_false s s rfl rfl]

end Sys2Proof.Machine
end

section
/-!
PROOFS about the beat: elections and the hand-over of the leader (11 R323), the announcements that go down the tree (R324, R326, R328).
-/

namespace Sys2Proof.Machine

variable {s t u : State}

/-! ### What a change of the live-link map leaves (11 R324-R326) -/

/-- From `s` to `t` the ports, the timing and what has left changed, and nothing else. -/
def State.OnlyTree (s t : State) : Prop :=
  t = { s with fab := { s.fab with ports := t.fab.ports, aLead := t.fab.aLead, horizon := t.fab.horizon }, out := t.out }

theorem State.OnlyTree.refl (s : State) : s.OnlyTree s := rfl

theorem State.OnlyTree.trans (h : s.OnlyTree t) (h' : t.OnlyTree u) : s.OnlyTree u :=
  Eq.trans h' (congrArg (fun v : State =>
    { v with fab := { v.fab with ports := u.fab.ports, aLead := u.fab.aLead, horizon := u.fab.horizon }, out := u.out }) h)

theorem State.retime_onlyTree (s : State) : s.OnlyTree s.retime := rfl

theorem State.mapChanged_onlyTree (s : State) : s.OnlyTree s.mapChanged := by
  have hports : s.OnlyTree (allPorts.foldl (fun t p =>
      if s.treeChildren.contains p then t else t.modPort p fun q => { q with childHold := none }) s) := by
    refine List.foldlRecOn (motive := s.OnlyTree) allPorts _ (.refl s) fun v hv p _ => ?_
    split
    · exact hv
    · exact hv.trans rfl
  simp only [State.mapChanged]
  refine .trans ?_ (State.retime_onlyTree _)
  split
  · exact hports.trans rfl
  · exact hports

/-- The beat tree depends on the neighbours over live links, on the leader and on the device's own id. -/
theorem State.bfs_congr (h : t.liveNbrs = s.liveNbrs) (fuel : Nat) (front : List Nat) (dist : Nat) (seen : List (Nat × Nat)) :
    t.bfs fuel front dist seen = s.bfs fuel front dist seen := by
  induction fuel generalizing front dist seen with
  | zero => rfl
  | succ fuel ih => simp only [State.bfs, h, ih]

theorem State.parentPort_congr (h : t.liveNbrs = s.liveNbrs) (ds : List (Nat × Nat)) (d : Nat) : t.parentPort ds d = s.parentPort ds d := by
  unfold State.parentPort
  rw [h]

theorem State.treeChildren_congr (h : t.liveNbrs = s.liveNbrs) (hd : t.devid = s.devid) (hl : t.fab.leader = s.fab.leader) :
    t.treeChildren = s.treeChildren := by
  simp only [State.treeChildren, State.children, State.distances, State.bfs_congr h, State.parentPort_congr h, h, hd, hl]
  rfl

/-! ### Elections (11 R323) -/

/-- An election under way at this device, said to its neighbours. -/
def State.saying (s : State) (e : BitVec 12 × Dword) : State :=
  ({ s with fab := { s.fab with election := some e, isLeader := false } } : State).symOn s.upPorts (.elect e.1 e.2)

/-- What an ELECT makes of an election under way: the lower id and the higher boundary. -/
def electMin (e : BitVec 12 × Dword) (id : BitVec 12) (b : Dword) : BitVec 12 × Dword :=
  (if id < e.1 then id else e.1, if e.2 < b then b else e.2)

theorem State.electIn_under_way {e : BitVec 12 × Dword} (he : s.fab.election = some e) (p : Fin 6) (id : BitVec 12) (b : Dword) :
    s.electIn p id b = if s.portUp p = false ∨ e = electMin e id b then s else s.saying (electMin e id b) := by
  simp only [State.electIn, he, Option.getD_some, Bool.not_eq_true', Option.some.injEq, electMin, State.saying]
  rfl

theorem State.electIn_down {p : Fin 6} (hp : s.portUp p = false) (id : BitVec 12) (b : Dword) : s.electIn p id b = s := by
  simp only [State.electIn, hp, Bool.not_false, true_or, if_true]

theorem electMin_of_ge {e : BitVec 12 × Dword} {id : BitVec 12} {b : Dword} (hi : e.1 ≤ id) (hb : b ≤ e.2) : electMin e id b = e := by
  simp only [electMin, if_neg (BitVec.not_lt.2 hi), if_neg (BitVec.not_lt.2 hb)]

theorem electMin_ne_of_id {e : BitVec 12 × Dword} {id : BitVec 12} (hi : id < e.1) (b : Dword) : e ≠ electMin e id b := fun h => by
  have h1 := congrArg Prod.fst h
  simp only [electMin, if_pos hi] at h1
  exact BitVec.ne_of_lt hi h1.symm

theorem electMin_ne_of_boundary {e : BitVec 12 × Dword} {b : Dword} (hb : e.2 < b) (id : BitVec 12) : e ≠ electMin e id b := fun h => by
  have h2 := congrArg Prod.snd h
  simp only [electMin, if_pos hb] at h2
  exact BitVec.ne_of_lt hb h2

/-- The election has ended: the minimum is the leader. -/
def State.elected (s : State) (id : BitVec 12) (b : Dword) : State :=
  { s with fab := { s.fab with election := none, leader := id, isLeader := id == s.devid && s.fab.live,
                               lastK := if s.fab.lastK < b then b else s.fab.lastK } }

theorem State.electEnd_under_way {id : BitVec 12} {b : Dword} (he : s.fab.election = some (id, b)) : s.electEnd = (s.elected id b).mapChanged := by
  unfold State.electEnd
  rw [he]
  rfl

/-- Settles O44. -/
theorem leaders : Obligations.Leaders := by
  intro s p id b saying
  refine ⟨fun hl he => ?_, fun h => ?_, fun hp => congrArg Host.Outcome.next (State.electIn_down hp id b), fun e he => ⟨fun hi hb => ?_, fun hp hi => ?_,
    fun hp hi hb => ?_, ?_⟩, fun he => ?_, fun hi hl hid hc => ?_, fun h => ?_⟩
  · show Host.Outcome.next s.electStart = _
    rw [State.electStart, if_neg (by simp [hl, he])]
    rfl
  · show Host.Outcome.next s.electStart = _
    have hbusy : (!s.fab.live || s.fab.election.isSome) = true := by
      rcases h with h | h
      · rw [h]; rfl
      · rw [Option.isSome_iff_ne_none.2 h, Bool.or_true]
    rw [State.electStart, if_pos hbusy]
  · show Host.Outcome.next (s.electIn p id b) = _
    rw [State.electIn_under_way he, if_pos (.inr (electMin_of_ge hi hb).symm)]
  · show Host.Outcome.next (s.electIn p id b) = _
    rw [State.electIn_under_way he, if_neg (by simp [hp, electMin_ne_of_id hi])]
    simp only [electMin, if_pos hi]
    rfl
  · show Host.Outcome.next (s.electIn p id b) = _
    rw [State.electIn_under_way he, if_neg (by simp [hp, electMin_ne_of_boundary hb])]
    simp only [electMin, if_neg (BitVec.not_lt.2 hi), if_pos hb]
    rfl
  · obtain ⟨lead, last⟩ := e
    have h := (s.elected lead last).mapChanged_onlyTree
    refine ⟨_, congrArg Host.Outcome.next (State.electEnd_under_way he), ?_, ?_, ?_, ?_, ?_⟩
    · rw [h]; rfl
    · rw [h]; rfl
    · rw [h]; rfl
    · rw [h]
      simp [State.elected]
    · rw [h]; rfl
  · show Host.Outcome.next s.electEnd = _
    simp only [State.electEnd, he]
  · show Host.Outcome.next (s.handOver id) = _
    simp only [State.handOver, hi, hl, hid, hc, decide_true, Bool.and_self, if_true]
  · show Host.Outcome.next (s.handOver id) = _
    have hno : (s.fab.isLeader && s.fab.live && decide (id < s.devid) && s.fab.liveIds.contains id) = false := by
      rcases h with h | h
      · rw [h]; rfl
      · rw [decide_eq_false (BitVec.not_lt.2 h), Bool.and_false, Bool.false_and]
    rw [State.handOver, hno]
    rfl

/-! ### Announcements (11 R324, R326, R328) -/

/-- A boundary announced, before its symbol leaves. -/
def State.announces (s : State) (a : Announced) : State :=
  { s with fab := { s.fab with announced := s.fab.announced ++ [a], lastK := a.k, lastStretch := none } }

theorem State.treeChildren_announces (s : State) (a : Announced) : (s.announces a).treeChildren = s.treeChildren :=
  State.treeChildren_congr rfl rfl rfl

/-- A symbol goes twice to the children of the tree. -/
def State.tellChildren (s : State) (y : Sym) : State := s.twice s.treeChildren y

theorem State.announced_eq (s : State) (a : Announced) : s.announced a = (s.announces a).tellChildren (.beat a.sym) := by
  rw [State.tellChildren, State.treeChildren_announces]
  rfl

/-- A boundary that the leader announces. -/
def State.nextAnnounced (s : State) (e : Nat) : Announced :=
  { k := s.nextK, remaining := s.fab.aLead.toNat * 240, loss := s.toMark, handover := s.fab.handoverNext,
    stretch := if e = 0 then none else some ((s.fab.lastStretch.map (·.1)).getD s.devid, e) }

theorem State.announce_leads (hl : s.fab.isLeader = true) (hv : s.fab.live = true) (hh : s.lowestHolder = none) (e : Nat) :
    s.announce e = (({ s with fab := { s.fab with handoverNext := none } } : State).announces (s.nextAnnounced e)).tellChildren
      (.beat (s.nextAnnounced e).sym) := by
  rw [← State.announced_eq, State.announce, if_neg (by simp [hl, hv, hh])]
  rfl

theorem State.announce_withheld (h : (s.fab.isLeader && s.fab.live) = false ∨ s.lowestHolder ≠ none) (e : Nat) : s.announce e = s := by
  have hno : (!s.fab.isLeader || !s.fab.live || s.lowestHolder.isSome) = true := by
    rcases h with h | h
    · rw [← Bool.not_and, h]; rfl
    · rw [Option.isSome_iff_ne_none.2 h, Bool.or_true]
  rw [State.announce, if_pos hno]

/-- What a device makes of a BEAT from its parent. -/
def receivedBeat (b : BeatSym) (cost : Nat) : Announced :=
  { k := b.k, remaining := b.remaining - cost, loss := [], handover := b.handover, stretch := b.stretch }

theorem receivedBeat_sym {b : BeatSym} (hl : b.loss = []) (cost : Nat) : (receivedBeat b cost).sym = { b with remaining := b.remaining - cost } := by
  simp only [receivedBeat, Announced.sym, hl]

/-- The first BEAT of a boundary, in time and without a loss, counts down and goes on. -/
theorem State.beatIn_first {p : Fin 6} {b : BeatSym} (hp : s.portUp p = true) (hc : s.fab.cnt < b.k) (ha : ∀ a ∈ s.fab.announced, a.k < b.k)
    (hr : (s.port p).delta.toNat + 384 ≤ b.remaining) (hl : b.loss = []) :
    s.beatIn p (some b) = (s.announces (receivedBeat b ((s.port p).delta.toNat + 384))).tellChildren
      (.beat (receivedBeat b ((s.port p).delta.toNat + 384)).sym) := by
  have hnew : (!s.portUp p || decide (b.k ≤ s.fab.cnt) || s.fab.announced.any fun a => decide (b.k ≤ a.k)) = false := by
    rw [hp, decide_eq_false (BitVec.not_le.2 hc), Bool.not_true, Bool.false_or, Bool.false_or, List.any_eq_false]
    exact fun a h => by simpa using BitVec.not_le.2 (ha a h)
  obtain ⟨k, remaining, handover, loss, stretch⟩ := b
  obtain rfl : loss = [] := hl
  have hr : ¬remaining < (s.port p).delta.toNat + 384 := Nat.not_lt.2 hr
  rw [← State.announced_eq]
  refine (if_neg (Bool.eq_false_iff.1 hnew)).trans ?_
  exact congrArg (State.announced · _) (if_neg hr)

theorem State.beatIn_known {p : Fin 6} {b : BeatSym} (h : b.k ≤ s.fab.cnt ∨ ∃ a ∈ s.fab.announced, b.k ≤ a.k) : s.beatIn p (some b) = s := by
  have hold : (!s.portUp p || decide (b.k ≤ s.fab.cnt) || s.fab.announced.any fun a => decide (b.k ≤ a.k)) = true := by
    rcases h with h | ⟨a, ha, h⟩
    · rw [decide_eq_true h, Bool.or_true, Bool.true_or]
    · rw [List.any_eq_true.2 ⟨a, ha, decide_eq_true h⟩, Bool.or_true]
  simp only [State.beatIn, hold, if_true]

theorem State.beatIn_down {p : Fin 6} (hp : s.portUp p = false) (b : Option BeatSym) : s.beatIn p b = s := by
  cases b with
  | none => simp only [State.beatIn, hp, Bool.false_eq_true, if_false]
  | some b => simp only [State.beatIn, hp, Bool.not_false, Bool.true_or, if_true]

theorem State.beatNak_down {p : Fin 6} (hp : s.portUp p = false) (n : Nat) : s.beatNak p n = s := by
  simp only [State.beatNak, hp, Bool.not_false, if_true]

theorem State.stretchIn_same {p : Fin 6} {k : Dword} {holder : BitVec 12} {e : Nat}
    (h : s.portUp p = false ∨ k ≤ s.fab.cnt ∨ s.fab.lastStretch = some (holder, e)) : s.stretchIn p k holder e = s := by
  rw [State.stretchIn, if_pos (by simpa using h)]

/-- A STRETCH that says something new is kept and goes on. -/
theorem State.stretchIn_new {p : Fin 6} {k : Dword} {holder : BitVec 12} {e : Nat} (hp : s.portUp p = true) (hk : s.fab.cnt < k)
    (hn : s.fab.lastStretch ≠ some (holder, e)) : s.stretchIn p k holder e =
      ({ s with fab := { s.fab with lastStretch := some (holder, e) } } : State).tellChildren (.stretch k holder e) := by
  rw [State.stretchIn, if_neg (by simp only [hp, hn, Bool.not_true, Bool.false_eq_true, or_false, false_or, BitVec.not_le]; exact hk)]
  rw [State.tellChildren]

theorem State.stretchSend_leads {holder : BitVec 12} (hl : s.fab.isLeader = true) (hv : s.fab.live = true) (hh : s.lowestHolder = some holder)
    (e : Nat) : s.stretchSend e = ({ s with fab := { s.fab with lastStretch := s.fab.lastStretch.map fun b => (b.1, e) } } : State).tellChildren
      (.stretch s.nextK holder e) := by
  have hleads : (s.fab.isLeader && s.fab.live) = true := by rw [hl, hv]; rfl
  unfold State.stretchSend
  split
  case h_2 hno => exact absurd hh (hno holder hleads)
  rename_i holder' _ hh'
  obtain rfl : holder = holder' := Option.some.inj (hh.symm.trans hh')
  have hkids : ({ s with fab := { s.fab with lastStretch := s.fab.lastStretch.map fun b => (b.1, e) } } : State).treeChildren = s.treeChildren :=
    State.treeChildren_congr rfl rfl rfl
  rw [State.tellChildren, hkids]

theorem State.stretchSend_silent (h : (s.fab.isLeader && s.fab.live) = false ∨ s.lowestHolder = none) (e : Nat) : s.stretchSend e = s := by
  simp only [State.stretchSend]
  rcases h with h | h <;> rw [h]
  split <;> simp_all

/-- Settles O42. -/
theorem announcements : Obligations.Announcements := by
  intro s p b k n e holder twice cost a mine add
  have htwice (u : State) (y : Sym) : twice u y = u.tellChildren y := rfl
  refine ⟨fun hp => ⟨?_, ?_, ?_, ?_⟩, fun hp => ⟨fun h => ?_, fun hc ha hr hl => ?_, ?_, fun x hx => ?_, fun hk hn => ?_, fun h => ?_⟩, fun h => ?_,
    fun hl hv hh => ?_, fun hl hv hh => ?_, fun h => ?_⟩
  · exact (finishAll_eq s _).trans (by rw [State.beatIn_down hp])
  · exact (finishAll_eq s _).trans (by rw [State.beatIn_down hp])
  · exact congrArg Host.Outcome.next (State.stretchIn_same (.inl hp))
  · exact (finishAll_eq s _).trans (by rw [State.beatNak_down hp])
  · exact (finishAll_eq s _).trans (by rw [State.beatIn_known h])
  · exact (finishAll_eq s _).trans (by rw [State.beatIn_first hp hc ha hr hl, htwice, receivedBeat_sym hl]; rfl)
  · exact (finishAll_eq s _).trans (by rw [State.beatIn, if_pos hp])
  · refine (finishAll_eq s _).trans (congrArg (fun v => Host.Outcome.next (s.after v)) ?_)
    simp only [State.beatNak, hp, hx, Bool.not_true, Bool.false_eq_true, if_false]
    rfl
  · exact congrArg Host.Outcome.next ((State.stretchIn_new hp hk hn).trans (htwice _ _).symm)
  · exact congrArg Host.Outcome.next (State.stretchIn_same (.inr h))
  · exact (finishAll_eq s _).trans (by rw [State.announce_withheld h])
  · exact (finishAll_eq s _).trans (by rw [State.announce_leads hl hv hh, htwice]; rfl)
  · exact congrArg Host.Outcome.next ((State.stretchSend_leads hl hv hh e).trans (htwice _ _).symm)
  · exact congrArg Host.Outcome.next (State.stretchSend_silent h e)

end Sys2Proof.Machine
end

section
/-!
PROOFS about boundaries that are held and boundaries that pass: the check point, HOLD, the beat boundary and the hold limit (04 R118, 11 R326-R329).
-/

namespace Sys2Proof.Machine

variable {s t u : State}

/-! ### HOLD goes up the tree (11 R326) -/

theorem State.isLeader_of_treeParent {q : Fin 6} (h : s.treeParent = some q) : s.fab.isLeader = false := by
  unfold State.treeParent at h
  split at h
  · exact absurd h nofun
  · next hl => exact Bool.eq_false_iff.2 hl

/-- A first holder below the root is told to the parent. -/
theorem State.tellHold_up {q : Fin 6} {h : BitVec 12} (hq : s.treeParent = some q) (hh : s.lowestHolder = some h) :
    State.tellHold none s = s.emit (.sym q (.hold true h)) := by
  have hl := State.isLeader_of_treeParent hq
  simp only [State.tellHold, hh, hl, reduceCtorEq, if_false, hq]

/-- Telling a HOLD reaches the note of the stretch and what leaves, and nothing else. -/
theorem State.tellHold_only (old : Option (BitVec 12)) (s : State) :
    ∃ b o, State.tellHold old s = { s with fab := { s.fab with lastStretch := b }, out := o } := by
  simp only [State.tellHold]
  (repeat' split) <;> exact ⟨_, _, rfl⟩

/-- A device that asserts HOLD has a holder. -/
theorem State.lowestHolder_of_holding (h : s.fab.holding = true) : s.lowestHolder ≠ none := by
  simp only [State.lowestHolder, h, if_true, List.foldl_append]
  generalize List.foldl _ none (allPorts.filterMap _) = b
  cases b <;> exact nofun

/-! ### The check point (11 R326) -/

/-- The next boundary that has not had its check point has it now. -/
def State.checked (s : State) : State :=
  { s with fab := { s.fab with checkedTo := (if s.fab.checkedTo < s.fab.cnt then s.fab.cnt else s.fab.checkedTo) + 1 } }

theorem State.checkPoint_eq (s : State) : s.checkPoint = s.checked.refreshHold := rfl

/-- Nothing asserts HOLD: nothing changes beyond the check point. -/
theorem State.checkPoint_free (hn : s.lowestHolder = none) (ha : s.checked.asserted = []) : s.checkPoint = s.checked :=
  State.refreshHold_quiet s.checked hn ha

/-- The sets whose cores hold a boundary, with those of the obligations that assert HOLD now. -/
def State.assertedSets (s : State) : Sparse (BitVec 8) :=
  s.asserted.foldl (fun (t : Sparse (BitVec 8)) (o : Nat × Dword) => smod 0 t o.2.toNat fun m => m ||| (1#8 <<< (o.1 / 8))) s.fab.heldSets

/-- The device with its own HOLD asserted, and the sets that hold noted. -/
def State.holdsNow (s : State) : State := { s with fab := { s.fab with holding := true, heldSets := s.assertedSets } }

theorem State.refreshHold_asserted (ha : s.asserted ≠ []) : s.refreshHold = State.tellHold s.lowestHolder s.holdsNow := by
  have hb : (!s.asserted.isEmpty) = true := by simpa using ha
  exact congrArg (fun b => State.tellHold s.lowestHolder { s with fab := { s.fab with holding := b, heldSets := s.assertedSets } }) hb

/-- A child's HOLD that is the first to reach this device goes up. -/
theorem State.holdIn_first {p q : Fin 6} {h : BitVec 12} (hn : s.lowestHolder = none) (hp : s.portUp p = true)
    (hh : (s.modPort p fun q => { q with childHold := some h }).lowestHolder = some h)
    (hq : (s.modPort p fun q => { q with childHold := some h }).treeParent = some q) :
    s.holdIn p true h = (s.modPort p fun q => { q with childHold := some h }).emit (.sym q (.hold true h)) := by
  rw [← State.tellHold_up hq hh, ← hn]
  exact if_neg (by simp [hp])

/-! ### A boundary passes on a device with no launch in its cores (11 R326-R328) -/

/-- From `s` to `t` the stream credits, the power block and the collectives changed, and nothing else. -/
def State.OnlyShares (s t : State) : Prop := t = { s with stm := t.stm, pwr := t.pwr, col := t.col }

theorem State.OnlyShares.trans (h : s.OnlyShares t) (h' : t.OnlyShares u) : s.OnlyShares u :=
  Eq.trans h' (congrArg (fun v : State => { v with stm := u.stm, pwr := u.pwr, col := u.col }) h)

theorem State.OnlyShares.launches (h : s.OnlyShares t) : t.launches = s.launches := by rw [h]

theorem State.OnlyShares.heldObls (h : s.OnlyShares t) : t.heldObls = s.heldObls := by rw [h]

theorem State.OnlyShares.hbm (h : s.OnlyShares t) : t.hbm = s.hbm := by rw [h]

theorem State.OnlyShares.core (h : s.OnlyShares t) (c : Nat) : t.core c = s.core c := by
  have hc : t.cores = s.cores := by rw [h]
  rw [State.core, hc, ← State.core]

theorem State.OnlyShares.fab (h : s.OnlyShares t) : t.fab = s.fab := by rw [h]

theorem State.OnlyShares.resident (h : s.OnlyShares t) : t.resident = s.resident := by
  unfold State.resident
  rw [h.launches]

theorem State.applyCredits_onlyShares (s : State) : s.OnlyShares s.applyCredits := by
  simp only [State.applyCredits]
  split <;> rfl

theorem State.OnlySets.onlyShares (h : s.OnlySets t) : s.OnlyShares t := by rw [State.OnlyShares, h]

theorem State.modPwr_onlyShares (s : State) (f : Pwr → Pwr) : s.OnlyShares (s.modPwr f) := rfl

theorem State.powerBoundary_onlyShares (s : State) (held : Nat → Bool) : s.OnlyShares (s.powerBoundary held) := by
  simp only [State.powerBoundary]
  refine List.foldlRecOn (motive := s.OnlyShares) _ _ ?_ fun v hv i _ => ?_
  · refine .trans ?_ (State.onlySets_modSets _ _).onlyShares
    split
    · exact (s.modPwr_onlyShares _).trans (State.modPwr_onlyShares _ _)
    · exact s.modPwr_onlyShares _
  · split
    · exact hv.trans (v.onlySets_modSet i _).onlyShares
    · exact hv

theorem State.countBoundary_onlyShares (hr : s.resident = none) : s.OnlyShares s.countBoundary := by
  simp only [State.countBoundary, hr]
  rfl

theorem State.tellWaits_idle (hr : s.resident = none) : s.tellWaits = s := by
  simp only [State.tellWaits, hr]

theorem State.running_idle (hr : s.resident = none) : s.running = none := by
  simp only [State.running, hr]

theorem State.completeWaits_idle (hr : s.resident = none) : s.completeWaits = (s, false) := by
  simp only [State.completeWaits, State.running_idle hr]

theorem State.atSwapPoint_idle (hr : s.resident = none) : s.atSwapPoint = false := by
  simp only [State.atSwapPoint, State.running_idle hr]

theorem State.resident_mapCores (s : State) (f : Core → Core) : (s.mapCores f).resident = s.resident := rfl

theorem State.heldObls_mapCores (s : State) (f : Core → Core) : (s.mapCores f).heldObls = s.heldObls := rfl

theorem State.fab_mapCores (s : State) (f : Core → Core) : (s.mapCores f).fab = s.fab := rfl

theorem State.hbm_mapCores (s : State) (f : Core → Core) : (s.mapCores f).hbm = s.hbm := rfl

theorem State.core_mapCores_fixed {f : Core → Core} {c : Nat} (h : f (s.core c) = s.core c) : (s.mapCores f).core c = s.core c := by
  refine List.foldlRecOn (motive := fun t => sget ({} : Core) t c = s.core c) (List.range 64) (fun t c => smod ({} : Core) t c f) rfl fun t ht i _ => ?_
  by_cases hi : c = i
  · subst hi
    rw [sget_smod_same, ht, h]
  · rw [sget_smod_other _ _ _ _ _ hi, ht]

theorem Core.recordSteps_of_idle {k : Core} (h : k.eng = []) : k.recordSteps = k := by
  rw [Core.recordSteps, h, List.map_nil, ← h]

theorem State.haltLosses_nil (s : State) : s.haltLosses [] = s := by
  simp only [State.haltLosses, List.foldl_nil, List.any_nil, Bool.not_false, List.filter_true]

theorem State.obligations_idle (hr : s.resident = none) (ho : s.heldObls = []) : s.obligations = [] := by
  simp only [State.obligations, State.residentHolds, hr, ho, List.map_nil, List.flatten_nil, List.append_nil, ite_self]

theorem State.holders_idle (hr : s.resident = none) (ho : s.heldObls = []) : s.holders = [] := by
  simp only [State.holders, State.obligations_idle hr ho, List.filter_nil, List.map_nil]

theorem State.asserted_idle (hr : s.resident = none) (ho : s.heldObls = []) : s.asserted = [] := by
  simp only [State.asserted, State.obligations_idle hr ho, List.filter_nil]

/-- The sets that hold a boundary. -/
def State.setsOf (s : State) (a : Announced) : BitVec 8 := sget 0 s.fab.heldSets a.k.toNat

/-- The stretch that a boundary reports, or the one before. -/
def State.stretchAt (s : State) (a : Announced) : BitVec 12 × BitVec 20 :=
  match a.stretch with
  | some x => (x.1, .ofNat 20 (min 0xFFFFF x.2))
  | none => (s.fab.stretchHolder, s.fab.stretchLen)

/-- A boundary that marks no loss and hands nothing over is counted on time. -/
def State.counted (s : State) (a : Announced) : State :=
  { s with err := { s.err with noted := [] }, fab := { s.fab with
      cnt := a.k, announced := s.fab.announced.drop 1, heldSets := sset 0 s.fab.heldSets a.k.toNat 0,
      held := if s.setsOf a = 0 then s.fab.held else satInc s.fab.held,
      stretchHolder := (s.stretchAt a).1, stretchLen := (s.stretchAt a).2 } }

theorem State.heldObls_counted (s : State) (a : Announced) : (s.counted a).heldObls = s.heldObls := rfl

theorem State.core_counted (s : State) (a : Announced) (c : Nat) : (s.counted a).core c = s.core c := rfl

theorem State.hbm_counted (s : State) (a : Announced) : (s.counted a).hbm = s.hbm := rfl

/-- What a boundary shares out once it is counted. -/
def State.shared (s : State) (a : Announced) : State :=
  (((s.counted a).applyCredits).powerBoundary fun i => (s.setsOf a).getLsbD i).countBoundary

theorem State.shared_onlyShares (hr : s.resident = none) (a : Announced) : (s.counted a).OnlyShares (s.shared a) := by
  have h : (s.counted a).OnlyShares (((s.counted a).applyCredits).powerBoundary fun i => (s.setsOf a).getLsbD i) :=
    (s.counted a).applyCredits_onlyShares.trans (State.powerBoundary_onlyShares _ _)
  refine h.trans (State.countBoundary_onlyShares ?_)
  rw [h]
  exact hr

theorem State.fab_passed (hr : s.resident = none) (a : Announced) (f : Core → Core) : ((s.shared a).mapCores f).fab = (s.counted a).fab :=
  (State.shared_onlyShares hr a).fab

theorem State.passOne_idle (hr : s.resident = none) {a : Announced} (hh : a.handover = none) (hl : a.loss = []) :
    s.passOne a false = ((s.shared a).mapCores Core.recordSteps, false) := by
  have hr' : ((s.shared a).mapCores Core.recordSteps).resident = none := by
    rw [State.resident_mapCores, (State.shared_onlyShares hr a).resident]
    exact hr
  have hpass : s.passOne a false =
      (let v := ((s.counted a).applyCredits).powerBoundary fun i => (s.setsOf a).getLsbD i
       let r := ((v.haltLosses []).countBoundary.mapCores Core.recordSteps).tellWaits.completeWaits
       (if r.1.atSwapPoint && true then (r.1.swapOnce).beginPortTest else r.1, r.2 || false)) := by
    obtain ⟨k, remaining, loss, handover, stretch⟩ := a
    obtain rfl : loss = [] := hl
    obtain rfl : handover = none := hh
    rfl
  rw [hpass]
  simp only [State.haltLosses_nil]
  rw [← State.shared, State.tellWaits_idle hr', State.completeWaits_idle hr', State.atSwapPoint_idle hr']
  rfl

/-! ### BEAT_BOUNDARY (11 R326, R327) -/

/-- The time of the boundary in front has come: the announced ones are `l`, and its check point is over. -/
def State.timeCome (s : State) (k : Dword) (l : List Announced) (skew held : Nat) : State :=
  { s with fab := { s.fab with announced := l, skew := .ofNat 8 (max s.fab.skew.toNat (min 255 skew)), holdTime := s.fab.holdTime + .ofNat 32 held,
                               checkedTo := if s.fab.checkedTo < k then k else s.fab.checkedTo } }

section
variable {a : Announced} {rest : List Announced} (hf : s.fab.announced = a :: rest) (hd : ∀ x ∈ s.fab.announced, x.due = false)
include hf hd

theorem rest_not_due : rest.all (fun a => !a.due) = true :=
  List.all_eq_true.2 fun x hx => by rw [hd x (hf ▸ List.mem_cons_of_mem a hx)]; rfl

theorem State.boundary_marks (skew held : Nat) : (s.boundary skew held).1 =
    (passDue (rest.length + 1) (some a.k) (s.timeCome a.k ({ a with due := true } :: rest) skew held, false)).1.refreshHold := by
  have ha : a.due = false := hd a (hf ▸ List.mem_cons_self)
  have hm : markDue (a :: rest) = ({ a with due := true } :: rest, some a.k) := by simp only [markDue, ha, Bool.false_eq_true, if_false]
  simp only [State.boundary, hf, hm, List.length_cons]
  rfl

/-- A boundary that nothing holds passes at its time. -/
theorem State.boundary_passes (hr : s.resident = none) (ho : s.heldObls = []) (hh : a.handover = none) (hl : a.loss = []) (skew held : Nat) :
    (s.boundary skew held).1 =
      (((s.timeCome a.k ({ a with due := true } :: rest) skew held).shared { a with due := true }).mapCores Core.recordSteps).refreshHold := by
  rw [State.boundary_marks hf hd]
  generalize hv : s.timeCome a.k ({ a with due := true } :: rest) skew held = v
  have hrv : v.resident = none := by rw [← hv]; exact hr
  have hov : v.holders = [] := State.holders_idle hrv (by rw [← hv]; exact ho)
  have hfv : v.fab.announced = { a with due := true } :: rest := by rw [← hv]; rfl
  have hrest : ((v.shared { a with due := true }).mapCores Core.recordSteps).fab.announced = rest := by
    rw [State.fab_passed hrv, State.counted, hfv, List.drop_one, List.tail_cons]
  simp only [passDue, hfv, hov, List.isEmpty_nil, Bool.and_self, if_true, bne_self_eq_false, State.passOne_idle hrv (a := { a with due := true }) hh hl]
  rw [passDue_quiet _ _ _ _ (by rw [hrest]; exact rest_not_due hf hd)]

/-- A boundary that is held does not pass at its time. -/
theorem State.boundary_held (ho : s.holders ≠ []) (skew held : Nat) :
    (s.boundary skew held).1 = (s.timeCome a.k ({ a with due := true } :: rest) skew held).refreshHold := by
  have hno : (s.timeCome a.k ({ a with due := true } :: rest) skew held).holders.isEmpty = false := List.isEmpty_eq_false_iff.2 ho
  rw [State.boundary_marks hf hd, passDue]
  simp only [hno, Bool.and_false, Bool.false_eq_true, if_false]
  split <;> rfl

end

/-- The next boundary is held by an obligation whose check point is over: HOLD is asserted. -/
theorem State.asserted_of_holders (ho : s.holders ≠ []) (hc : s.fab.cnt < s.fab.checkedTo) : s.asserted ≠ [] := by
  obtain ⟨c, hc'⟩ := List.exists_mem_of_ne_nil _ ho
  obtain ⟨o, hmem, -⟩ := List.mem_map.1 hc'
  obtain ⟨hobl, hnext⟩ := List.mem_filter.1 hmem
  have hk : o.2 = s.fab.cnt + 1 := by simpa using hnext
  refine List.ne_nil_of_mem (List.mem_filter.2 ⟨hobl, ?_⟩)
  rw [hk, Bool.and_eq_true, decide_eq_true_iff, decide_eq_true_iff]
  constructor <;> bv_omega

/-- Without an obligation nothing asserts HOLD. -/
theorem State.refreshHold_idle (ha : s.asserted = []) :
    s.refreshHold = State.tellHold s.lowestHolder { s with fab := { s.fab with holding := false } } := by
  simp only [State.refreshHold, ha, List.isEmpty_nil, Bool.not_true, List.foldl_nil]

/-- The facts about a boundary that passes on a device with no launch in its cores. -/
theorem State.passedIdle_keeps {a : Announced} {rest : List Announced} {skew held : Nat} (hf : s.fab.announced = a :: rest)
    (hr : s.resident = none) (ho : s.heldObls = []) :
    let u := (((s.timeCome a.k ({ a with due := true } :: rest) skew held).shared { a with due := true }).mapCores Core.recordSteps).refreshHold
    u.fab.cnt = a.k ∧ u.fab.announced = rest ∧ u.fab.checkedTo = (if s.fab.checkedTo < a.k then a.k else s.fab.checkedTo) ∧ u.fab.late = s.fab.late ∧
      u.fab.holdTime = s.fab.holdTime + .ofNat 32 held ∧ (∀ c, (s.core c).eng = [] → u.core c = s.core c) ∧ u.hbm = s.hbm := by
  generalize hv : s.timeCome a.k ({ a with due := true } :: rest) skew held = v
  have hrv : v.resident = none := by rw [← hv]; exact hr
  have hshared := State.shared_onlyShares hrv { a with due := true }
  generalize v.shared { a with due := true } = w at hshared
  have hfab := (State.fab_mapCores w Core.recordSteps).trans hshared.fab
  have hhbm := ((State.hbm_mapCores w Core.recordSteps).trans hshared.hbm).trans (State.hbm_counted v _)
  have hcore (c : Nat) (hc : (s.core c).eng = []) : (w.mapCores Core.recordSteps).core c = s.core c := by
    have hw : w.core c = s.core c := by rw [hshared.core c, State.core_counted, ← hv]; rfl
    exact (State.core_mapCores_fixed (Core.recordSteps_of_idle (by rw [hw, hc]))).trans hw
  have hidle : (w.mapCores Core.recordSteps).asserted = [] := by
    refine State.asserted_idle ?_ ?_
    · rw [State.resident_mapCores, hshared.resident]
      exact hrv
    · rw [State.heldObls_mapCores, hshared.heldObls, State.heldObls_counted, ← hv]
      exact ho
  generalize w.mapCores Core.recordSteps = x at hfab hhbm hcore hidle
  rw [State.refreshHold_idle hidle]
  obtain ⟨b, o, htell⟩ := State.tellHold_only x.lowestHolder { x with fab := { x.fab with holding := false } }
  rw [htell]
  refine ⟨?_, ?_, ?_, ?_, ?_, hcore, hhbm.trans (by rw [← hv]; rfl)⟩
  · simp only [hfab]; rfl
  · simp only [hfab, ← hv]; rfl
  · simp only [hfab, ← hv]; rfl
  · simp only [hfab, ← hv]; rfl
  · simp only [hfab, ← hv]; rfl

/-- The facts about a boundary whose time has come and that an obligation holds. -/
theorem State.heldBoundary_keeps {a : Announced} {rest : List Announced} {skew held : Nat} (ho : s.holders ≠ []) (hk : s.fab.cnt < a.k) :
    let u := (s.timeCome a.k ({ a with due := true } :: rest) skew held).refreshHold
    u.fab.cnt = s.fab.cnt ∧ u.fab.announced = { a with due := true } :: rest ∧ u.fab.holding = true ∧ u.cores = s.cores := by
  generalize hv : s.timeCome a.k ({ a with due := true } :: rest) skew held = v
  have hc : v.fab.cnt < v.fab.checkedTo := by
    rw [← hv]
    show s.fab.cnt < if s.fab.checkedTo < a.k then a.k else s.fab.checkedTo
    split <;> bv_omega
  have hov : v.holders ≠ [] := by rw [← hv]; exact ho
  rw [State.refreshHold_asserted (State.asserted_of_holders hov hc)]
  obtain ⟨b, o, htell⟩ := State.tellHold_only v.lowestHolder v.holdsNow
  rw [htell, ← hv]
  exact ⟨rfl, rfl, rfl, rfl⟩

/-! ### The hold limit (11 R329) -/

theorem finish_emits {o : List Out} (h : t.out = s.out ++ o) (hr : ∀ x ∈ o, x.isRemote = false) (hd : t.hbm.ownedLost = s.hbm.ownedLost) :
    finish s (t, false) = .next t := by
  rw [finish_flits s t hd, State.sendFlits_append s t o h hr]

theorem finish_tells (s : State) (ps : List (Fin 6)) (y : Sym) : finish s (s.symOn ps y, false) = .next (s.symOn ps y) := by
  refine finish_emits rfl (fun x hx => ?_) rfl
  obtain ⟨p, -, rfl⟩ := List.mem_map.1 hx
  rfl

/-- The core that LIMIT(k) stops, in a launch that holds. -/
def State.limitStop (s : State) (o : Nat × Dword) : StopInfo :=
  { code := eBeatHoldLimit, core := some o.1, pc := (s.core o.1).pc, source := 1, kind := 8, detail := s.fab.cnt }

theorem State.limitAt_stops {k : Dword} {l : Launch} {o : Nat × Dword} (hl : s.resident = some l)
    (ho : (s.residentHolds.find? fun o => o.2 == k) = some o) (hh : s.fab.holding = true) :
    s.limitAt k = ((s.symOn s.treeChildren (.limit k)).stop l (s.limitStop o), true) := by
  have hl' : (s.symOn s.treeChildren (.limit k)).resident = some l := hl
  have ho' : ((s.symOn s.treeChildren (.limit k)).residentHolds.find? fun o => o.2 == k) = some o := ho
  simp only [State.limitAt, hl', ho']
  exact if_pos hh

theorem State.limitAt_tells {k : Dword} (h : s.fab.holding = false ∨ s.resident = none ∨ ∀ o ∈ s.residentHolds, o.2 ≠ k) :
    s.limitAt k = (s.symOn s.treeChildren (.limit k), false) := by
  simp only [State.limitAt]
  split
  · next o hl ho =>
    rcases h with h | h | h
    · exact if_neg (by rw [State.symOn, State.emitAll]; simp [h])
    · exact absurd (hl.symm.trans h) nofun
    · exact absurd (by simpa using List.find?_some ho) (h o (List.mem_of_find?_eq_some ho))
  · rfl

/-- Settles O43. -/
theorem holding : Obligations.Holding := by
  refine ⟨fun s hn => ⟨fun ha => ?_, fun ha q h hq hh => ?_, fun p h => ⟨fun hp => ?_, fun hp hh q hq => ?_⟩⟩,
    fun s a rest skew held hf hd hh hl => ⟨fun hr ho => ?_, fun ho hk => ?_⟩,
    fun s p k n => ⟨fun hp => ?_, fun hp h => ?_, fun h => ?_, fun l o hl ho hh => ⟨fun hp => ?_, fun hlead hlive hk hn => ?_⟩⟩⟩
  · exact congrArg Host.Outcome.next (State.checkPoint_free hn ha)
  · have hup : s.checked.lowestHolder = none := hn
    have hasserts : s.checked.refreshHold = State.tellHold none s.checked.holdsNow :=
      (State.refreshHold_asserted (s := s.checked) ha).trans (by rw [hup])
    exact congrArg Host.Outcome.next (hasserts.trans (State.tellHold_up (s := s.checked.holdsNow) hq hh))
  · exact congrArg Host.Outcome.next (if_pos (by simp [hp]))
  · exact congrArg Host.Outcome.next (State.holdIn_first hn hp hh hq)
  · refine ⟨_, finishAll_eq s _, ?_⟩
    rw [State.boundary_passes hf hd hr ho hh hl]
    exact State.passedIdle_keeps hf hr ho
  · refine ⟨_, finishAll_eq s _, ?_⟩
    rw [State.boundary_held hf hd ho]
    exact State.heldBoundary_keeps ho hk
  · exact (congrArg (finish s) (if_neg (by simp [hp]))).trans (finish_false s s rfl rfl)
  · exact (congrArg (finish s) ((if_pos hp).trans (State.limitAt_tells h))).trans (finish_tells s _ _)
  · refine (congrArg (finish s) (if_neg ?_)).trans (finish_false s s rfl rfl)
    rw [Bool.and_eq_true, decide_eq_true_iff, Fab.limitBeats]
    rintro ⟨hb, hle⟩
    rcases h with h | h
    · simp [h] at hb
    · exact absurd hle (Nat.not_le.2 h)
  · exact (congrArg (finish s) ((if_pos hp).trans (State.limitAt_stops hl ho hh))).trans (finish_true s _)
  · subst hk
    refine (congrArg (finish s) ((if_pos ?_).trans (State.limitAt_stops hl ho hh))).trans (finish_true s _)
    rw [hlead, hlive, Option.isSome_iff_ne_none.2 (State.lowestHolder_of_holding hh), Fab.limitBeats, decide_eq_true hn]
    rfl

end Sys2Proof.Machine
end

section
/-!
PROOFS about HBM: writes and reads of one burst, the end of a retirement (08 R219-R224), and the shared cache (08 R225-R228).
-/

namespace Sys2Proof.Machine

variable {s t u : State}

/-! ### A write within one burst (08 R220, R223) -/

/-- A write that stays in its burst is one write of that burst. -/
theorem Hbm.write_burst (h : Hbm) {pa : Nat} {bs : List Byte} (hne : bs ≠ []) (hin : pa % 32 + bs.length ≤ 32) :
    h.write pa bs = ((h.writeBurst pa bs).1, if (h.writeBurst pa bs).2 then none else some (pa / 32)) := by
  obtain ⟨b, r, rfl⟩ := List.exists_cons_of_ne_nil hne
  have htake : (b :: r).take (32 - pa % 32) = b :: r := List.take_of_length_le (by omega)
  have hdrop : (b :: r).drop (32 - pa % 32) = [] := List.drop_eq_nil_of_le (by omega)
  simp only [Hbm.write, Hbm.writeGo, htake, hdrop, Option.none_or]

/-- A full burst, or a part of one that is not poisoned, is written. -/
theorem Hbm.writeBurst_writes (h : Hbm) {pa : Nat} {bs : List Byte} (hp : bs.length = 32 ∨ h.poisoned (pa / 32) = false) :
    h.writeBurst pa bs = ({ h with mem := swrite hbmDefault h.mem pa bs, code := sset 0 h.code (pa / 32) 0 }, true) := by
  refine if_neg ?_
  rcases hp with hp | hp <;> simp [hp]

/-- A part of a poisoned burst takes no effect. -/
theorem Hbm.writeBurst_poisoned (h : Hbm) {pa : Nat} {bs : List Byte} (hn : bs.length < 32) (hp : h.poisoned (pa / 32) = true) :
    h.writeBurst pa bs = (h, false) :=
  if_pos (by simp [hn, hp])

theorem Hbm.poisoned_of_code {h : Hbm} {b : Nat} {t : Sparse (BitVec 16)} (hc : h.code = sset 0 t b 0) : h.poisoned b = false := by
  rw [Hbm.poisoned, hc, sget_sset_same]
  rfl

theorem Hbm.poisoned_of_code_other {h : Hbm} {b x : Nat} {t : Sparse (BitVec 16)} (hc : h.code = sset 0 t b 0) (hx : x ≠ b) :
    h.poisoned x = (sget 0 t x == 0xFFFF) := by
  rw [Hbm.poisoned, hc, sget_sset_other _ _ _ _ _ hx]

/-- HBM after a write of a burst that takes effect; a granule that is being retired holds it for its spare too. -/
def Hbm.written (h : Hbm) (own : Bool) (va pa : Nat) (bs : List Byte) : Hbm :=
  { h with mem := swrite hbmDefault h.mem pa bs, code := sset 0 h.code (pa / 32) 0, retiring := h.retiring.map (holdWrite own va pa bs) }

theorem Hbm.read_written (h : Hbm) (own : Bool) (va pa : Nat) (bs : List Byte) : (h.written own va pa bs).read pa bs.length = bs :=
  sread_swrite hbmDefault h.mem pa bs

theorem Hbm.read_written_other (h : Hbm) (own : Bool) (va : Nat) {pa a n : Nat} {bs : List Byte} (ho : a + n ≤ pa ∨ pa + bs.length ≤ a) :
    (h.written own va pa bs).read a n = h.read a n :=
  sread_swrite_other hbmDefault h.mem pa a n bs ho

theorem Hbm.poisoned_written (h : Hbm) (own : Bool) (va pa : Nat) (bs : List Byte) : (h.written own va pa bs).poisoned (pa / 32) = false :=
  Hbm.poisoned_of_code rfl

theorem Hbm.poisoned_written_other (h : Hbm) (own : Bool) (va : Nat) {pa x : Nat} (bs : List Byte) (hx : x ≠ pa / 32) :
    (h.written own va pa bs).poisoned x = h.poisoned x :=
  Hbm.poisoned_of_code_other rfl hx

section
variable {own : Bool} {va pa : Nat} {bs : List Byte} (hne : bs ≠ []) (hin : pa % 32 + bs.length ≤ 32)
include hne hin

theorem State.pwriteAs_writes (hp : bs.length = 32 ∨ s.hbm.poisoned (pa / 32) = false) :
    s.pwriteAs own va pa bs = ({ s with hbm := s.hbm.written own va pa bs }, none) := by
  rw [State.pwriteAs, Hbm.write_burst _ hne hin, Hbm.writeBurst_writes _ hp]
  rfl

theorem State.pwriteAs_poisoned (hn : bs.length < 32) (hp : s.hbm.poisoned (pa / 32) = true) :
    s.pwriteAs own va pa bs =
      ({ s with hbm := { s.hbm with retiring := s.hbm.retiring.map (holdWrite own va pa bs) } }, some (pa / 32)) := by
  rw [State.pwriteAs, Hbm.write_burst _ hne hin, Hbm.writeBurst_poisoned _ hn hp]
  rfl

end

/-- Settles O27. -/
theorem burstWrites : Obligations.BurstWrites := by
  intro s pa bytes who va hne hin b
  have htake : bytes.take (32 - pa.toNat % 32) = bytes := List.take_of_length_le (by omega)
  refine ⟨fun ho => ?_, fun hi => ⟨fun hp => ?_, fun hn hp => ?_⟩⟩
  · have hw : s.hbmWrite pa bytes who va = (s, false) := by
      simp only [State.hbmWrite, htake]
      exact if_pos ho
    exact (congrArg (finish s) hw).trans (finish_false s s rfl rfl)
  · have hw : s.hbmWrite pa bytes who va = ({ s with hbm := s.hbm.written false va.toNat pa.toNat bytes }, false) := by
      simp only [State.hbmWrite, htake, State.pwriteAs_writes hne hin hp]
      exact if_neg (Nat.not_lt.2 hi)
    exact ⟨_, (congrArg (finish s) hw).trans (finish_false s _ rfl rfl), rfl, s.hbm.read_written false _ _ _,
      fun a n ho => s.hbm.read_written_other false _ ho, s.hbm.poisoned_written false _ _ _, fun x hx => s.hbm.poisoned_written_other false _ _ hx⟩
  · have hw : s.hbmWrite pa bytes who va = (({ s with hbm := { s.hbm with
        retiring := s.hbm.retiring.map (holdWrite false va.toNat pa.toNat bytes) } } : State).dataLost who va (pa.toNat / 32 * 32) 2, true) := by
      simp only [State.hbmWrite, htake, State.pwriteAs_poisoned hne hin hn hp]
      exact if_neg (Nat.not_lt.2 hi)
    exact (congrArg (finish s) hw).trans (finish_true s _)

/-! ### Reads (08 R221-R224, 14 R409) -/

section
variable {b : BitVec 32} {who : Consumer} {va : Dword} {f g : ReadFault}

/-- The state in which a second wrong code has been noted and its granule retired. -/
def State.secondWrong (s : State) (b : BitVec 32) : State :=
  ((s.noteEvent 3 (BitVec.ofNat 25 (b.toNat * 32 / 4096)).toNat).1).retireGranule (.ofNat 25 (b.toNat * 32 / 4096))

theorem State.hbmRead_secondWrong (hf : s.hbm.check b f = .bad) (hg : s.hbm.check b g ≠ .good) : s.hbmRead b who va f g =
    match who with
    | .readMem => (s.secondWrong b).readFails [b.toNat] eHbmDetect 1
    | .mergedWrite _ => (s.secondWrong b).dataLost who va (b.toNat * 32) 1
    | _ => (s.secondWrong b).replayed eHbmDetect 3 (.ofNat 12 (Config.stackOf (b.toNat * 32 / 4096)).val) 1 (b.toNat * 32) := by
  unfold State.hbmRead
  rw [hf]
  cases hc : s.hbm.check b g with
  | good => exact absurd hc hg
  | poison => rfl
  | bad => rfl

/-- Settles O28. -/
theorem burstReads : Obligations.BurstReads := by
  intro s b who va f g pa gr run u
  refine ⟨fun hf => ?_, fun hf => ?_, fun hf hg => ?_, fun hf hg => ⟨fun hw => ?_, fun c hw => ?_, fun hr hm => ?_⟩⟩
  · exact (finishAll_eq s _).trans (by simp only [State.hbmRead, hf])
  · exact (finishAll_eq s _).trans (by simp only [State.hbmRead, hf]; rfl)
  · exact (finishAll_eq s _).trans (by simp only [State.hbmRead, hf, hg]; rfl)
  · subst hw
    exact (finishAll_eq s _).trans (by rw [State.hbmRead_secondWrong hf hg]; rfl)
  · subst hw
    exact (finishAll_eq s _).trans (by rw [State.hbmRead_secondWrong hf hg]; rfl)
  · refine (finishAll_eq s _).trans ?_
    rw [State.hbmRead_secondWrong hf hg]
    split
    · exact absurd rfl hr
    · next c => exact absurd rfl (hm c)
    · rfl

end

/-! ### The cache (08 R225-R228) -/

/-- Settles O30. -/
theorem cache : Obligations.Cache := by
  refine ⟨fun s pa write full hint who => ⟨fun l hl => ?_, fun hl => ⟨?_, fun hh => ?_⟩⟩, fun s sl w => ⟨fun hn => ?_, fun hy => ?_⟩⟩
  · have hmem : (s.hbm.lines.any fun x => x == l) = true := List.any_eq_true.2 ⟨l, List.mem_of_find?_eq_some hl, beq_self_eq_true l⟩
    refine (finishAll_eq s _).trans ?_
    simp only [State.cacheAccess, lineKey, hl, hmem, if_true]
  · exact (finishAll_eq s _).trans (by simp only [State.cacheAccess, lineKey, hl, if_true])
  · exact (finishAll_eq s _).trans (by simp only [State.cacheAccess, lineKey, hl, if_neg hh])
  · refine congrArg Host.Outcome.next (if_pos ?_)
    rw [Bool.not_eq_true', List.any_eq_false]
    exact fun e he => by simpa using ne_of_mem_of_not_mem he hn
  · have hw : s.wayHandover sl w = s.modHbm fun h => { h with
        ways := sset {} h.ways sl.val { out := (s.waysOf sl).out ||| (1#16 <<< w.val), spareUsed := true,
                                        degraded := (s.waysOf sl).degraded || (s.waysOf sl).spareUsed },
        handover := h.handover.filter (· != (sl, w)), lines := h.lines.filter fun l => !(l.slice == sl && l.way == w) } :=
      if_neg (by simpa using hy)
    refine ⟨_, congrArg Host.Outcome.next hw, rfl, ?_, ?_, ?_, fun x hx => ?_, fun l => ?_, ?_, fun a n => rfl⟩
    · simp [State.waysOf, State.modHbm]
    · simp [State.waysOf, State.modHbm]
    · simp [State.waysOf, State.modHbm]
    · simp [State.waysOf, State.modHbm, Fin.val_ne_of_ne hx]
    · refine List.mem_filter.trans (and_congr_right fun _ => ?_)
      rw [Bool.not_eq_true', Bool.and_eq_false_iff, beq_eq_false_iff_ne, beq_eq_false_iff_ne, not_and_or]
    · simp [State.modHbm]

/-! ### A completed copy of a granule (08 R222) -/

/-- Writes to consecutive keys: a key of the range holds what was written, another what it held. -/
theorem sget_foldl_range {α : Type} [DecidableEq α] (d : α) (base : Nat) (f : Nat → α) (n : Nat) (t : Sparse α) (k : Nat) :
    sget d ((List.range n).foldl (fun t i => sset d t (base + i) (f i)) t) k = if base ≤ k ∧ k < base + n then f (k - base) else sget d t k := by
  induction n with
  | zero => exact (if_neg (by omega)).symm
  | succ n ih =>
    rw [List.range_succ, List.foldl_append, List.foldl_cons, List.foldl_nil]
    by_cases hk : k = base + n
    · subst hk
      rw [sget_sset_same, if_pos (by omega), Nat.add_sub_cancel_left]
    · rw [sget_sset_other _ _ _ _ _ hk, ih]
      exact if_congr (by omega) rfl rfl

/-- The codes of a granule after its copy: the bursts in `bad`, and those that were, are poison. -/
def Hbm.copiedCode (h : Hbm) (g : BitVec 25) (bad : List (BitVec 7)) (i : Nat) : BitVec 16 :=
  if bad.any fun b => b.toNat == i then 0xFFFF else if sget 0 h.code (g.toNat * 128 + i) = 0xFFFF then 0xFFFF else 0

/-- HBM when the copy of a granule is done, before the held writes. -/
def Hbm.remapped (h : Hbm) (g : BitVec 25) (bad : List (BitVec 7)) (r : Retiring) : Hbm :=
  { h with retiring := h.retiring.filter fun x => x.granule != g, remap := sset 0 h.remap g.toNat (r.spare + 1),
           code := (List.range 128).foldl (fun t i => sset 0 t (g.toNat * 128 + i) (h.copiedCode g bad i)) h.code }

theorem Hbm.remap_remapped (h : Hbm) (g : BitVec 25) (bad : List (BitVec 7)) (r : Retiring) :
    (h.remapped g bad r).remap = sset 0 h.remap g.toNat (r.spare + 1) := rfl

theorem Hbm.poisoned_remapped (h : Hbm) (g : BitVec 25) (bad : List (BitVec 7)) (r : Retiring) (i : BitVec 7) :
    (h.remapped g bad r).poisoned (g.toNat * 128 + i.toNat) = (decide (i ∈ bad) || h.poisoned (g.toNat * 128 + i.toNat)) := by
  have hi := i.isLt
  have hany : (bad.any fun b => b.toNat == i.toNat) = decide (i ∈ bad) := by
    rw [Bool.eq_iff_iff, List.any_eq_true, decide_eq_true_iff]
    exact ⟨fun ⟨b, hb, he⟩ => BitVec.eq_of_toNat_eq (beq_iff_eq.1 he) ▸ hb, fun hb => ⟨i, hb, beq_self_eq_true _⟩⟩
  rw [Hbm.poisoned, Hbm.remapped, sget_foldl_range, if_pos (by omega), Nat.add_sub_cancel_left, Hbm.copiedCode, hany, Hbm.poisoned]
  by_cases hb : i ∈ bad
  · simp [hb]
  · simp [hb]

theorem Hbm.poisoned_remapped_other (h : Hbm) (g : BitVec 25) (bad : List (BitVec 7)) (r : Retiring) {x : Nat} (hx : x / 128 ≠ g.toNat) :
    (h.remapped g bad r).poisoned x = h.poisoned x := by
  rw [Hbm.poisoned, Hbm.remapped, sget_foldl_range, if_neg (by omega), Hbm.poisoned]

/-- Settles O29. -/
theorem retirement : Obligations.Retirement := by
  intro s g bad
  refine ⟨fun hn => ?_, fun r hr => ⟨{ s with hbm := s.hbm.remapped g bad r }, ?_, rfl, ?_, rfl, rfl, fun i hi => ?_, fun i hi => ?_, fun x hx => ?_,
    fun x hx => ?_⟩⟩
  · exact (finishAll_eq s _).trans (by simp only [State.retireDone, hn])
  · refine (finishAll_eq s _).trans ?_
    unfold State.retireDone
    rw [hr]
    rfl
  · rw [Hbm.remap_remapped, sget_sset_same]
  · rw [Hbm.poisoned_remapped, decide_eq_true hi, Bool.true_or]
  · rw [Hbm.poisoned_remapped, decide_eq_false hi, Bool.false_or]
  · exact Hbm.poisoned_remapped_other _ _ _ _ hx
  · rw [Hbm.remap_remapped, sget_sset_other _ _ _ _ _ hx]

end Sys2Proof.Machine
end

section
/-!
PROOFS about the queue pairs of the export engine (13 R394-R400).
-/

namespace Sys2Proof.Machine

variable {s t u : State}

/-! ### What an update of the device's own structures leaves (10 R285) -/

/-- From `s` to `t` memory and the pools changed, and nothing else. -/
def State.OnlyPools (s t : State) : Prop := t = { s with hbm := t.hbm, xlt := t.xlt }

namespace State.OnlyPools

theorem refl (s : State) : s.OnlyPools s := rfl

theorem trans (h : s.OnlyPools t) (h' : t.OnlyPools u) : s.OnlyPools u :=
  Eq.trans h' (congrArg (fun v : State => { v with hbm := u.hbm, xlt := u.xlt }) h)

theorem foldl {α : Type} {f : State → α → State} (h : ∀ (v : State) (a : α), v.OnlyPools (f v a)) (as : List α) (s : State) :
    s.OnlyPools (as.foldl f s) :=
  List.foldlRecOn (motive := s.OnlyPools) as f (.refl s) fun v hv a _ => hv.trans (h v a)

theorem ite {c : Prop} [Decidable c] (ht : s.OnlyPools t) (hu : s.OnlyPools u) : s.OnlyPools (if c then t else u) := by
  split
  · exact ht
  · exact hu

theorem out (h : s.OnlyPools t) : t.out = s.out := by rw [h]

theorem qce (h : s.OnlyPools t) : t.qce = s.qce := by rw [h]

theorem exp (h : s.OnlyPools t) : t.exp = s.exp := by rw [h]

end State.OnlyPools

theorem State.ownRead_onlyPools (s : State) (pa n : Nat) : s.OnlyPools (s.ownRead pa n) := by
  simp only [State.ownRead]
  split <;> rfl

theorem State.ownWrite_onlyPools (s : State) (pa : Nat) (bs : List Byte) : s.OnlyPools (s.ownWrite pa bs) := by
  simp only [State.ownWrite]
  split <;> rfl

theorem State.modPool_onlyPools (s : State) (q : Nat) (f : Pool → Pool) : s.OnlyPools (s.modPool q f) := rfl

theorem State.setKhdr_onlyPools (s : State) (q x : Nat) (h : KHdr) : s.OnlyPools (s.setKhdr q x h) := by
  simp only [State.setKhdr]
  split
  · rfl
  · exact s.ownWrite_onlyPools _ _

theorem State.freePage_onlyPools (s : State) (q x : Nat) : s.OnlyPools (s.freePage q x) :=
  ((s.ownWrite_onlyPools _ _).trans (State.ownWrite_onlyPools _ _ _)).trans (State.modPool_onlyPools _ q _)

theorem State.reclCompact_onlyPools (s : State) (q : Nat) : s.OnlyPools (s.reclCompact q) :=
  ((State.OnlyPools.foldl (fun v _ => (v.ownRead_onlyPools _ _).trans (State.ownRead_onlyPools _ _ _)) _ s).trans
    (State.ownWrite_onlyPools _ _ _)).trans (State.modPool_onlyPools _ q _)

theorem State.reclAdd_onlyPools (s : State) (q x : Nat) (gen : BitVec 16) : s.OnlyPools (s.reclAdd q x gen) := by
  have hroom : s.OnlyPools (if (s.pool q).reclLen ≥ 2 * (s.pool q).pages then s.reclCompact q else s) := .ite (s.reclCompact_onlyPools q) (.refl s)
  exact (hroom.trans (State.ownWrite_onlyPools _ _ _)).trans (State.modPool_onlyPools _ q _)

theorem State.clearPend_onlyPools (s : State) (q x u : Nat) : s.OnlyPools (s.clearPend q x u) := by
  simp only [State.clearPend]
  exact .ite (s.freePage_onlyPools q x)
    (.ite ((s.setKhdr_onlyPools q x _).trans (State.reclAdd_onlyPools _ _ _ _)) (s.setKhdr_onlyPools q x _))

/-! ### Subscribers -/

variable {seq : Word} {n : Nat}

theorem State.sub_modSub_same (s : State) (seq : Word) (n : Nat) (f : Sub → Sub) : (s.modSub seq n f).sub seq n = f (s.sub seq n) := by
  simp [State.sub, State.modSub, State.modSeq, State.expSeq]

/-- A change of a subscriber is a change of what it is. -/
theorem State.modSub_congr {f g : Sub → Sub} (h : f (s.sub seq n) = g (s.sub seq n)) : s.modSub seq n f = s.modSub seq n g := by
  simp only [State.sub, State.expSeq] at h
  simp only [State.modSub, State.modSeq, smod, h]

theorem State.OnlyPools.sub (h : s.OnlyPools t) : t.sub seq n = s.sub seq n := by simp only [State.sub, State.expSeq, h.exp]

section
variable {q psn : BitVec 24} (hq : s.subOf q = some (seq, n))
include hq

theorem State.withSub_some (f : State → Word → Nat → State) : s.withSub q f = f s seq n := by
  simp only [State.withSub, hq]

end

theorem State.withSub_none {q : BitVec 24} (hq : s.subOf q = none) (f : State → Word → Nat → State) : s.withSub q f = s := by
  simp only [State.withSub, hq]

/-- A PSN before the first unacknowledged one acknowledges nothing. -/
theorem State.roceAcked_none {psn : BitVec 24} (h : (s.sub seq n).una = (s.sub seq n).psn ∨ psnLe (s.sub seq n).una psn = false) :
    s.roceAcked seq n psn = s := by
  refine if_pos ?_
  rcases h with h | h <;> simp [h]

theorem psnLe_before (a : BitVec 24) : psnLe a (a - 1) = false := by
  have h : a - 1 - a = 0xFFFFFF#24 := by bv_omega
  rw [psnLe, h]
  rfl

/-- A NAK of the first unacknowledged PSN acknowledges nothing. -/
theorem State.roceAcked_before (s : State) (seq : Word) (n : Nat) : s.roceAcked seq n ((s.sub seq n).una - 1) = s :=
  State.roceAcked_none (.inr (psnLe_before _))

/-- The pages that an ACK covers. -/
def Sub.covered (b : Sub) (psn : BitVec 24) : List Handoff :=
  b.queue.takeWhile fun h => match h.last b.pmtu with | some e => psnLe e psn | none => false

/-- The pend bits of a slot's pages are cleared. -/
def State.clearPends (s : State) (n : Nat) (hs : List Handoff) : State := hs.foldl (fun s h => s.clearPend h.pool.val h.page n) s

theorem State.clearPends_onlyPools (s : State) (n : Nat) (hs : List Handoff) : s.OnlyPools (s.clearPends n hs) := by
  induction hs generalizing s with
  | nil => exact .refl s
  | cons h hs ih => exact (s.clearPend_onlyPools _ _ n).trans (ih _)

/-- An ACK of outstanding PSNs clears the pend bits of the pages that it covers, and the subscriber takes it. -/
theorem State.roceAcked_covers {psn : BitVec 24} (hn : (s.sub seq n).una ≠ (s.sub seq n).psn) (hl : psnLe (s.sub seq n).una psn = true)
    (hh : psnLe psn ((s.sub seq n).psn - 1) = true) :
    s.roceAcked seq n psn = (s.clearPends n ((s.sub seq n).covered psn)).modSub seq n fun b => { b with
      una := psn + 1, acked := b.acked + ((s.sub seq n).covered psn).length, queue := b.queue.drop ((s.sub seq n).covered psn).length, tries := 0,
      rnrTries := 0 } := by
  have hcond : ((s.sub seq n).una == (s.sub seq n).psn || !psnLe (s.sub seq n).una psn || !psnLe psn ((s.sub seq n).psn - 1)) = false := by
    rw [hl, hh, beq_eq_false_iff_ne.2 hn]
    rfl
  unfold State.roceAcked
  exact if_neg (Bool.eq_false_iff.1 hcond)

/-- The subscriber tries again from its first unacknowledged PSN. -/
def State.again (s : State) (seq : Word) (n : Nat) : State := (s.modSub seq n fun b => { b with tries := b.tries + 1 }).goBack seq n

theorem State.retrySub_again (hn : (s.sub seq n).una ≠ (s.sub seq n).psn) (ht : (s.sub seq n).tries < 7) : s.retrySub seq n = s.again seq n := by
  rw [State.retrySub, if_neg (by simpa using hn), if_neg (Nat.not_le.2 ht)]
  rfl

theorem State.retrySub_drops (hn : (s.sub seq n).una ≠ (s.sub seq n).psn) (ht : 7 ≤ (s.sub seq n).tries) :
    s.retrySub seq n = s.dropSub seq n 2 := by
  rw [State.retrySub, if_neg (by simpa using hn), if_pos ht]

section
variable {q : BitVec 24} (hq : s.subOf q = some (seq, n))
include hq

theorem State.nakSequence_some : s.nakSequence q (s.sub seq n).una = s.retrySub seq n := by
  rw [State.nakSequence, State.withSub_some hq, State.roceAcked_before]

theorem State.roceTimeout_some (hw : (s.sub seq n).rnrWait = none) : s.roceTimeout q = s.retrySub seq n := by
  rw [State.roceTimeout, State.withSub_some hq, hw]
  rfl

theorem State.roceTimeout_waits (hw : (s.sub seq n).rnrWait ≠ none) : s.roceTimeout q = s := by
  rw [State.roceTimeout, State.withSub_some hq, if_pos (Option.isSome_iff_ne_none.2 hw)]

theorem State.nakRnr_waits (ht : (s.sub seq n).rnrTries < 7) (timer : Nat) : s.nakRnr q (s.sub seq n).una timer =
    s.modSub seq n fun b => { b with rnrTries := b.rnrTries + 1, rnrWait := some timer } := by
  rw [State.nakRnr, State.withSub_some hq, State.roceAcked_before]
  exact if_neg (Nat.not_le.2 ht)

theorem State.nakRnr_drops (ht : 7 ≤ (s.sub seq n).rnrTries) (timer : Nat) : s.nakRnr q (s.sub seq n).una timer = s.dropSub seq n 2 := by
  rw [State.nakRnr, State.withSub_some hq, State.roceAcked_before]
  exact if_pos ht

theorem State.rnrExpiry_waits (hw : (s.sub seq n).rnrWait ≠ none) :
    s.rnrExpiry q = (s.modSub seq n fun b => { b with rnrWait := none }).goBack seq n := by
  rw [State.rnrExpiry, State.withSub_some hq, if_neg (by simpa using hw)]

theorem State.rnrExpiry_none (hw : (s.sub seq n).rnrWait = none) : s.rnrExpiry q = s := by
  rw [State.rnrExpiry, State.withSub_some hq, hw]
  rfl

end

/-! ### A close (13 R400) -/

theorem State.exportCloseDone_waits (h : (s.expSeq seq).closing = none ∨ ∃ u ∈ (s.expSeq seq).openSubs, (s.sub seq u).queue ≠ []) :
    (s.exportCloseDone seq).1 = s := by
  simp only [State.exportCloseDone]
  split
  · rfl
  · next qid hc =>
    have hopen : ((s.expSeq seq).openSubs.any fun u => !(s.sub seq u).queue.isEmpty) = true := by
      rcases h with h | ⟨u, hu, hne⟩
      · exact absurd (hc.symm.trans h) nofun
      · exact List.any_eq_true.2 ⟨u, hu, by simpa using hne⟩
    rw [if_pos hopen]

/-- The state in which the slots of a sequence are released. -/
def State.closed (s : State) (seq : Word) : State := s.modSeq seq fun e => { e with subs := [], closing := none }

theorem State.exportCloseDone_completes {q : BitVec 12} {m : RxMsg} {p : InProgress} (hc : (s.expSeq seq).closing = some q)
    (hq : ∀ u ∈ (s.expSeq seq).openSubs, (s.sub seq u).queue = []) (hm : (s.queue q).cur = some (m, p)) :
    (s.exportCloseDone seq).1 =
      ((s.closed seq).complete q m.cookie { cmd := 6, type := 1, result := (s.expSeq seq).report }).clearCur q := by
  have hnone : ((s.expSeq seq).openSubs.any fun u => !(s.sub seq u).queue.isEmpty) = false :=
    List.any_eq_false.2 fun u hu => by simp [hq u hu]
  have hm' : ((s.closed seq).queue q).cur = some (m, p) := hm
  simp only [State.exportCloseDone, hc, hnone, Bool.false_eq_true, if_false]
  rw [← State.closed, hm']

/-- Settles O52. -/
theorem queuePairs : Obligations.QueuePairs := by
  refine ⟨fun s n psn timer hn => ⟨?_, ?_, ?_, ?_, ?_, ?_, ?_, ?_⟩,
    fun s q psn timer seq n hq _ => ⟨fun hn hl hh => ?_, fun h => ?_, fun hn => ⟨fun ht => ?_, fun ht => ?_, fun hw ht => ?_, fun hw ht => ?_⟩,
      fun hw => ?_, fun ht => ?_, fun ht => ?_, fun hw => ?_, fun hw => ?_, ?_, ?_, ?_⟩,
    fun s seq => ⟨fun h => ?_, fun q m p hc hq hm => ?_⟩⟩
  · exact (finishAll_eq s _).trans (by rw [State.roceAck, State.withSub_none hn])
  · exact (finishAll_eq s _).trans (by rw [State.nakSequence, State.withSub_none hn])
  · exact (finishAll_eq s _).trans (by rw [State.nakRnr, State.withSub_none hn])
  · exact (finishAll_eq s _).trans (by rw [State.nakRemote, State.withSub_none hn])
  · exact congrArg Host.Outcome.next (State.withSub_none hn _)
  · exact (finishAll_eq s _).trans (by rw [State.roceTimeout, State.withSub_none hn])
  · exact (finishAll_eq s _).trans (by rw [State.rnrExpiry, State.withSub_none hn])
  · exact congrArg Host.Outcome.next (State.withSub_none hn _)
  · have hv := s.clearPends_onlyPools n ((s.sub seq n).covered psn)
    refine ⟨s.roceAcked seq n psn, (finishAll_eq s _).trans (by rw [State.roceAck, State.withSub_some hq]), ?_, ?_, ?_⟩
    · rw [State.roceAcked_covers hn hl hh, State.sub_modSub_same, hv.sub]
      rfl
    · rw [State.roceAcked_covers hn hl hh]
      exact hv.out
    · rw [State.roceAcked_covers hn hl hh]
      exact hv.qce
  · exact (finishAll_eq s _).trans (by rw [State.roceAck, State.withSub_some hq, State.roceAcked_none h])
  · exact (finishAll_eq s _).trans (by rw [State.nakSequence_some hq, State.retrySub_again hn ht]; rfl)
  · exact (finishAll_eq s _).trans (by rw [State.nakSequence_some hq, State.retrySub_drops hn ht])
  · exact (finishAll_eq s _).trans (by rw [State.roceTimeout_some hq hw, State.retrySub_again hn ht]; rfl)
  · exact (finishAll_eq s _).trans (by rw [State.roceTimeout_some hq hw, State.retrySub_drops hn ht])
  · exact (finishAll_eq s _).trans (by rw [State.roceTimeout_waits hq hw])
  · exact (finishAll_eq s _).trans (by rw [State.nakRnr_waits hq ht])
  · exact (finishAll_eq s _).trans (by rw [State.nakRnr_drops hq ht])
  · exact (finishAll_eq s _).trans (by rw [State.rnrExpiry_waits hq hw])
  · exact (finishAll_eq s _).trans (by rw [State.rnrExpiry_none hq hw])
  · exact (finishAll_eq s _).trans (by rw [State.nakRemote, State.withSub_some hq])
  · exact congrArg Host.Outcome.next (State.withSub_some hq _)
  · exact congrArg Host.Outcome.next (State.withSub_some hq _)
  · exact (finishAll_eq s _).trans (by rw [State.exportCloseDone_waits h])
  · exact (finishAll_eq s _).trans (by rw [State.exportCloseDone_completes hc hq hm]; rfl)

/-! ### A page is sent (13 R394, R395, R398) -/

theorem State.roceNet_emit (s : State) (o : Out) (b : Sub) : (s.emit o).roceNet b = s.roceNet b := rfl

theorem State.foldl_rdma (b : Sub) (ps : List RdmaPkt) (s : State) :
    ps.foldl (fun s p => s.emit (.rdma (s.roceNet b) b.rqpn p)) s = s.emitAll (ps.map fun p => .rdma (s.roceNet b) b.rqpn p) := by
  induction ps generalizing s with
  | nil => exact congrArg (fun o => { s with out := o }) (List.append_nil s.out).symm
  | cons p ps ih =>
    rw [List.foldl_cons, ih, State.roceNet_emit]
    simp only [State.emit, State.emitAll, List.map_cons, List.append_assoc, List.cons_append, List.nil_append]

theorem Hbm.length_read (h : Hbm) (pa n : Nat) : (h.read pa n).length = n := by simp [Hbm.read, sread]

/-- The packets of one RDMA WRITE, one by one. -/
theorem writePackets_eq (pmtu : BitVec 3) (first : BitVec 24) (addr : Dword) (rkey imm : Word) (bs : List Byte) :
    writePackets pmtu first addr rkey imm bs =
      (let m := 128 * 2 ^ pmtu.toNat
       let n := (bs.length + m - 1) / m
       (List.range n).map fun j =>
         { op := if j = 0 then (if n = 1 then .onlyImm else .first) else if j + 1 = n then .lastImm else .middle, psn := first + .ofNat 24 j,
           reth := if j = 0 then some (addr, rkey, bs.length) else none, imm := if j + 1 = n then some imm else none,
           bytes := (bs.drop (j * m)).take m }) := by
  refine List.map_congr_left fun j _ => ?_
  by_cases h0 : j = 0
  · subst h0
    simp only [if_true, beq_iff_eq, Nat.zero_add, eq_comm (a := 1)]
    rfl
  · simp only [if_neg h0, beq_iff_eq]
    rfl

/-- Where a page stands. -/
def State.pagePa (s : State) (h : Handoff) : Nat := (s.pool h.pool.val).framePa h.pool.val h.page

/-- The packets of a page of a subscriber, from PSN `first` on. -/
def State.pagePackets (s : State) (b : Sub) (h : Handoff) (first : BitVec 24) : List RdmaPkt :=
  writePackets b.pmtu first (b.rBase + .ofNat 64 (h.layer.toNat * b.lstride.toNat + h.index * granOf h.pool.val)) b.rkey
    (.ofNat 32 (b.tag.toNat * 2 ^ 21 + h.layer.toNat * 2 ^ 13 + h.index % 8192)) (s.hbm.read (s.pagePa h) (granOf h.pool.val))

theorem State.sendPage_whole {h : Handoff} (hp : s.hbm.poisonIn (s.pagePa h) (granOf h.pool.val) = none) (first : BitVec 24) :
    s.sendPage seq n h first first =
      s.emitAll ((s.pagePackets (s.sub seq n) h first).map fun p => .rdma (s.roceNet (s.sub seq n)) (s.sub seq n).rqpn p) := by
  have hdrop : (first - first).toNat = 0 := by rw [BitVec.sub_self]; rfl
  rw [State.pagePa] at hp
  simp only [State.sendPage, State.pagePackets, State.pagePa, hp, hdrop, List.drop_zero, State.foldl_rdma]

theorem State.sendPage_lost {h : Handoff} (hp : s.hbm.poisonIn (s.pagePa h) (granOf h.pool.val) ≠ none) (first from' : BitVec 24) :
    s.sendPage seq n h first from' = s.dropSubs seq 6 := by
  obtain ⟨b, hb⟩ := Option.ne_none_iff_exists'.1 hp
  unfold State.pagePa at hb
  simp only [State.sendPage, hb]

theorem State.pageSend_notTurn {q : BitVec 24} (hq : s.subOf q = some (seq, n)) (ht : s.turn q = false) : s.pageSend q = s := by
  simp only [State.pageSend, hq, ht, Bool.not_false, Bool.or_true, Bool.true_or, if_true]
  split <;> rfl

/-- The state in which the oldest unsent page of a subscriber has its PSNs. -/
def State.paged (s : State) (q : BitVec 24) (seq : Word) (n i : Nat) (h : Handoff) : State :=
  let v := s.modSub seq n fun b =>
    { b with queue := b.queue.set i { h with psn := some b.psn }, psn := b.psn + .ofNat 24 (packets h.pool.val b.pmtu) }
  { v with exp := { v.exp with lastTurn := q } }

theorem State.pageSend_sends {q : BitVec 24} {i : Nat} {h : Handoff} (hq : s.subOf q = some (seq, n)) (ht : s.turn q = true)
    (ho : (s.sub seq n).isOpen = true) (hi : ((s.sub seq n).queue.findIdx? fun h => h.psn.isNone) = some i)
    (hh : (s.sub seq n).queue[i]? = some h) (hf : (s.sub seq n).inFlight < (s.sub seq n).window) (hr : (s.sub seq n).rnrWait = none)
    (hd : s.err.drained = false) : s.pageSend q = (s.paged q seq n i h).sendPage seq n h (s.sub seq n).psn (s.sub seq n).psn := by
  have hany : ((s.sub seq n).queue.any fun h => h.psn.isNone) = true := by
    obtain ⟨hlt, hnone, -⟩ := List.findIdx?_eq_some_iff_getElem.1 hi
    exact List.any_eq_true.2 ⟨_, List.getElem_mem hlt, hnone⟩
  have hready : (s.sub seq n).ready = true := by rw [Sub.ready, ho, hany, decide_eq_true hf, hr]; rfl
  simp only [State.pageSend, hq, hi, hh, hready, ht, hd, Bool.not_true, Bool.or_self, Bool.false_eq_true, if_false]
  rfl

theorem State.sub_paged (s : State) (q : BitVec 24) (seq : Word) (n i : Nat) (h : Handoff) : (s.paged q seq n i h).sub seq n =
    { s.sub seq n with queue := (s.sub seq n).queue.set i { h with psn := some (s.sub seq n).psn },
                       psn := (s.sub seq n).psn + .ofNat 24 (packets h.pool.val (s.sub seq n).pmtu) } :=
  s.sub_modSub_same seq n _

/-- Settles O24. -/
theorem pagesAreSent : Obligations.PagesAreSent := by
  intro s q seq u i h hq b g pa m n v s' pkt
  refine ⟨fun ht => ?_, fun ht ho hi hh hf hr hd => ?_⟩
  · exact (finishAll_eq s _).trans (by rw [State.pageSend_notTurn hq ht])
  have hs' : s.paged q seq u i h = s' :=
    congrArg (fun v : State => { v with exp := { v.exp with lastTurn := q } }) (State.modSub_congr rfl)
  have hsend : exec (.exportPageSend q) s = .next (s.after (s'.sendPage seq u h b.psn b.psn)) :=
    (finishAll_eq s _).trans (by rw [State.pageSend_sends hq ht ho hi hh hf hr hd, hs'])
  refine ⟨fun hp _ => ?_, fun hp => ?_⟩
  · have hb : s'.sub seq u = { b with queue := b.queue.set i { h with psn := some b.psn }, psn := b.psn + .ofNat 24 n } := by
      rw [← hs', State.sub_paged]
      rfl
    have hpackets : s'.pagePackets (s'.sub seq u) h b.psn = (List.range n).map pkt := by
      have hlen : (s.hbm.read pa g).length = g := Hbm.length_read _ _ _
      rw [hb]
      show writePackets b.pmtu _ _ _ _ (s.hbm.read pa g) = _
      rw [writePackets_eq, hlen]
    rw [hsend, State.sendPage_whole (s := s') hp, hpackets, hb, List.map_map]
    rfl
  · rw [hsend, State.sendPage_lost (s := s') hp]

end Sys2Proof.Machine
end

section
/-!
PROOFS about the life of a launch: its acceptance (13 R383, R384), its save and its restore (04 R135, R136).
-/

namespace Sys2Proof.Machine

variable {s t u : State}

/-! ### Queues -/

@[simp] theorem State.queue_modQueue_same (s : State) (q : BitVec 12) (f : Queue → Queue) : (s.modQueue q f).queue q = f (s.queue q) := by
  simp [State.queue, State.modQueue]

/-- Using an entry reaches the cache of entries alone (13 R389). -/
theorem State.useEntry_only (s : State) (q : BitVec 12) :
    ∃ l n, s.useEntry q = { s with qce := { s.qce with cached := l, misses := n } } := by
  simp only [State.useEntry]
  split <;> exact ⟨_, _, rfl⟩

theorem State.queue_useEntry (s : State) (q x : BitVec 12) : (s.useEntry q).queue x = s.queue x := by
  obtain ⟨l, n, h⟩ := s.useEntry_only q
  rw [h]
  rfl

/-! ### Acceptance (13 R383, R384) -/

section
variable {qid : BitVec 12} {m : RxMsg} {b : List Word} (hc : (s.queue qid).cur = some (m, .launchWait b))
include hc

theorem State.tryAccept_err (he : (s.queue qid).err = true) :
    s.tryAccept qid = (s.complete qid m.cookie { cmd := 2, type := 1, code := eQueueError, result := [] }).clearCur qid := by
  simp only [State.tryAccept, hc, he, if_true]

theorem State.tryAccept_refused {c : Code} (he : (s.queue qid).err = false) (hr : s.launchRefusal (parseLaunch b) = some c) :
    s.tryAccept qid = (s.complete qid m.cookie { cmd := 2, type := 1, code := c, result := [] }).clearCur qid := by
  simp only [State.tryAccept, hc, he, hr, Bool.false_eq_true, if_false]

variable (he : (s.queue qid).err = false) (hr : s.launchRefusal (parseLaunch b) = none)
include he hr

theorem State.tryAccept_full (hf : 4 ≤ s.launches.length ∨ 256 ≤ (s.qce.queues.filter fun e => e.2.qstate != 0).length) : s.tryAccept qid = s := by
  simp only [State.tryAccept, hc, he, hr, Bool.false_eq_true, if_false]
  exact if_pos hf

variable (hf : ¬(4 ≤ s.launches.length ∨ 256 ≤ (s.qce.queues.filter fun e => e.2.qstate != 0).length))
include hf

/-- With room, the launch is accepted, or fails with its memory. -/
theorem State.tryAccept_room : s.tryAccept qid =
    match s.acceptMemory (s.queue qid).ctx (parseLaunch b) with
    | (u, .error e) => if e.1 = heldCode then s else
        (u.complete qid m.cookie { cmd := 2, type := 1, code := e.1, result := e.2 }).clearCur qid
    | (u, .ok args) => ((u.useEntry qid).acceptLaunch qid m.cookie (parseLaunch b) args).modQueue qid fun q => { q with cur := some (m, .launched) } := by
  simp only [State.tryAccept, hc, he, hr, Bool.false_eq_true, if_false]
  exact if_neg hf

end

/-- Settles O51. -/
theorem launchAccepted : Obligations.LaunchAccepted := by
  intro s qid m b hc r q full fails
  refine ⟨fun he => ?_, fun c he hr => ?_, fun he hr hf => ?_, fun he hr hf => ⟨fun u f hm hh => ?_, fun u f hm hh => ?_, fun u args hm => ?_⟩⟩
  · exact (finishAll_eq s _).trans (by rw [State.tryAccept_err hc he]; rfl)
  · exact (finishAll_eq s _).trans (by rw [State.tryAccept_refused hc he hr]; rfl)
  · exact (finishAll_eq s _).trans (by rw [State.tryAccept_full hc he hr hf])
  · refine (finishAll_eq s _).trans ?_
    rw [State.tryAccept_room hc he hr hf, hm]
    exact congrArg (fun v => Host.Outcome.next (s.after v)) (if_neg hh)
  · refine (finishAll_eq s _).trans ?_
    rw [State.tryAccept_room hc he hr hf, hm]
    exact congrArg (fun v => Host.Outcome.next (s.after v)) (if_pos hh)
  · have hroom : s.tryAccept qid =
        ((u.useEntry qid).acceptLaunch qid m.cookie (parseLaunch b) args).modQueue qid fun q => { q with cur := some (m, .launched) } := by
      rw [State.tryAccept_room hc he hr hf, hm]
    obtain ⟨l, n, huse⟩ := u.useEntry_only qid
    rw [huse] at hroom
    refine ⟨({ u with qce := { u.qce with cached := l, misses := n } } : State).acceptLaunch qid m.cookie (parseLaunch b) args |>.modQueue qid
      fun q => { q with cur := some (m, .launched) }, _, (finishAll_eq s _).trans (by rw [hroom]), rfl, rfl, rfl, rfl, rfl, rfl, rfl, rfl, rfl, rfl, rfl, rfl, rfl, rfl, rfl, ?_, ?_, rfl⟩
    · rw [State.queue_modQueue_same]
      exact congrArg Queue.qstate (State.queue_modQueue_same _ _ _)
    · rw [State.queue_modQueue_same]

/-! ### Save and restore (04 R135, R136) -/

/-- Steps that leave a value as it is leave it so in a row. -/
theorem foldl_fixed {α β : Type} {f : β → α → β} {r : β} {as : List α} (h : ∀ a ∈ as, f r a = r) : as.foldl f r = r :=
  List.foldlRecOn (motive := (· = r)) as f rfl fun v hv a ha => by rw [hv, h a ha]

theorem State.modLaunch_eq (s : State) (q : BitVec 12) (f : Launch → Launch) :
    s.modLaunch q f = { s with launches := s.launches.map fun l => if l.qid = q then f l else l } := by
  simp only [State.modLaunch, beq_iff_eq]

/-- Two changes of a launch, one after the other, of which the first leaves its queue as it is. -/
theorem map_modLaunch_twice (q : BitVec 12) (f g : Launch → Launch) (hf : ∀ l, (f l).qid = l.qid) (ls : List Launch) :
    ((ls.map fun l => if l.qid = q then f l else l).map fun l => if l.qid = q then g l else l) = ls.map fun l => if l.qid = q then g (f l) else l := by
  rw [List.map_map]
  refine List.map_congr_left fun l _ => ?_
  by_cases h : l.qid = q
  · simp [h, hf]
  · simp [h]

/-- A change of a launch that no other resident launch stands beside makes it the resident one. -/
theorem resident_of_modLaunch {q : BitVec 12} {l : Launch} {ls : List Launch} {f : Launch → Launch} (hl : (ls.find? fun l => l.qid == q) = some l)
    (hr : (ls.find? fun l => l.cond == .resident) = none) (hf : ∀ m, (f m).cond = .resident) :
    ((ls.map fun l => if l.qid = q then f l else l).find? fun l => l.cond == .resident) = some (f l) := by
  induction ls with
  | nil => exact absurd hl nofun
  | cons m ms ih =>
    obtain ⟨hm, hms⟩ := List.forall_mem_cons.1 (List.find?_eq_none.1 hr)
    by_cases h : m.qid = q
    · rw [List.find?_cons_of_pos (by simpa using h)] at hl
      obtain rfl := Option.some.inj hl
      rw [List.map_cons, if_pos h, List.find?_cons_of_pos (by simp [hf])]
    · rw [List.find?_cons_of_neg (by simpa using h)] at hl
      rw [List.map_cons, if_neg h, List.find?_cons_of_neg (by simpa using hm)]
      exact ih hl (List.find?_eq_none.2 hms)

theorem State.resident_of_running {l : Launch} (h : s.running = some l) : s.resident = some l := by
  unfold State.running at h
  split at h
  · next m hm =>
    split at h
    · rwa [hm]
    · exact absurd h nofun
  · exact absurd h nofun

theorem nextInTurn_nil (last : BitVec 12) : nextInTurn last [] = none := rfl

/-- No chunk of another job's collective starts. -/
theorem State.pump_of_foreign (h : ∀ c ∈ s.col.colls, ∀ l, s.resident = some l → c.jobTag ≠ l.jobTag) : s.pump [] = (s, false) := by
  rw [State.pump]
  generalize s.col.colls.foldl _ 0 = fuel
  cases fuel with
  | zero => rfl
  | succ fuel =>
    rw [pumpGo]
    split
    · rfl
    · next l hl =>
      split
      · rfl
      · next x hx =>
        have hnone : (s.col.colls.filter fun c => c.jobTag == l.jobTag && s.mayStart x c) = [] :=
          List.filter_eq_nil_iff.2 fun c hc => by simp [h c hc l (State.resident_of_running hl)]
        rw [hnone, nextInTurn_nil]

/-- Collectives of other jobs than the resident launch's are not decided, and no chunk of theirs starts. -/
theorem State.decideAll_of_foreign (h : ∀ c ∈ s.col.colls, ∀ l, s.resident = some l → c.jobTag ≠ l.jobTag) : s.decideAll [] = (s, false) := by
  have hjob : ∀ c ∈ s.col.colls, s.jobLaunch c.jobTag = none := fun c hc => by
    unfold State.jobLaunch
    split
    · next l hl => exact if_neg (by simpa using (h c hc l hl).symm)
    · rfl
  unfold State.decideAll
  rw [foldl_fixed fun c hc => by simp only [hjob c (List.mem_filter.1 hc).1]]
  simp only [State.pump_of_foreign h, Bool.or_self]

/-- Nothing of a launch was halted: nothing of it resumes. -/
theorem State.resumeUnits_idle (hf : ∀ c, ∀ f ∈ (s.core c).flight, f.haltedAt = none) (he : ∀ c, (s.core c).eng = [])
    (hc : ∀ c ∈ s.col.colls, ∀ l, s.resident = some l → c.jobTag ≠ l.jobTag) (qid : BitVec 12) : s.resumeUnits qid = (s, false) := by
  have hflights (c : Nat) : ((s.core c).flight.filter fun f => f.haltedAt.isSome) = [] :=
    List.filter_eq_nil_iff.2 fun f hm => by simp [hf c f hm]
  have hstream (c : Nat) (e : Fin 4) : s.resumeStream c e = s := by
    have hhead : (s.core c).headStream e = none := by simp only [Core.headStream, Core.engHead, he c]; rfl
    unfold State.resumeStream
    split
    · next hh => exact absurd (hhead.symm.trans hh) nofun
    · rfl
  have hcolls (l : Launch) (hl : s.running = some l) : s.resumeColls l = (s, false) := by
    have hnone : (s.col.colls.filter fun c => c.jobTag == l.jobTag && !c.isBarrier) = [] :=
      List.filter_eq_nil_iff.2 fun c hm => by simp [hc c hm l (State.resident_of_running hl)]
    simp only [State.resumeColls, hnone, List.foldl_nil, State.decideAll_of_foreign hc, Bool.or_self]
  dsimp only [State.resumeUnits]
  rw [foldl_fixed (r := (s, false)) (as := List.range 64) ?flights, foldl_fixed (r := (s, false)) (as := List.range 64) ?streams]
  · split
    · next l hl =>
      split
      · rw [hcolls l hl]
        rfl
      · rfl
    · rfl
  case streams =>
    refine fun c _ => foldl_fixed fun e _ => ?_
    split
    · split
      · rw [hstream c e]
        rfl
      · rfl
    · rfl
  case flights => exact fun c _ => by rw [hflights, List.foldl_nil]

/-- A saved launch as it goes on when its restore has completed. -/
def Launch.restored (l : Launch) (cnt : Dword) : Launch :=
  { l with cond := .resident, saved := [], run := .running, resumeOrder := none, suspended := none,
           start := match l.suspended with | some k => l.start.map fun a => a + (cnt - k) | none => l.start }

/-- The state in which a restored launch goes on. -/
def State.restored (s : State) (q : BitVec 12) (l : Launch) : State :=
  { s with restoring := none, cores := l.saved, barPassed := l.barPassed,
           launches := s.launches.map fun m => if m.qid = q then m.restored s.fab.cnt else m,
           qce := { s.qce with queues := smod {} s.qce.queues q.toNat fun x => { x with qstate := 1 } } }

theorem State.restoreDone_goesOn {q : BitVec 12} {l : Launch} (hr : s.restoring = some q) (hl : s.launchOf q = some l)
    (hb : l.barrierDue = false) (ha : l.start ≠ none) : s.restoreDone = (s.restored q l).resumeUnits q := by
  have hno : (l.barrierDue || l.start.isNone) = false := by
    rw [hb, Bool.false_or, Option.isNone_eq_false_iff, Option.isSome_iff_ne_none]
    exact ha
  simp only [State.restoreDone, hr, hl, hno, Bool.false_eq_true, if_false, State.goOn, State.modLaunch_eq]
  rw [map_modLaunch_twice q (fun l => { l with cond := .resident, saved := [] }) (fun l => l.wake s.fab.cnt) fun _ => rfl]
  rfl

theorem State.core_restored (s : State) (q : BitVec 12) (l : Launch) (c : Nat) : (s.restored q l).core c = sget ({} : Core) l.saved c := rfl

theorem mem_of_sget {α : Type} (d : α) (t : Sparse α) (k : Nat) : sget d t k = d ∨ ∃ e ∈ t, e.2 = sget d t k := by
  rw [sget_eq_find?]
  cases h : t.find? fun e => e.1 == k with
  | none => exact .inl rfl
  | some e => exact .inr ⟨e, List.mem_of_find?_eq_some h, rfl⟩

/-- Settles O36. -/
theorem saveRestore : Obligations.SaveRestore := by
  intro s q
  refine ⟨fun hs => ?_, fun l hr hl hb ha hres hsav hcol hidle => ?_⟩
  · refine (finishAll_eq s _).trans ?_
    simp only [State.saveDone, hs, State.modLaunch_eq]
  · have hcore (c : Nat) : ((s.restored q l).core c).eng = [] ∧ ∀ f ∈ ((s.restored q l).core c).flight, f.haltedAt = none := by
      rw [State.core_restored]
      rcases mem_of_sget ({} : Core) l.saved c with h | ⟨e, he, h⟩
      · rw [h]
        exact ⟨rfl, fun f hf => absurd hf List.not_mem_nil⟩
      · rw [← h]
        exact hidle e he
    have hresident : (s.restored q l).resident = some (l.restored s.fab.cnt) := resident_of_modLaunch hl hres fun _ => rfl
    have hidle' : s.restoreDone = (s.restored q l, false) := by
      rw [State.restoreDone_goesOn hr hl hb ha]
      refine State.resumeUnits_idle (fun c => (hcore c).2) (fun c => (hcore c).1) (fun c hc m hm => ?_) q
      obtain rfl := Option.some.inj (hresident.symm.trans hm)
      exact hcol c hc
    exact (congrArg (finish s) hidle').trans (finish_false s (s.restored q l) rfl rfl)

end Sys2Proof.Machine
end

section
/-!
PROOFS about a launch that takes the cores (04 R103, R135, 01 R25).
-/

namespace Sys2Proof.Machine

variable {s t u : State}

/-! ### What decides a launch barrier that has one entry (12 R348) -/

/-- An entry that is its own anchor differs from itself in nothing. -/
theorem verdict_self {a : CEntry} (ha : a.ragged = false) : verdict a [a] = none := by
  have hself : ([a].filter fun e => { e with member := a.member, count := a.count, again := a.again } != a) = [] :=
    List.filter_eq_nil_iff.2 fun e he => by rw [List.mem_singleton.1 he]; simp
  have hcount : ([a].filter fun e => e.count != a.count) = [] := by simp
  simp only [verdict, hself, hcount, ha, lowestMember, List.foldl_nil, Bool.not_false, if_true, Option.map_none]

/-- A launch barrier that no failure meets is never judged at once: its match waits for the start beat. -/
theorem State.judge_barrier {c : Coll} {a : CEntry} (l : Launch) (hb : c.isBarrier = true) (hf : c.failure = none) (he : c.entries = [a])
    (hr : a.ragged = false) : s.judge l c = (s, false) := by
  simp only [State.judge, hf]
  split
  · rfl
  · next x hx =>
    split
    · rfl
    · split
      · rfl
      · next b hb' =>
        have hba : b = a := by
          obtain ⟨m, -, hm⟩ := Option.bind_eq_some_iff.1 hb'
          rw [he] at hm
          exact List.mem_singleton.1 (List.mem_of_find?_eq_some hm)
        simp only [hba, he, verdict_self hr]

/-- Nothing is decided while the only collective is a launch barrier with one entry. -/
theorem State.decideAll_barrier {c : Coll} {a : CEntry} (hcs : s.col.colls = [c]) (hb : c.isBarrier = true) (hp : c.phase = .count)
    (hf : c.failure = none) (he : c.entries = [a]) (hr : a.ragged = false) : s.decideAll [] = (s, false) := by
  have hpump : s.pump [] = (s, false) := State.pump_of_no_data (by simp [hcs, hp]) []
  have hjudge (l : Launch) : s.judge l c = (s, false) := State.judge_barrier l hb hf he hr
  have hc : s.collOf c.jobTag c.collId = some c := by simp [State.collOf, hcs]
  have hfilter : s.col.colls.filter (fun d => d.phase == .count) = [c] := by simp [hcs, hp]
  simp only [State.decideAll, hfilter, List.foldl_cons, List.foldl_nil, hc]
  cases s.jobLaunch c.jobTag with
  | none => simp only [hpump, Bool.or_self]
  | some l => simp only [hjudge l, Bool.or_self, ite_self, hpump]

/-! ### The launch barrier begins (01 R25) -/

/-- The launch barrier of a launch, with this member's entry. -/
def barrierColl (l : Launch) (x : Sched) (root : BitVec 12) : Coll :=
  { jobTag := l.jobTag, collId := 0xFFF, core := 0, line := 0, serial := 0, words := [], epoch := x.epoch, galliard := true,
    entries := [barrierEntry l x root] }

/-- A member joins the barrier of a job of which nothing has come. -/
theorem State.joinCount_first {x : Sched} {c : Coll} {own : CEntry} (hcs : s.col.colls = []) (he : ∀ e ∈ s.col.early, e.1 ≠ c.jobTag)
    (ha : ∀ a ∈ s.col.aborts, a.1 ≠ c.jobTag) (hf : c.failure = none) :
    ∃ v, s.joinCount x c own = v.sendControl x (c.group x) c.jobTag c.collId (v.ringStarts (c.group x) (x.pos x.self.toNat) [.x, .y, .z]) (.entry own) ∧
      s.OnlyCol v ∧ v.col.colls = [{ c with entries := [own] }] := by
  have hearly : (s.col.early.filter fun e => e.1 == c.jobTag && e.2.1 == c.collId) = [] :=
    List.filter_eq_nil_iff.2 fun e hm => by simp [he e hm]
  have habort : (s.col.aborts.find? fun a => a.1 == c.jobTag && a.2.1 == c.collId) = none :=
    List.find?_eq_none.2 fun a hm => by simp [ha a hm]
  refine ⟨_, rfl, rfl, ?_⟩
  show s.col.colls ++ [_] = _
  rw [hcs, hearly, habort]
  simp [hf]

/-- A launch with a schedule joins its barrier with its entry. -/
theorem State.joinBarrier_eq {l : Launch} {x : Sched} (v : State) (hx : v.schedOf l = some x) :
    v.joinBarrier l = ((v.modLaunch l.qid fun m => { m with run := .barrier }).joinCount x
      { barrierColl l x (.ofNat 12 ((v.memberOf x l.lead).getD 0)) with entries := [] }
      (barrierEntry l x (.ofNat 12 ((v.memberOf x l.lead).getD 0)))).decideAll [] := by
  simp only [State.joinBarrier, hx]
  rfl

/-! ### The cores of a new launch (04 R103) -/

/-- The cores of a launch that takes them for the first time. -/
def freshCores (l : Launch) (i : Image) (x : Sched) : Sparse Core :=
  (List.range 64).foldl (fun t c => sset ({} : Core) t c (freshCore (i.coreOf c) x.self.toNat l.members l.args)) []

theorem sget_freshCores (l : Launch) (i : Image) (x : Sched) {n : Nat} (hn : n < 64) :
    sget ({} : Core) (freshCores l i x) n = freshCore (i.coreOf n) x.self.toNat l.members l.args := by
  have h := sget_foldl_range ({} : Core) 0 (fun c => freshCore (i.coreOf c) x.self.toNat l.members l.args) 64 [] n
  rw [if_pos (by omega)] at h
  simp only [Nat.zero_add, Nat.sub_zero] at h
  exact h

/-- The state in which a launch has taken the cores and is about to join its barrier. -/
def State.tookCores (s : State) (l : Launch) (i : Image) (x : Sched) : State :=
  (({ s with cores := freshCores l i x, barPassed := 0 } : State).modLaunch l.qid fun m => { m with cond := .resident }).modLaunch l.qid
    fun m => { m with run := .barrier }

theorem State.launches_tookCores (s : State) (l : Launch) (i : Image) (x : Sched) : (s.tookCores l i x).launches =
    s.launches.map fun m => if m.qid = l.qid then { m with cond := .resident, run := .barrier } else m := by
  simp only [State.tookCores, State.modLaunch_eq]
  exact map_modLaunch_twice l.qid (fun m => { m with cond := .resident }) (fun m => { m with run := .barrier }) (fun _ => rfl) s.launches

theorem State.cores_tookCores (s : State) (l : Launch) (i : Image) (x : Sched) : (s.tookCores l i x).cores = freshCores l i x := by
  simp only [State.tookCores, State.modLaunch]

section
variable {l : Launch} (hn : s.nextLaunch = some l) (hc : s.coresFree = true) (hd : s.err.drained = false)
include hn hc hd

theorem State.becomeResident_saved (hs : l.cond = .saved) : s.becomeResident = ({ s with restoring := some l.qid }, false) := by
  simp only [State.becomeResident, hn, hc, hd, hs, Bool.not_true, Bool.or_self, Bool.false_eq_true, if_false, beq_self_eq_true, if_true]

theorem State.becomeResident_fresh {i : Image} {x : Sched} (hs : l.cond ≠ .saved) (hi : s.imageOf l = some i) (hx : s.schedOf l = some x) :
    s.becomeResident = ((s.tookCores l i x).joinCount x { barrierColl l x (.ofNat 12 ((s.memberOf x l.lead).getD 0)) with entries := [] }
      (barrierEntry l x (.ofNat 12 ((s.memberOf x l.lead).getD 0)))).decideAll [] := by
  have hnot : (l.cond == .saved) = false := beq_eq_false_iff_ne.2 hs
  simp only [State.becomeResident, hn, hc, hd, hnot, hi, hx, Bool.not_true, Bool.or_self, Bool.false_eq_true, if_false]
  exact State.joinBarrier_eq (({ s with cores := freshCores l i x, barPassed := 0 } : State).modLaunch l.qid fun l => { l with cond := .resident }) hx

end

/-- Settles O34. -/
theorem residency : Obligations.Residency := by
  intro s
  refine ⟨fun h => ?_, fun l hn hc hd => ⟨fun hs => ?_, fun i x hs hi hx hcs he ha => ?_⟩⟩
  · refine (congrArg (finish s) ?_).trans (finish_false s s rfl rfl)
    unfold State.becomeResident
    split
    · rfl
    · next l hl =>
      refine if_pos ?_
      rcases h with h | h | h
      · exact absurd (hl.symm.trans h) nofun
      · rw [h]; rfl
      · rw [h, Bool.or_true]
  · exact (congrArg (finish s) (State.becomeResident_saved hn hc hd hs)).trans (finish_false s _ rfl rfl)
  · have hjoins := State.joinCount_first (s := s.tookCores l i x) (x := x)
      (c := { barrierColl l x (.ofNat 12 ((s.memberOf x l.lead).getD 0)) with entries := [] })
      (own := barrierEntry l x (.ofNat 12 ((s.memberOf x l.lead).getD 0))) hcs he ha rfl
    obtain ⟨v, hjoin, hcol, hcolls⟩ := hjoins
    generalize ht : v.sendControl _ _ _ _ _ _ = t at hjoin
    have hfab : v.OnlyFab t := ht ▸ v.sendControl_onlyFab x _ _ _ _ _
    have hstream : v.LeavesNoStream t := ht ▸ v.sendControl_leavesNoStream x _ _ _ _ _
    have htcol : t.col.colls = [barrierColl l x (.ofNat 12 ((s.memberOf x l.lead).getD 0))] := by rw [hfab.col]; exact hcolls
    have hhbm : t.hbm = s.hbm := hfab.hbm.trans hcol.hbm
    have hkeeps {α : Type} (f : State → α) (hf : ∀ v fab out col, f { v with fab := fab, out := out, col := col } = f v) :
        f t = f (s.tookCores l i x) := by
      rw [hfab, hcol]
      exact hf (s.tookCores l i x) _ _ _
    have hrun : s.becomeResident = (t, false) := ((State.becomeResident_fresh hn hc hd hs hi hx).trans
      (congrArg (State.decideAll · []) hjoin)).trans (State.decideAll_barrier htcol rfl rfl rfl rfl rfl)
    refine ⟨t, _, (congrArg (finish s) hrun).trans (State.LeavesNoStream.finish (.trans (.of_out_eq hcol.out) hstream) rfl (congrArg _ hhbm)),
      (hkeeps State.launches fun _ _ _ _ => rfl).trans (s.launches_tookCores l i x), fun n hn => ?_,
      hkeeps State.barPassed fun _ _ _ _ => rfl, htcol, rfl, rfl, rfl, hhbm, hkeeps State.qce fun _ _ _ _ => rfl⟩
    have hcores : t.cores = freshCores l i x := (hkeeps State.cores fun _ _ _ _ => rfl).trans (s.cores_tookCores l i x)
    rw [State.core, hcores, sget_freshCores l i x hn]

end Sys2Proof.Machine
end

section
/-!
PROOFS about lanes, control symbols, delays and ports that go down (11 R315, R316, R324, R331, R334).
-/

namespace Sys2Proof.Machine

variable {s t u : State}

/-! ### What touches only the host port -/

/-- `t` differs from `s` in the host port's block, the obligations of stopped launches and what has left the module, and in nothing else. -/
def State.OnlyHost (s t : State) : Prop := t = { s with qce := t.qce, heldObls := t.heldObls, out := t.out }

theorem State.OnlyHost.refl (s : State) : s.OnlyHost s := rfl

theorem State.OnlyHost.trans (h : s.OnlyHost t) (h' : t.OnlyHost u) : s.OnlyHost u :=
  Eq.trans h' (congrArg (fun v : State => { v with qce := u.qce, heldObls := u.heldObls, out := u.out }) h)

theorem State.OnlyHost.foldl {α : Type} {f : State → α → State} (h : ∀ (v : State) (a : α), v.OnlyHost (f v a)) (as : List α) (s : State) :
    s.OnlyHost (as.foldl f s) :=
  List.foldlRecOn (motive := s.OnlyHost) as f (.refl s) fun v hv a _ => hv.trans (h v a)

theorem State.modQueue_onlyHost (s : State) (qid : BitVec 12) (f : Queue → Queue) : s.OnlyHost (s.modQueue qid f) := rfl

theorem State.emit_onlyHost (s : State) (o : Out) : s.OnlyHost (s.emit o) := rfl
theorem State.clearObligations_onlyHost (s : State) (key : Option Nat) : s.OnlyHost (s.clearObligations key) := rfl

theorem flushGo_onlyHost (fuel : Nat) (qid : BitVec 12) (s : State) : s.OnlyHost (flushGo fuel qid s) := by
  induction fuel generalizing s with
  | zero => exact .refl s
  | succ fuel ih =>
    simp only [flushGo]
    split
    · exact .refl s
    · split
      · refine State.OnlyHost.trans ?_ (ih _)
        exact (((s.modQueue_onlyHost qid _).trans (State.modQueue_onlyHost _ qid _)).trans (State.emit_onlyHost _ _)).trans
          (State.clearObligations_onlyHost _ _)
      · exact .refl s

theorem State.sendMsg_onlyHost (s : State) (qid : BitVec 12) (m : TxMsg) : s.OnlyHost (s.sendMsg qid m) :=
  (s.modQueue_onlyHost qid _).trans ((flushGo_onlyHost _ _ _).trans (.foldl (fun v _ => .foldl (fun w _ => flushGo_onlyHost _ _ w) _ v) _ _))

theorem State.event_onlyHost (s : State) (qid : BitVec 12) (e : EvInfo) : s.OnlyHost (s.event qid e) := s.sendMsg_onlyHost qid _

theorem State.OnlyHost.fab (h : s.OnlyHost t) : t.fab = s.fab := by rw [h]

/-! ### A halted launch leaves the fabric block as it is (11 R331) -/

theorem State.fab_halt (s : State) (l : Launch) (code : Code) (e : EvInfo) : (s.halt l code e).fab = s.fab := by
  simp only [State.halt]
  refine (State.event_onlyHost _ _ _).fab.trans ?_
  split <;> rfl

theorem State.fab_haltForLoss (s : State) (l : Launch) (k : LinkId) : (s.haltForLoss l k).fab = s.fab := by
  simp only [State.haltForLoss]
  refine (State.fab_halt _ _ _ _).trans ?_
  split
  · rfl
  · split <;> rfl

/-! ### A port whose link goes down (11 R316, R323, R331) -/

/-- From `s` to `t` the ports, the dead links and those in standby stay. -/
structure State.KeepsLinks (s t : State) : Prop where
  ports : t.fab.ports = s.fab.ports
  dead : t.fab.dead = s.fab.dead
  standby : t.fab.standby = s.fab.standby

/-- Which part of the system keeps the beat is no matter of a port. -/
theorem State.partition_keepsLinks (s : State) (k : LinkId) : s.KeepsLinks (s.partition k) := by
  simp only [State.partition]
  split
  · exact ⟨rfl, rfl, rfl⟩
  · split
    · exact ⟨rfl, rfl, rfl⟩
    · refine List.foldlRecOn (motive := s.KeepsLinks) _ _ ⟨rfl, rfl, rfl⟩ fun v ⟨hp, hd, hs⟩ l _ => ?_
      rw [← State.fab_haltForLoss v l k] at hp hd hs
      exact ⟨hp, hd, hs⟩

/-- A new tree changes no more of a port than the HOLD of its child. -/
theorem State.port_mapChanged (s : State) (p : Fin 6) : ∃ h, s.mapChanged.port p = { s.port p with childHold := h } := by
  have hports : ∃ h, (allPorts.foldl (fun t q =>
      if s.treeChildren.contains q then t else t.modPort q fun q => { q with childHold := none }) s).port p = { s.port p with childHold := h } := by
    refine List.foldlRecOn (motive := fun t : State => ∃ h, t.port p = { s.port p with childHold := h }) allPorts _ ⟨_, rfl⟩ fun v hv q _ => ?_
    split
    · exact hv
    · by_cases hpq : p = q
      · subst hpq
        obtain ⟨h, hv⟩ := hv
        exact ⟨none, by rw [State.port_modPort_same, hv]⟩
      · rwa [State.port_modPort_other _ _ hpq]
  simp only [State.mapChanged]
  split
  · exact hports
  · exact hports

theorem mem_linkPorts {p : Fin 6} : p ∈ s.linkPorts ↔ (s.port p).state = .up ∨ (s.port p).state = .standby := by
  simp [State.linkPorts, mem_allPorts, State.portUp]

theorem State.hasLink_dropLink (s : State) (ls : List LinkId) (k : LinkId) : s.hasLink (s.dropLink ls k) k = false := by
  simp only [State.hasLink, State.dropLink, List.any_filter, List.any_eq_false, Bool.and_eq_true, Bool.not_eq_true']
  rintro l - ⟨h, h'⟩
  exact absurd (h.symm.trans h') nofun

/-- A device that learns of the loss of a link of its own takes its end down and counts the link as dead. -/
theorem State.learnLoss_own {p : Fin 6} (hp : p ∈ s.linkPorts) (but : Option (Fin 6)) :
    let k : LinkId := ⟨s.devid, p⟩
    let u := s.learnLoss k but
    (u.port p).state = .down ∧ (u.port p).downs = satInc (s.port p).downs ∧ (u.port p).replay = [] ∧
      u.fab.dead = (if s.hasLink s.fab.dead k then s.fab.dead else s.fab.dead ++ [k]) ∧ s.hasLink u.fab.standby k = false := by
  intro k u
  have hmine : p ∈ (s.ownPorts k).filter fun p => s.linkPorts.contains p :=
    List.mem_filter.2 ⟨List.mem_filter.2 ⟨mem_allPorts p, by simp [k, State.sameLink]⟩, List.contains_iff_mem.2 hp⟩
  obtain ⟨mine, hm⟩ : ∃ m, m = (s.ownPorts k).filter fun p => s.linkPorts.contains p := ⟨_, rfl⟩
  have hempty : mine.isEmpty = false := List.isEmpty_eq_false_iff.2 (List.ne_nil_of_mem (hm ▸ hmine))
  have hnodup : mine.Nodup := hm ▸ ((by decide : allPorts.Nodup).filter _).filter _
  let v : State := { s with fab := { s.fab with
    dead := if s.hasLink s.fab.dead k then s.fab.dead else s.fab.dead ++ [k],
    unmarked := if s.hasLink s.fab.unmarked k then s.fab.unmarked else s.fab.unmarked ++ [k],
    standby := s.dropLink s.fab.standby k, untrained := s.dropLink s.fab.untrained k } }
  let w := mine.foldl (fun s p => s.modPort p Port.lose) v
  let x := w.symOn (w.linkPorts.filter fun p => some p != but) (.link (.loss k))
  have hu : u = x.mapChanged.partition k := by
    simp only [u, State.learnLoss, ← hm, hempty, Bool.and_false, Bool.false_eq_true, if_false]
    rfl
  have hw : w = { v with fab := { v.fab with ports := w.fab.ports } } :=
    List.foldlRecOn (motive := fun w : State => w = { v with fab := { v.fab with ports := w.fab.ports } }) mine _ rfl fun w hw p _ => by
      exact congrArg (State.modPort · p Port.lose) hw
  have hport : w.port p = (s.port p).lose := by
    have h := State.port_foldl_modPort (fun _ _ => Port.lose) (fun _ _ _ => rfl) mine hnodup v p
    rw [if_pos (hm ▸ hmine)] at h
    exact h
  obtain ⟨hp', hd, hs⟩ := x.mapChanged.partition_keepsLinks k
  obtain ⟨c, hc⟩ := x.port_mapChanged p
  have hup : u.port p = { (s.port p).lose with childHold := c } := by
    rw [hu, State.port, hp', ← hport]
    exact hc
  have htree := x.mapChanged_onlyTree
  refine ⟨by rw [hup]; rfl, by rw [hup]; rfl, by rw [hup]; rfl, ?_, ?_⟩
  · rw [hu, hd, htree]
    show w.fab.dead = _
    rw [hw]
  · rw [hu, hs, htree]
    show s.hasLink w.fab.standby k = false
    rw [hw]
    exact s.hasLink_dropLink _ _

theorem State.linkDown_live {p : Fin 6} (hp : p ∈ s.linkPorts) : s.linkDown p = s.learnLoss ⟨s.devid, p⟩ none :=
  if_pos (List.contains_iff_mem.2 hp)

theorem State.linkDown_dead {p : Fin 6} (hp : p ∉ s.linkPorts) : s.linkDown p = s :=
  if_neg fun h => hp (List.contains_iff_mem.1 h)

theorem State.devid_noteEvent (s : State) (kind : BitVec 4) (unit : Nat) : (s.noteEvent kind unit).1.devid = s.devid := by
  simp only [State.noteEvent]
  split <;> rfl

/-! ### Lanes (11 R315) -/

section
variable {p : Fin 6} (hp : p ∈ s.linkPorts)
include hp

theorem State.linkPorts_not : (!s.linkPorts.contains p) = false := by rw [List.contains_iff_mem.2 hp]; rfl

theorem State.laneFail_worn (lane : Fin 9) (h : (s.port p).spareUsed = true) : s.laneFail p lane = s.linkDown p := by
  simp only [State.laneFail, s.linkPorts_not hp, h, Bool.false_eq_true, if_false, if_true]

/-- The spare takes the lane's place, and the event is on record. -/
theorem State.laneFail_spared (lane : Fin 9) (h : (s.port p).spareUsed = false) :
    s.laneFail p lane =
      let n := ((s.modPort p fun q => q.spare lane q.txSeq).emit (.sym p (.lane lane (s.port p).txSeq))).noteEvent 5 (p.val * 16 + lane.val)
      (if n.2 then n.1.modPort p fun q => { q with permanent := some lane } else n.1).sparedRecord p lane (if n.2 then 2 else 1) := by
  simp only [State.laneFail, s.linkPorts_not hp, h, Bool.false_eq_true, if_false]

theorem State.laneSwitch_spare (lane : Fin 9) (seq : BitVec 12) (h : (s.port p).spareUsed = false) :
    s.laneSwitch p lane seq = s.modPort p fun q => q.spare lane seq := by
  simp only [State.laneSwitch, s.linkPorts_not hp, h, Bool.false_eq_true, if_false]

theorem State.laneSwitch_worn (lane : Fin 9) (seq : BitVec 12) (h : (s.port p).spareUsed = true) (hl : (s.port p).failedLane.toNat ≠ lane.val) :
    s.laneSwitch p lane seq = s.linkDown p := by
  simp only [State.laneSwitch, s.linkPorts_not hp, h, hl, Bool.false_eq_true, if_false, if_true]

end

/-- A change of a port is a matter of what the port was. -/
theorem State.modPort_congr (s : State) (p : Fin 6) {f g : Port → Port} (h : f (s.port p) = g (s.port p)) : s.modPort p f = s.modPort p g := by
  simp only [State.modPort, smod]
  rw [show f (sget {} s.fab.ports p.val) = g (sget {} s.fab.ports p.val) from h]

/-- Settles O40. -/
theorem lanesAndLinks : Obligations.LanesAndLinks := by
  refine ⟨fun s p lane seq hlive => ?_, fun s p d => ?_⟩
  · have hp : p ∈ s.linkPorts := mem_linkPorts.2 hlive
    intro q r n info
    have hr : s.modPort p (r q.txSeq) = s.modPort p fun q => q.spare lane q.txSeq := s.modPort_congr p rfl
    have hdevid : n.1.devid = s.devid := State.devid_noteEvent _ _ _
    have hends (v : State) (h : s.laneFail p lane = v) : exec (.laneFail p [lane] false) s = .next (s.after v) :=
      (finishAll_eq s _).trans (congrArg (fun v => Host.Outcome.next (s.after v)) h)
    have hspared (h : q.spareUsed = false) : s.laneFail p lane =
        (if n.2 then n.1.modPort p fun q => { q with permanent := some lane } else n.1).sparedRecord p lane (if n.2 then 2 else 1) := by
      rw [State.laneFail_spared hp lane h]
      simp only [n, hr, q]
    refine ⟨fun h hn => hends _ ?_, fun h hn => hends _ ?_, fun h => hends _ (State.laneFail_worn hp lane h), fun a b l => ?_, fun h => ?_, fun h hl => ?_⟩
    · rw [hspared h, if_neg (by simp [hn]), if_neg (by simp [hn])]
      exact congrArg (fun d : BitVec 12 => n.1.log { info with cls := 1, detail := .ofNat 64 d.toNat }) hdevid
    · rw [hspared h, if_pos hn, if_pos hn]
      exact congrArg (fun d : BitVec 12 => (n.1.modPort p fun q => { q with permanent := some lane }).log
        { info with cls := 2, detail := .ofNat 64 d.toNat }) hdevid
    · refine (finishAll_eq s _).trans (congrArg (fun v => Host.Outcome.next (s.after v)) (if_pos ⟨rfl, ?_⟩))
      simp
    · exact (finishAll_eq s _).trans (congrArg (fun v => Host.Outcome.next (s.after v)) (State.laneSwitch_spare hp lane seq h))
    · exact (finishAll_eq s _).trans (congrArg (fun v => Host.Outcome.next (s.after v)) (State.laneSwitch_worn hp lane seq h hl))
  · intro q k live
    have hlive : live ↔ p ∈ s.linkPorts := mem_linkPorts.symm
    refine ⟨fun h => ?_, fun h => ?_, fun h => ?_, fun h => ?_, fun h => ?_, fun h => ?_⟩
    · exact (finishAll_eq s _).trans (congrArg (fun v => Host.Outcome.next (s.after v)) (State.linkDown_dead (mt hlive.2 h)))
    · exact ⟨_, finishAll_eq s _, State.linkDown_live (hlive.1 h) ▸ State.learnLoss_own (hlive.1 h) none⟩
    · exact congrArg Host.Outcome.next (if_pos (List.contains_iff_mem.2 (hlive.1 h)))
    · exact congrArg Host.Outcome.next (if_neg fun hc => h (hlive.2 (List.contains_iff_mem.1 hc)))
    · exact congrArg Host.Outcome.next (if_pos (beq_iff_eq.2 h))
    · exact congrArg Host.Outcome.next (if_neg fun hc => h (beq_iff_eq.1 hc))

end Sys2Proof.Machine
end

section
/-!
PROOFS about the registers that commands of their own write or read (08 R244, 11 R312, 12 R369, 13 R377, R403, 14 R419, R432, 15 R460, 16 R485, R486).
-/

namespace Sys2Proof.Machine

variable {s t u : State}

/-! ### Fields of a register's value -/

theorem wbits_eq_div (v : Word) (lo n : Nat) : v.toNat / 2 ^ lo % 2 ^ n = wbits v lo n := by rw [wbits, Nat.shiftRight_eq_div_pow]

theorem getLsbD_eq_bit1 (v : Word) (i : Nat) : v.getLsbD i = bit1 v i := by
  rw [bit1, wbits, BitVec.getLsbD, Nat.testBit_eq_decide_div_mod_eq, Nat.shiftRight_eq_div_pow, Nat.pow_one]
  rfl

theorem hi32_eq_extractLsb' (d : Dword) : d.extractLsb' 32 32 = hi32 d := by
  apply BitVec.eq_of_toNat_eq
  simp [hi32, BitVec.extractLsb'_toNat]

/-- ERR_DRAIN's request bit touches no bit of the cause. -/
theorem wbits_req29 (v : Word) : wbits (v ||| 0x20000000#32) 0 16 = wbits v 0 16 := by
  rw [wbits, wbits, ← BitVec.extractLsb'_toNat, ← BitVec.extractLsb'_toNat, BitVec.extractLsb'_or,
    show (0x20000000#32).extractLsb' 0 16 = 0#16 by decide, BitVec.or_zero]

theorem bit29_req29 (v : Word) : bit1 (v ||| 0x20000000#32) 29 = true := by
  have h : (v ||| 0x20000000#32).extractLsb' 29 1 = 1#1 := by
    rw [BitVec.extractLsb'_or, show (0x20000000#32).extractLsb' 29 1 = BitVec.allOnes 1 by decide, BitVec.or_allOnes]
    rfl
  rw [bit1, wbits, ← BitVec.extractLsb'_toNat, h]
  rfl

/-! ### What a write of one register does -/

/-- The values of ERR_CTL while it holds the records (14 R419). -/
theorem State.wErrCtl_hold {v : Word} (hf : wbits v 27 3 ≤ 4) (hb : bit1 v 31 = true) :
    s.wErrCtl v = { s with err := { s.err with err := false, hold := true, strict := .ofNat 3 (wbits v 27 3) } } := by
  simp only [State.wErrCtl, if_neg (Nat.not_lt.2 hf), hb]
  rfl

theorem State.wErrCtl_release {v : Word} (hf : wbits v 27 3 ≤ 4) (hb : bit1 v 31 = false) : s.wErrCtl v =
    { s with err := { s.err with err := false, hold := false, strict := .ofNat 3 (wbits v 27 3), ring := retireAcked s.err.ring } } := by
  simp only [State.wErrCtl, if_neg (Nat.not_lt.2 hf), hb]
  rfl

/-- With every record handled, as many leave as are named (14 R419). -/
theorem State.wRingRetire_handled {v : Word} (hh : s.err.hold = true) (h1 : 1 ≤ wbits v 0 7) (h2 : wbits v 0 7 ≤ 64)
    (hr : ∀ r ∈ s.err.ring, r.handled = true) : s.wRingRetire v =
      { s with err := { s.err with retireN := .ofNat 7 (wbits v 0 7), ring := s.err.ring.drop (min (wbits v 0 7) s.err.ring.length) } } := by
  have hall : s.err.ring.takeWhile (·.handled) = s.err.ring := by
    rw [List.takeWhile_eq_self_iff]
    exact hr
  have hno : ¬ (s.err.hold = false ∨ wbits v 0 7 = 0 ∨ wbits v 0 7 > 64) := by
    rw [hh]
    rintro (h | h | h)
    · cases h
    · omega
    · omega
  simp only [State.wRingRetire, if_neg hno, hall]
  rfl

theorem State.wDrain_req (v : Word) : s.wDrain (v ||| 0x20000000#32) =
    (s.drain (.ofNat 16 (wbits v 0 16)) none).modErr fun e => { e with cause := .ofNat 16 (wbits v 0 16) } := by
  simp only [State.wDrain, bit29_req29, if_true, wbits_req29]

/-- Training begins in the fabric block and with the device's id. -/
theorem State.beginTraining_only (s : State) : s.beginTraining =
    { s with fab := s.beginTraining.fab, devid := s.beginTraining.devid, devidValid := s.beginTraining.devidValid } := by
  cases h : badCoord s.fab.coord with
  | true =>
    have hports := State.onlyPorts_trainAll s.underCoord fun _ => alonePort s.fab.coord
    rw [State.beginTraining_outside h, hports]
    rfl
  | false =>
    have hports := State.onlyPorts_trainAll (s.underCoord.withId s.fab.coord) State.shapePort
    rw [State.beginTraining_inside h, hports]
    rfl

theorem State.wFabCtl_busy (hl : s.launches ≠ []) (v : Word) : s.wFabCtl (go31 v) = { s with fab := { s.fab with err := true } } := by
  simp only [State.wFabCtl, bit31_go31, List.isEmpty_eq_false_iff.2 hl, Bool.not_true, Bool.not_false, Bool.false_eq_true, if_false, if_true]

theorem State.wFabCtl_free (hl : s.launches = []) (v : Word) :
    s.wFabCtl (go31 v) = ({ s with fab := { s.fab with err := false } } : State).beginTraining := by
  simp only [State.wFabCtl, bit31_go31, hl, List.isEmpty_nil, Bool.not_true, Bool.false_eq_true, if_false]

theorem State.wGroupCtl_off {v : Word} (hb : bit1 v 31 = false) : s.wGroupCtl v = { s with pwr := { s.pwr with
    grpEn := false, grpErr := false, coord := .ofNat 12 (wbits v 12 12), members := .ofNat 12 (wbits v 0 12), alloc := 0, nextAlloc := none,
    fallback := false } } := by
  simp only [State.wGroupCtl, hb, Bool.false_eq_true, if_false, Bool.false_and]
  rfl

/-- The endpoint that QCE_EP_DATA0 to 6 hold (13 R403). -/
def epOf (d : Nat → Word) : Endpoint :=
  { valid := bit1 (d 0) 31, ipv6 := true, port := .ofNat 16 (wbits (d 0) 0 16), addr := d 1 ++ d 2 ++ d 3 ++ d 4,
    mac := BitVec.ofNat 16 (wbits (d 6) 0 16) ++ d 5 }

theorem State.wEpData_commit (h : bit1 (sget 0 s.pathQ.epData 0) 30 = true) : (s.wEpData .queue 7 0).qce.endpoints =
    sset {} s.qce.endpoints s.pathQ.ep.toNat (epOf fun i => sget 0 s.pathQ.epData i) := by
  have hq : s.pathRegs .queue = s.pathQ := rfl
  simp only [State.wEpData, hq, Nat.lt_irrefl, if_false, ne_eq, not_true_eq_false, h, Bool.not_true, Bool.false_and, Bool.false_eq_true, epOf]
  rfl

/-- Settles O55. -/
theorem controlRegisters : Obligations.ControlRegisters := by
  intro s v hh f
  have hf (off n : Nat) : f off n = wbits v off n := wbits_eq_div v off n
  simp only [hf, getLsbD_eq_bit1, ← ofNat_wbits, hi32_eq_extractLsb']
  have hq : s.pathOpen .queue = true := hh
  have hset {r : Reg} {w : Word} {u : State} (ha : r.access .queue = .rw) (h : s.writeReg .queue r w = u) : s.setReg .queue r w = u :=
    (State.setReg_open hq ha w).trans h
  have hnext {u v : State} (h : u = v) : (Host.Outcome.next u : Res) = .next v := congrArg _ h
  have hafter {u v : State} (h : u = v) : finishAll s u = .next (s.after v) := (finishAll_eq s u).trans (congrArg (fun u => Host.Outcome.next (s.after u)) h)
  have htouch (r : Reg) : s.touchReg .queue r = (s.readReg .queue r).1 := if_pos hq
  refine ⟨fun h h1 h2 h3 => hnext (hset rfl (if_pos ⟨h, h1, h2, h3⟩)), fun h => hnext (hset rfl (if_neg ?_)), hnext (hset rfl rfl),
    fun h => hnext (hset rfl (if_pos h)), fun h hb => hnext (hset rfl (State.wErrCtl_hold h hb)),
    fun h hb => hnext (hset rfl (State.wErrCtl_release h hb)), fun h => hnext (hset rfl (if_pos h)),
    fun h h1 h2 hr => hnext (hset rfl (State.wRingRetire_handled h h1 h2 hr)), hafter (hset rfl (State.wDrain_req v)),
    fun h => hnext (hset rfl (State.wFabCtl_busy h v)), fun h => ⟨_, hnext (hset rfl (State.wFabCtl_free h v)), ?_, ?_⟩,
    hnext (htouch _), hnext (htouch _), hnext (htouch _), fun p hp => ?_, fun h => hnext (hset rfl (if_pos h)), fun h => ?_,
    fun h => hafter (hset rfl (if_pos h)), fun h => hafter (hset rfl (if_neg (Nat.not_lt.2 h))), fun h => hafter (hset rfl (if_neg ?_))⟩
  · rintro ⟨h1, h2, h3, h4⟩
    omega
  · exact State.beginTraining_only _
  · exact State.beginTraining_trainingBegun ({ s with fab := { s.fab with err := false } } : State)
  · have hset {r : Reg} {w : Word} {u : State} (ha : r.access p = .rw) (h : s.writeReg p r w = u) : s.setReg p r w = u :=
      (State.setReg_open hp ha w).trans h
    have hcap : Reg.pwrCap.access p = .rw := by cases p <;> rfl
    have hbudget : Reg.pwrGroupBudget.access p = .rw := by cases p <;> rfl
    have hctl : Reg.pwrGroupCtl.access p = .rw := by cases p <;> rfl
    have hslew : Reg.pwrSlew.access p = .rw := by cases p <;> rfl
    exact ⟨fun h1 h2 => hnext (hset hcap (if_pos ⟨h1, h2⟩)), fun h => hnext (hset hcap (if_neg (by omega))),
      ⟨fun h1 h2 => hnext (hset hbudget (if_pos ⟨h1, h2⟩)), fun h => hnext (hset hbudget (if_neg (by omega)))⟩,
      fun h => hnext (hset hctl (State.wGroupCtl_off h)), fun h1 h2 => hnext (hset hslew (if_pos ⟨h1, h2⟩)), fun h => hnext (hset hslew (if_neg (by omega)))⟩
  · refine ⟨_, hnext (hset rfl rfl), ?_, fun e he => ?_⟩
    · exact (congrArg (sget {} · s.pathQ.ep.toNat) (State.wEpData_commit h)).trans (sget_sset_same _ _ _ _)
    · exact (congrArg (sget {} · e) (State.wEpData_commit h)).trans (sget_sset_other _ _ _ _ _ he)
  · omega

end Sys2Proof.Machine
end

section
/-!
PROOFS about bytes of another device's stream (08 R245, R248).
-/

namespace Sys2Proof.Machine

variable {s t u : State}

/-- The core as the bytes of a remote stream leave it: written, and signalled after the last. -/
def Core.arrived (k : Core) (addr : Nat) (bytes : List Byte) (sg : Option (Fin 16)) : Core := (k.ostWrite addr bytes).giveTok sg

section
variable {l : Launch} (hl : s.running = some l) (src : BitVec 12) (c : Fin 64) {addr : Dword} {bytes : List Byte}
include hl

theorem State.remoteArrival_foreign {tag : Word} (ht : l.jobTag ≠ tag) (mem last : Bool) (sg : Option (Fin 16)) :
    s.remoteArrival src c mem tag addr bytes last sg = (s, false) := by
  simp only [State.remoteArrival, hl, if_pos ht]

/-- Bytes that fit the operand store are written there, signalled, and then acknowledged. -/
theorem State.remoteArrival_ost (hfit : addr.toNat + bytes.length ≤ 0x300000) (last : Bool) {sg : Option (Fin 16)} (hr : (s.core c.val).sigRoom sg) :
    ∃ u, s.remoteArrival src c false l.jobTag addr bytes last sg = (u.emit (.remoteAck src bytes.length), false) ∧
      s.onlyCore u c.val ((s.core c.val).arrived addr.toNat bytes (if last then sg else none)) := by
  have hin : inOst addr.toNat bytes.length = true := by
    have hle : (addr.toNat : Int) + (bytes.length : Int) ≤ 0x300000 := by exact_mod_cast hfit
    simp [inOst, ostSize, hle]
  have hwrite := s.onlyCore_modCore c.val fun k => if inOst addr.toNat bytes.length then k.ostWrite addr.toNat bytes else k
  rw [if_pos hin] at hwrite
  simp only [State.remoteArrival, hl, ne_eq, not_true_eq_false, Bool.false_eq_true, if_false]
  generalize s.modCore c.val _ = v at hwrite
  cases last with
  | false => exact ⟨v, rfl, hwrite⟩
  | true =>
    obtain ⟨hv, hcore, hother⟩ := hwrite
    obtain ⟨u, hsig, hu, hucore, huother⟩ := v.signalOpt_room l c.val sg { code := 0, core := some c } (by rw [hcore]; exact hr)
    rw [if_pos rfl, hsig]
    refine ⟨u, rfl, by rw [hu, hv], by rw [hucore, hcore]; rfl, fun i hi => (huother i hi).trans (hother i hi)⟩

end

/-- Settles O26. -/
theorem remoteBytes : Obligations.RemoteBytes := by
  refine fun s src c mem tag addr bytes last sg => ⟨fun h => ?_, fun l hl ht hfit _ hr => ?_⟩
  · refine (congrArg (finish s) ?_).trans (finish_false s s rfl rfl)
    cases hl : s.running with
    | none => simp only [State.remoteArrival, hl]
    | some l => exact State.remoteArrival_foreign hl src c (h l hl) mem last sg
  · subst ht
    obtain ⟨u, hrun, hu, hcore, hother⟩ := State.remoteArrival_ost hl src c hfit last hr
    have hread : (u.core c.val).ostRead = ((s.core c.val).ostWrite addr.toNat bytes).ostRead := by
      funext a n
      rw [hcore, Core.arrived, Core.ostRead_giveTok]
    refine ⟨u.emit (.remoteAck src bytes.length), (congrArg (finish s) hrun).trans (finish_emits (o := [.remoteAck src bytes.length]) ?_ ?_ ?_),
      ?_, hcore, hother, ?_, fun a n h => ?_, ?_⟩
    · rw [hu]; rfl
    · simp [Out.isRemote]
    · rw [hu]; rfl
    · rw [hu]; rfl
    · exact (congrFun (congrFun hread _) _).trans (Core.ostRead_ostWrite _ _ _)
    · exact (congrFun (congrFun hread _) _).trans (Core.ostRead_ostWrite_other _ _ _ _ _ h)
    · rw [hu]; rfl

end Sys2Proof.Machine
end

section
/-!
PROOFS about flits: their order, acknowledgement and resending (11 R313, R314, R317).
-/

namespace Sys2Proof.Machine

variable {s t u : State}

/-! ### A port changed twice -/

theorem sput_sput {α : Type} (t : Sparse α) (k : Nat) (a b : α) : sput (sput t k a) k b = sput t k b := by
  induction t with
  | nil => simp [sput]
  | cons e t ih =>
    simp only [sput]
    split
    · simp [sput, *]
    · split
      · simp [sput, *]
      · simp [sput, *]

theorem sset_sset_ne {α : Type} [DecidableEq α] {d : α} (t : Sparse α) (k : Nat) {a b : α} (ha : a ≠ d) (hb : b ≠ d) :
    sset d (sset d t k a) k b = sset d t k b := by
  simp only [sset, if_neg ha, if_neg hb, sput_sput]

/-- A port in service that stays in service, changed twice. -/
theorem State.modPort_modPort (s : State) (p : Fin 6) (f g : Port → Port) (hf : (f (s.port p)).state = .up) (hg : (g (f (s.port p))).state = .up) :
    (s.modPort p f).modPort p g = s.modPort p fun q => g (f q) := by
  have hne {q : Port} (h : q.state = .up) : q ≠ {} := fun e => by rw [e] at h; cases h
  have hget : sget {} (smod {} s.fab.ports p.val f) p.val = f (s.port p) := s.port_modPort_same p f
  simp only [State.modPort, smod] at hget ⊢
  rw [hget]
  exact congrArg (fun ports => { s with fab := { s.fab with ports := ports } }) (sset_sset_ne _ _ (hne hf) (hne hg))

/-! ### Flits that come (11 R313) -/

section
variable {p : Fin 6} (hup : (s.port p).state = .up)
include hup

theorem State.portUp_of_up : s.portUp p = true := beq_iff_eq.2 hup

/-- An intact flit of the expected number is acknowledged and taken. -/
theorem State.flitIn_expected (f : Flit) (hd : f.data.length = 256) (hc : f.cls = 1 ∨ f.cls = 2) : s.flitIn p (f.bytes (s.port p).rxSeq) =
    ((s.modPort p fun q => { q with rxSeq := q.rxSeq + 1, discarding := false }).emit (.sym p (.ack (s.port p).rxSeq))).takeFlit p f := by
  have h3 : f.cls ≠ 3 := by rcases hc with h | h <;> rw [h] <;> decide
  have h0 : f.cls ≠ 0 := by rcases hc with h | h <;> rw [h] <;> decide
  simp only [State.flitIn, State.portUp_of_up hup, Laws.readFlit_bytes f _ hd h3, h0, Bool.not_true, Bool.false_eq_true, if_false, if_true]

/-- One that has come before is acknowledged again, one out of turn is discarded. -/
theorem State.flitIn_otherTurn (f : Flit) (seq : BitVec 12) (hd : f.data.length = 256) (hc : f.cls = 1 ∨ f.cls = 2) (hs : seq ≠ (s.port p).rxSeq) :
    s.flitIn p (f.bytes seq) = if ((s.port p).rxSeq - 1 - seq).toNat < 512 then s.emit (.sym p (.ack seq)) else s := by
  have h3 : f.cls ≠ 3 := by rcases hc with h | h <;> rw [h] <;> decide
  have h0 : f.cls ≠ 0 := by rcases hc with h | h <;> rw [h] <;> decide
  simp only [State.flitIn, State.portUp_of_up hup, Laws.readFlit_bytes f _ hd h3, h0, hs, Bool.not_true, Bool.false_eq_true, if_false]

/-- A damaged one is refused. -/
theorem State.flitIn_damaged {bs : List Byte}
    (h : bs.length ≠ 272 ∨ leNat (bs.take 4) / 2 ^ 30 = 3 ∨ leNat (bs.drop 268) ≠ (crc32c (bs.take 268)).toNat) :
    s.flitIn p bs = (s.modPort p fun q => { q with discarding := true }).emit (.sym p (.nak (.flit (s.port p).rxSeq))) := by
  have hread : readFlit bs = none := if_pos h
  simp only [State.flitIn, State.portUp_of_up hup, hread, Bool.not_true, Bool.false_eq_true, if_false]

end

/-! ### Flits that leave (11 R314) -/

theorem State.drainPort_nothing {p : Fin 6} (h : (s.port p).backlog = []) : s.drainPort p = s := by
  rw [State.drainPort, h]
  rfl

theorem nextFlit_single (f : Flit) : nextFlit [f] = some f := by
  simp only [nextFlit, List.find?_cons, List.head?_cons]
  split <;> rfl

/-- The only flit that waits leaves, as the replay buffer has room. -/
theorem State.drainPort_single {p : Fin 6} {f : Flit} (h : (s.port p).backlog = [f]) (hr : (s.port p).replay.length < 512) : s.drainPort p =
    (s.modPort p fun q => { q with txSeq := q.txSeq + 1, replay := q.replay ++ [(q.txSeq, f)], backlog := q.backlog.erase f }).emit
      (.flit p (f.bytes (s.port p).txSeq)) := by
  rw [State.drainPort, h]
  simp only [List.length_singleton, drainGo, h, nextFlit_single, Nat.not_le.2 hr, ge_iff_le, if_false]

/-- A port that sends its buffer from a flit on again. -/
def Port.resend (again : List (BitVec 12 × Flit)) (tries : Nat) (q : Port) : Port :=
  { q with replay := again, tries := tries + 1, retries := again.foldl (fun n _ => satInc n) q.retries }

section
variable {p : Fin 6} (hup : (s.port p).state = .up) {a rest : List (BitVec 12 × Flit)} {seq : BitVec 12} {b : Flit}
  (hrep : (s.port p).replay = a ++ (seq, b) :: rest) (ha : ∀ f ∈ a, f.1 ≠ seq)
include hrep ha

/-- The replay buffer from the named flit on. -/
theorem State.replay_from : ((s.port p).replay.dropWhile fun f => f.1 != seq) = (seq, b) :: rest := by
  rw [hrep, List.dropWhile_append_of_pos fun f hf => bne_iff_ne.2 (ha f hf)]
  simp

include hup

/-- ACK: what is acknowledged leaves the buffer, and what waits for room goes on. -/
theorem State.flitAck_frees (det : List Bool) : s.flitAck p seq det =
    ((s.modPort p fun q => { q with replay := rest, tries := 0 }).drainPort p).pump det := by
  have hany : ((s.port p).replay.any fun f => f.1 == seq) = true := by simp [hrep]
  have hmod : (s.modPort p fun q => { q with replay := (q.replay.dropWhile fun f => f.1 != seq).drop 1, tries := 0 }) =
      s.modPort p fun q => { q with replay := rest, tries := 0 } :=
    s.modPort_congr p (congrArg (fun r => { s.port p with replay := r.drop 1, tries := 0 }) (State.replay_from hrep ha))
  simp only [State.flitAck, State.portUp_of_up hup, hany, hmod, Bool.not_true, Bool.or_self, Bool.false_eq_true, if_false]

/-- NAK: the tries so far of the flit that it names. -/
theorem State.flitNak_eq : s.flitNak p seq =
    if 16 ≤ (if a = [] then (s.port p).tries else 0) then s.linkDown p
    else ((s.modPort p (Port.resend ((seq, b) :: rest) (if a = [] then (s.port p).tries else 0))).emitAll
          (((seq, b) :: rest).map fun f => .flit p (f.2.bytes f.1))).drainPort p := by
  have hlen : ((s.port p).replay.length = ((seq, b) :: rest).length) = (a = []) := by
    rw [hrep, List.length_append]
    simp
  simp only [State.flitNak, State.portUp_of_up hup, State.replay_from hrep ha, hlen, List.isEmpty_cons, Bool.not_true, Bool.or_self,
    Bool.false_eq_true, if_false, ge_iff_le]
  rfl

end

/-- Settles O39. -/
theorem flits : Obligations.Flits := by
  intro s p hup q
  refine ⟨fun f seq hd hc => ?_, fun bs h => congrArg Host.Outcome.next (State.flitIn_damaged hup h), fun a seq b rest n hrep ha => ⟨fun det hcs => ⟨fun hb => ?_, fun f hb hroom => ?_⟩,
      fun hb hmay => ?_, fun h0 h16 => ?_⟩⟩
  · intro u run
    refine ⟨fun hs hdst => ?_, fun hs hdst hk => ?_, fun hs hdst hcls hk => ?_, fun hs => ?_⟩
    · subst hs
      exact congrArg Host.Outcome.next ((State.flitIn_expected hup f hd hc).trans (if_pos hdst))
    · subst hs
      refine congrArg Host.Outcome.next ((State.flitIn_expected hup f hd hc).trans ((if_neg (not_not_intro hdst)).trans (if_neg ?_)))
      rintro ⟨h1, h2⟩
      rcases hk with h | h
      · rw [h] at h1; cases h1
      · exact h h2
    · subst hs
      exact congrArg Host.Outcome.next ((State.flitIn_expected hup f hd hc).trans ((if_neg (not_not_intro hdst)).trans (if_pos ⟨hcls, hk⟩)))
    · exact congrArg Host.Outcome.next (State.flitIn_otherTurn hup f seq hd hc hs)
  · have hdrain : (s.modPort p fun q => { q with replay := rest, tries := 0 }).drainPort p = s.modPort p fun q => { q with replay := rest, tries := 0 } :=
      State.drainPort_nothing (by rw [State.port_modPort_same]; exact hb)
    have hno : ∀ c ∈ s.col.colls, c.phase ≠ .data := by rw [hcs]; nofun
    have hrun := State.flitAck_frees hup hrep ha det
    rw [hdrain] at hrun
    exact (congrArg (finish s) (hrun.trans (State.pump_of_no_data (by exact hno) det))).trans (finish_false s _ rfl rfl)
  · have hdrain : (s.modPort p fun q => { q with replay := rest, tries := 0 }).drainPort p =
        (s.modPort p fun q => { q with replay := rest ++ [(q.txSeq, f)], tries := 0, txSeq := q.txSeq + 1, backlog := [] }).emit (.flit p (f.bytes (s.port p).txSeq)) := by
      rw [State.drainPort_single (f := f) (by rw [State.port_modPort_same]; exact hb) (by rw [State.port_modPort_same]; exact hroom),
        State.modPort_modPort _ _ _ _ hup hup, State.port_modPort_same]
      refine congrArg (State.emit · _) (s.modPort_congr p ?_)
      dsimp only
      rw [show (s.port p).backlog = [f] from hb]
      simp
    have hno : ∀ c ∈ s.col.colls, c.phase ≠ .data := by rw [hcs]; nofun
    have hrun := State.flitAck_frees hup hrep ha det
    rw [hdrain] at hrun
    exact (congrArg (finish s) (hrun.trans (State.pump_of_no_data (by exact hno) det))).trans (finish_emits (o := [.flit p _]) rfl (by simp [Out.isRemote]) rfl)
  · have htries : ¬ 16 ≤ (if a = [] then (s.port p).tries else 0) := by
      split
      · next h => exact Nat.not_le.2 (hmay.resolve_left (not_not_intro h))
      · decide
    have hrun := State.flitNak_eq hup hrep ha
    rw [if_neg htries, State.drainPort_nothing (by exact (congrArg Port.backlog (s.port_modPort_same p _)).trans hb)] at hrun
    refine ⟨_, (finishAll_eq s _).trans (congrArg (fun v => Host.Outcome.next (s.after v)) hrun), ?_, rfl, fun x hx => s.port_modPort_other _ hx⟩
    have hport := s.port_modPort_same p (Port.resend ((seq, b) :: rest) (if a = [] then (s.port p).tries else 0))
    have hnext : (if a = [] then (s.port p).tries else 0) + 1 = if a = [] then (s.port p).tries + 1 else 1 := by split <;> rfl
    refine hport.trans ?_
    rw [← hnext]
    exact congrArg (fun r => { q with replay := (seq, b) :: rest, tries := (if a = [] then (s.port p).tries else 0) + 1, retries := r }) (congrArg Port.retries hport).symm
  · refine (finishAll_eq s _).trans (congrArg (fun v => Host.Outcome.next (s.after v)) ((State.flitNak_eq hup hrep ha).trans (if_pos ?_)))
    rw [if_pos h0]
    exact h16

end Sys2Proof.Machine
end

section
/-!
PROOFS about packets of the host port (13 R370-R376, R379).
-/

namespace Sys2Proof.Machine

variable {s t u : State} {q qid : BitVec 12} {h : Hdr}

/-! ### A queue changed -/

/-- A change of a queue is a matter of what the queue was. -/
theorem State.modQueue_congr (s : State) (q : BitVec 12) {f g : Queue → Queue} (h : f (s.queue q) = g (s.queue q)) : s.modQueue q f = s.modQueue q g := by
  simp only [State.modQueue, smod]
  rw [show f (sget {} s.qce.queues q.toNat) = g (sget {} s.qce.queues q.toNat) from h]

/-- A valid queue that stays valid, changed twice. -/
theorem State.modQueue_modQueue (s : State) (q : BitVec 12) (f g : Queue → Queue) (hf : (f (s.queue q)).valid = true)
    (hg : (g (f (s.queue q))).valid = true) : (s.modQueue q f).modQueue q g = s.modQueue q fun x => g (f x) := by
  have hne {x : Queue} (h : x.valid = true) : x ≠ {} := fun e => by rw [e] at h; cases h
  have hget : sget {} (smod {} s.qce.queues q.toNat f) q.toNat = f (s.queue q) := s.queue_modQueue_same q f
  simp only [State.modQueue, smod] at hget ⊢
  rw [hget]
  exact congrArg (fun queues => { s with qce := { s.qce with queues := queues } }) (sset_sset_ne _ _ (hne hf) (hne hg))

theorem mem_sput {α : Type} {t : Sparse α} {k : Nat} {v : α} {e : Nat × α} (h : e ∈ sput t k v) : e ∈ t ∨ e = (k, v) := by
  induction t with
  | nil => exact .inr (List.mem_singleton.1 h)
  | cons x t ih =>
    simp only [sput] at h
    split at h
    · exact (List.mem_cons.1 h).symm
    · split at h
      · exact (List.mem_cons.1 h).elim .inr fun h => .inl (List.mem_cons_of_mem _ h)
      · rcases List.mem_cons.1 h with h | h
        · exact .inl (h ▸ List.mem_cons_self)
        · exact (ih h).imp_left (List.mem_cons_of_mem _)

theorem mem_sset {α : Type} [DecidableEq α] {d : α} {t : Sparse α} {k : Nat} {v : α} {e : Nat × α} (h : e ∈ sset d t k v) : e ∈ t ∨ e = (k, v) := by
  simp only [sset] at h
  split at h
  · exact .inl (List.mem_filter.1 h).1
  · exact mem_sput h

/-! ### COMPLETIONs that wait for EVENTs (13 R392) -/

/-- The queue's first waiting message is a COMPLETION that follows EVENTs. -/
def Queue.isHeld (q : Queue) : Bool := match q.txWait with | m :: _ => !m.after.isEmpty | [] => false

theorem State.heldQueues_eq_nil : s.heldQueues = [] ↔ ∀ e ∈ s.qce.queues, e.2.isHeld = false := by
  rw [State.heldQueues, List.map_eq_nil_iff, List.filter_eq_nil_iff]
  exact forall₂_congr fun e _ => Bool.not_eq_true _ ▸ Iff.rfl

/-- A queue with no message that waits is none of them. -/
theorem State.heldQueues_modQueue (hh : s.heldQueues = []) (q : BitVec 12) (f : Queue → Queue) (ht : (f (s.queue q)).txWait = []) :
    (s.modQueue q f).heldQueues = [] := by
  rw [State.heldQueues_eq_nil] at hh ⊢
  intro e he
  rcases mem_sset he with h | h
  · exact hh e h
  · rw [h]
    show (f (s.queue q)).isHeld = false
    rw [Queue.isHeld, ht]

theorem State.heldQueues_useEntry (s : State) (q : BitVec 12) : (s.useEntry q).heldQueues = s.heldQueues := by
  obtain ⟨l, n, h⟩ := s.useEntry_only q
  rw [h]
  rfl

/-- With no message that waits on it, and none held on another, nothing leaves a queue. -/
theorem State.flushTx_nothing (ht : (s.queue q).txWait = []) (hh : s.heldQueues = []) : s.flushTx q = s := by
  rw [State.flushTx, ht]
  show s.flushHeld = s
  rw [State.flushHeld, hh]
  rfl

/-! ### A header's acknowledgements (13 R371, R374-R376) -/

/-- All that was outstanding on a queue is acknowledged: `n` messages of the host have their COMPLETION. -/
def Queue.acked (q : Queue) (n : Nat) (cred : Word) : Queue := { q with sent := [], freed := q.freed + .ofNat 32 n, hostCred := cred }

theorem Queue.sent_acked (q : Queue) (n : Nat) (cred : Word) : (q.acked n cred).sent = [] := rfl

section
variable (ht : (s.queue h.qid).txWait = []) (hh : s.heldQueues = [])
include ht hh

/-- With nothing outstanding a header brings its credit alone. -/
theorem State.ackIn_credit (hs : (s.queue h.qid).sent = []) : s.ackIn h = s.modQueue h.qid fun q => { q with hostCred := h.credLimit } := by
  have hmod : (s.modQueue h.qid fun q => { q with sent := q.sent.filter fun p => !covers h p.psn, freed := q.freed + .ofNat 32 0, hostCred := h.credLimit }) =
      s.modQueue h.qid fun q => { q with hostCred := h.credLimit } := by
    refine s.modQueue_congr h.qid ?_
    rw [hs, BitVec.add_zero, List.filter_nil, ← hs]
  simp only [State.ackIn, hs, List.filter_nil, List.length_nil, List.foldl_nil, List.isEmpty_nil, if_true, hmod]
  exact State.flushTx_nothing (by rw [State.queue_modQueue_same]; exact ht) (State.heldQueues_modQueue hh _ _ ht)

/-- The only packet outstanding is acknowledged; it tells of no record. -/
theorem State.ackIn_single {p : TxPkt} (hs : (s.queue h.qid).sent = [p]) (hp : p.psn = h.ackPsn) (hr : p.msg.record = none) : s.ackIn h =
    s.modQueue h.qid (·.acked (if p.msg.answers then 1 else 0) h.credLimit) := by
  have hcov : covers h p.psn = true := by simp [covers, hp]
  have hgone : ([p].filter fun p => covers h p.psn) = [p] := by simp [hcov]
  have hkept : ([p].filter fun p => !covers h p.psn) = [] := by simp [hcov]
  have hfreed : ([p].filter fun p => p.msg.answers).length = if p.msg.answers then 1 else 0 := by
    cases hm : p.msg.answers <;> simp [hm]
  have hmod (n : Nat) :
      (s.modQueue h.qid fun q => { q with sent := q.sent.filter fun p => !covers h p.psn, freed := q.freed + .ofNat 32 n, hostCred := h.credLimit }) =
      s.modQueue h.qid (·.acked n h.credLimit) := by
    refine s.modQueue_congr h.qid ?_
    rw [hs, hkept]
    rfl
  simp only [State.ackIn, hs, hgone, hfreed, hmod, List.foldl_cons, List.foldl_nil, hr, List.isEmpty_cons, Bool.false_eq_true, if_false,
    State.queue_modQueue_same, Queue.sent_acked, List.filter_nil]
  exact State.flushTx_nothing (by rw [State.queue_modQueue_same]; exact ht) (State.heldQueues_modQueue hh h.qid (·.acked _ _) ht)

end

/-! ### Packets (13 R371, R373) -/

section
variable {m : Option HostMsg}

theorem State.packet_early (hr : s.hostReady = false) : s.packet h m = s := by
  simp only [State.packet, hr, Bool.not_false, if_true]

theorem State.packet_other (hr : s.hostReady = true) (ha : s.addressed h = false) :
    s.packet h m = { s with qce := { s.qce with dropOther := satInc s.qce.dropOther } } := by
  simp only [State.packet, hr, ha, Bool.not_true, Bool.not_false, Bool.false_eq_true, if_false, if_true]
  rfl

theorem State.packet_source (hr : s.hostReady = true) (ha : s.addressed h = true) (ht : s.takes h = false) :
    s.packet h m = { s with qce := { s.qce with dropSource := satInc s.qce.dropSource } } := by
  simp only [State.packet, hr, ha, ht, Bool.not_true, Bool.not_false, Bool.false_eq_true, if_false, if_true]
  rfl

theorem State.hostReady_of_takes (ht : s.takes h = true) : s.hostReady = true := by
  simp only [State.takes, Bool.and_eq_true] at ht
  exact ht.1.1.1

theorem State.valid_of_takes (ht : s.takes h = true) : (s.queue h.qid).valid = true := by
  simp only [State.takes, Bool.and_eq_true] at ht
  exact ht.1.1.2

variable (ha : s.addressed h = true) (ht : s.takes h = true)
include ha ht

theorem State.packet_ack : s.packet h none = (s.useEntry h.qid).ackIn h := by
  simp only [State.packet, State.hostReady_of_takes ht, ha, ht, Bool.not_true, Bool.false_eq_true, if_false]

theorem State.packet_above (m : HostMsg) (h1 : 256 ≤ (h.psn - (s.queue h.qid).rxPsn).toNat) (h2 : (h.psn - (s.queue h.qid).rxPsn).toNat < 2 ^ 31) :
    s.packet h (some m) = s.useEntry h.qid := by
  have habove : (s.queue h.qid).above h.psn = true := decide_eq_true ⟨h1, h2⟩
  simp only [State.packet, State.hostReady_of_takes ht, ha, ht, habove, Bool.not_true, Bool.false_eq_true, if_false, if_true]

theorem State.packet_within (m : HostMsg) (hw : ¬ (256 ≤ (h.psn - (s.queue h.qid).rxPsn).toNat ∧ (h.psn - (s.queue h.qid).rxPsn).toNat < 2 ^ 31)) :
    s.packet h (some m) = ((s.useEntry h.qid).ackIn h).receive h m := by
  have habove : (s.queue h.qid).above h.psn = false := decide_eq_false hw
  simp only [State.packet, State.hostReady_of_takes ht, ha, ht, habove, Bool.not_true, Bool.false_eq_true, if_false]

end

/-- A duplicate is acknowledged again, and not carried out twice. -/
theorem State.receive_duplicate (m : HostMsg) (hd : 2 ^ 31 ≤ (h.psn - (s.queue h.qid).rxPsn).toNat) :
    s.receive h m = s.modQueue h.qid fun q => { q with needAck := true } := by
  simp only [State.receive]
  exact if_pos (.inl hd)

/-- No message in order: none of those held is the next expected one. -/
theorem takeRun_gap (fuel : Nat) {n : Word} {l : List RxMsg} (h : ∀ m ∈ l, m.psn ≠ n) : takeRun fuel n l = ([], n, l) := by
  cases fuel with
  | zero => rfl
  | succ fuel =>
    have hfind : (l.find? fun m => m.psn == n) = none := List.find?_eq_none.2 fun m hm => by simpa using h m hm
    simp only [takeRun, hfind]

/-- A message ahead of a gap is held and acknowledged. -/
theorem State.receive_ahead (m : HostMsg) (h0 : 0 < (h.psn - (s.queue h.qid).rxPsn).toNat) (h1 : (h.psn - (s.queue h.qid).rxPsn).toNat < 2 ^ 31)
    (hr : ∀ m ∈ (s.queue h.qid).rxAhead, m.psn ≠ h.psn ∧ m.psn ≠ (s.queue h.qid).rxPsn) (hc : (h.psn - (s.queue h.qid).devCred).toInt ≤ 0) :
    s.receive h m = (s.modQueue h.qid fun q => { q with needAck := true, rxAhead := q.rxAhead ++
      [{ psn := h.psn, cookie := h.cookie, overrun := false, formed := wellFormedHdr h m, msg := m }] }).sendAck h.qid := by
  have hany : ((s.queue h.qid).rxAhead.any fun m => m.psn == h.psn) = false := by
    simpa using fun m hm => (hr m hm).1
  have hpast : decide ((h.psn - (s.queue h.qid).devCred).toInt > 0) = false := decide_eq_false (Int.not_lt.2 hc)
  have hne : h.psn ≠ (s.queue h.qid).rxPsn := fun e => by
    rw [e, BitVec.sub_self] at h0
    exact absurd h0 (by decide)
  have hgap : ∀ x ∈ (s.queue h.qid).rxAhead ++ [{ psn := h.psn, cookie := h.cookie, overrun := false, formed := wellFormedHdr h m, msg := m }],
      x.psn ≠ (s.queue h.qid).rxPsn := by
    refine List.forall_mem_append.2 ⟨fun x hx => (hr x hx).2, fun x hx => ?_⟩
    rw [List.mem_singleton.1 hx]
    exact hne
  have hmod : (s.modQueue h.qid fun q => { q with needAck := true, rxPsn := (s.queue h.qid).rxPsn, rxAhead := (s.queue h.qid).rxAhead ++
      [{ psn := h.psn, cookie := h.cookie, overrun := false, formed := wellFormedHdr h m, msg := m }] }) =
      s.modQueue h.qid fun q => { q with needAck := true, rxAhead := q.rxAhead ++
        [{ psn := h.psn, cookie := h.cookie, overrun := false, formed := wellFormedHdr h m, msg := m }] } := s.modQueue_congr _ rfl
  simp only [State.receive, hany, hpast, takeRun_gap _ hgap, Bool.false_eq_true, or_false, if_neg (Nat.not_le.2 h1), if_false, List.foldl_nil, hmod,
    ge_iff_le, ne_eq, if_pos (Nat.ne_of_gt h0)]

/-- A queue's packets go out as before while its endpoint stays. -/
theorem State.cqtNet_modQueue (s : State) (q : BitVec 12) {f : Queue → Queue} (hf : (f (s.queue q)).endpoint = (s.queue q).endpoint) :
    (s.modQueue q f).cqtNet q = s.cqtNet q := by
  simp only [State.cqtNet, State.queue_modQueue_same, hf]
  rfl

theorem State.cqtNet_useEntry (s : State) (q x : BitVec 12) : (s.useEntry q).cqtNet x = s.cqtNet x := by
  obtain ⟨l, n, h⟩ := s.useEntry_only q
  rw [h]
  rfl

theorem State.out_useEntry (s : State) (q : BitVec 12) : (s.useEntry q).out = s.out := by
  obtain ⟨l, n, h⟩ := s.useEntry_only q
  rw [h]

theorem State.queue_sendAck (s : State) (q : BitVec 12) :
    (s.sendAck q).queue q = { s.queue q with needAck := false, devCred := (s.queue q).limit } := State.queue_modQueue_same s q _

theorem State.out_sendAck (s : State) (q : BitVec 12) :
    (s.sendAck q).out = s.out ++ [.ack (s.cqtNet q) q ((s.queue q).rxPsn - 1) (s.queue q).sack (s.queue q).limit] := rfl

/-! ### Resending (13 R375) -/

theorem State.retryTimeout_acked (hp : ∀ p ∈ (s.queue qid).sent, p.psn ≠ psn) : s.retryTimeout qid psn = s := by
  have hfind : ((s.queue qid).sent.find? fun p => p.psn == psn) = none := List.find?_eq_none.2 fun p hm => by simpa using hp p hm
  simp only [State.retryTimeout, hfind]

section
variable {p : TxPkt} {psn : Word} (hr : s.hostReady = true) (hp : ((s.queue qid).sent.find? fun p => p.psn == psn) = some p)
include hr hp

theorem State.retryTimeout_again (ht : p.tries < 16) : s.retryTimeout qid psn = s.resend qid p := by
  simp only [State.retryTimeout, hp, hr, Bool.not_true, Bool.false_eq_true, if_false, ge_iff_le, if_neg (Nat.not_le.2 ht)]

theorem State.retryTimeout_lost (ht : 16 ≤ p.tries) : s.retryTimeout qid psn = s.endpointLost qid := by
  simp only [State.retryTimeout, hp, hr, Bool.not_true, Bool.false_eq_true, if_false, ge_iff_le, if_pos ht]

end

/-! ### Addresses (13 R370) -/

theorem State.arpIn_own {a : BitVec 32} (hp : s.sec.powered = true) (hu : s.sec.hostUp = true) (he : s.qce.ipv4En = true) (ha : a = s.qce.ipv4)
    (m : BitVec 48) : s.arpIn a m = s.emit (.arp a m) := by
  simp only [State.arpIn, hp, hu, he, ha, beq_self_eq_true, Bool.and_self, if_true]

theorem State.arpIn_foreign {a : BitVec 32} (h : a ≠ s.qce.ipv4 ∨ s.qce.ipv4En = false) (m : BitVec 48) : s.arpIn a m = s := by
  refine if_neg fun hc => ?_
  simp only [Bool.and_eq_true, beq_iff_eq] at hc
  obtain ⟨⟨-, he⟩, ha⟩ := hc
  exact h.elim (· ha) fun h => by rw [h] at he; cases he

theorem State.solicit_own {a : BitVec 128} (hp : s.sec.powered = true) (hu : s.sec.hostUp = true) (he : s.qce.ipv6En = true) (ha : a = s.ipv6Addr)
    (m : BitVec 48) : s.solicit a m = s.emit (.neighbor a m) := by
  simp only [State.solicit, hp, hu, he, ha, beq_self_eq_true, Bool.and_self, if_true]

theorem State.solicit_foreign {a : BitVec 128} (h : a ≠ s.ipv6Addr ∨ s.qce.ipv6En = false) (m : BitVec 48) : s.solicit a m = s := by
  refine if_neg fun hc => ?_
  simp only [Bool.and_eq_true, beq_iff_eq] at hc
  obtain ⟨⟨-, he⟩, ha⟩ := hc
  exact h.elim (· ha) fun h => by rw [h] at he; cases he

section
variable (hp : s.sec.powered = true) (hu : s.sec.hostUp = true)
include hp hu

theorem State.badPacket_damaged {k : DropKind} (hk : k = .badFcs ∨ k = .badChecksum) :
    s.badPacket k = { s with qce := { s.qce with dropFcs := satInc s.qce.dropFcs } } := by
  rcases hk with rfl | rfl <;>
  simp only [State.badPacket, hp, hu, Bool.and_self, Bool.not_true, Bool.false_eq_true, if_false, State.modQce]

theorem State.badPacket_other : s.badPacket .other = { s with qce := { s.qce with dropOther := satInc s.qce.dropOther } } := by
  simp only [State.badPacket, hp, hu, Bool.and_self, Bool.not_true, Bool.false_eq_true, if_false, State.modQce]

theorem State.badPacket_uncounted {k : DropKind} (hk : k = .tagged ∨ k = .pause) : s.badPacket k = s := by
  rcases hk with rfl | rfl <;> simp only [State.badPacket, hp, hu, Bool.and_self, Bool.not_true, Bool.false_eq_true, if_false]

end

/-- A command whose message is a packet ends with what the packet does. -/
theorem State.host_eq (m : Option HostMsg) (hu : s.packet h m = u) : s.host h m = .next (s.after u) := by
  rw [State.host, hu]
  exact finishAll_eq s u

/-- Settles O48. -/
theorem hostTransport : Obligations.HostTransport := by
  refine ⟨fun s h c hc => ?_, fun s h b ha ht => ?_, fun s qid psn => ?_⟩
  · obtain ⟨m, hm⟩ : ∃ m, exec c s = s.host h m := by
      rcases hc with rfl | ⟨b, rfl | rfl | rfl | rfl⟩ <;> exact ⟨_, rfl⟩
    rw [hm]
    exact ⟨fun hr => State.host_eq m (State.packet_early hr), fun hr ha => State.host_eq m (State.packet_other hr ha),
      fun hr ha ht => State.host_eq m (State.packet_source hr ha ht)⟩
  · intro q d
    have hq : (s.useEntry h.qid).queue h.qid = q := s.queue_useEntry _ _
    refine ⟨fun h1 h2 => State.host_eq _ (State.packet_above ha ht _ h1 h2), fun hs hw hh => ?_, fun p hs hw hh hp hr => ?_⟩
    · intro u
      have hin : (s.useEntry h.qid).ackIn h = u :=
        State.ackIn_credit (by rw [hq]; exact hw) ((s.heldQueues_useEntry _).trans hh) (by rw [hq]; exact hs)
      have huq : u.queue h.qid = { q with hostCred := h.credLimit } := (State.queue_modQueue_same _ _ _).trans (by rw [hq])
      refine ⟨State.host_eq _ ((State.packet_ack ha ht).trans hin), fun hd => ?_, fun h0 h1 hrx hc => ?_⟩
      · refine State.host_eq _ ((State.packet_within ha ht _ fun hb => absurd hb.2 (Nat.not_lt.2 hd)).trans ?_)
        rw [hin]
        exact State.receive_duplicate _ (by rw [huq]; exact hd)
      · have hrun := State.receive_ahead (s := u) (.regRead b) (by rw [huq]; exact h0) (by rw [huq]; exact Nat.lt_trans h1 (by decide))
          (by rw [huq]; exact hrx) (by rw [huq]; exact hc)
        refine ⟨_, State.host_eq _ ((State.packet_within ha ht _ fun hb => absurd hb.1 (Nat.not_le.2 h1)).trans ((congrArg (State.receive · h _) hin).trans hrun)), ?_⟩
        have hnet (v : State) (f : Queue → Queue) (hv : u.modQueue h.qid f = v) (hf : (f (u.queue h.qid)).endpoint = (u.queue h.qid).endpoint) :
            v.cqtNet h.qid = s.cqtNet h.qid := by
          rw [← hv, State.cqtNet_modQueue u h.qid hf, State.cqtNet_modQueue _ _ (by rfl), State.cqtNet_useEntry]
        have hout (f : Queue → Queue) : (u.modQueue h.qid f).out = s.out := s.out_useEntry _
        rw [State.queue_sendAck, State.out_sendAck, State.queue_modQueue_same, huq, hnet _ _ rfl rfl, hout]
        exact ⟨rfl, rfl, rfl, rfl, _, _, rfl⟩
    · have hin := State.ackIn_single (s := s.useEntry h.qid) (by rw [hq]; exact hw) ((s.heldQueues_useEntry _).trans hh) (by rw [hq]; exact hs) hp hr
      refine ⟨_, State.host_eq _ ((State.packet_ack ha ht).trans hin), ?_, ?_, ?_⟩
      · rw [State.queue_modQueue_same]
        rfl
      · rw [State.queue_modQueue_same, hq]
        cases p.msg.answers <;> rfl
      · rw [State.queue_modQueue_same]
        rfl
  · intro q
    refine ⟨fun hr hn => ?_, fun hn => ?_, fun hp => ?_, fun p hr hp => ⟨fun ht => ?_, fun ht => ?_⟩, fun a b c d m => ?_⟩
    · exact congrArg Host.Outcome.next (if_pos (by rw [hr, hn]; rfl))
    · exact congrArg Host.Outcome.next (if_neg (by rw [hn, Bool.and_false]; exact Bool.false_ne_true))
    · exact (finishAll_eq s _).trans (congrArg (fun u => Host.Outcome.next (s.after u)) (State.retryTimeout_acked hp))
    · have hpsn : p.psn = psn := by simpa using List.find?_some hp
      refine ⟨_, (finishAll_eq s _).trans (congrArg (fun u => Host.Outcome.next (s.after u)) (State.retryTimeout_again hr hp ht)), rfl, ?_⟩
      refine (congrArg Queue.sent (State.queue_modQueue_same s qid _)).trans ?_
      simp only [hpsn, beq_iff_eq]
      rfl
    · exact (finishAll_eq s _).trans (congrArg (fun u => Host.Outcome.next (s.after u)) (State.retryTimeout_lost hr hp ht))
    · refine ⟨fun hu he h => congrArg Host.Outcome.next (State.arpIn_own hu.1 hu.2 he h m), fun h => congrArg Host.Outcome.next (State.arpIn_foreign h m),
        fun hu he h => congrArg Host.Outcome.next (State.solicit_own hu.1 hu.2 he h m), fun h => congrArg Host.Outcome.next (State.solicit_foreign h m),
        fun hu => ?_⟩
      exact ⟨fun k hk => congrArg Host.Outcome.next (State.badPacket_damaged hu.1 hu.2 hk), congrArg Host.Outcome.next (State.badPacket_other hu.1 hu.2),
        congrArg Host.Outcome.next (State.badPacket_uncounted hu.1 hu.2 (.inl rfl)), congrArg Host.Outcome.next (State.badPacket_uncounted hu.1 hu.2 (.inr rfl))⟩

end Sys2Proof.Machine
end

section
/-!
PROOFS about a message that comes alone: it is delivered, carried out and answered (13 R371-R373, R380, R388, R392).
-/

namespace Sys2Proof.Machine

variable {s t u : State} {q : BitVec 12} {h : Hdr} {n : Nat} {msg : HostMsg}

/-! ### Queues whose next message may begin -/

/-- The queue's next message may begin. -/
def Queue.begins (q : Queue) : Bool := q.cur.isNone && !q.waiting.isEmpty && !q.blocked

theorem State.nextQueue_eq_none : s.nextQueue = none ↔ ∀ e ∈ s.qce.queues, e.2.begins = false := by
  rw [State.nextQueue, Option.map_eq_none_iff, List.find?_eq_none]
  exact forall₂_congr fun e _ => Bool.not_eq_true _ ▸ Iff.rfl

theorem State.nextQueue_useEntry (s : State) (q : BitVec 12) : (s.useEntry q).nextQueue = s.nextQueue := by
  obtain ⟨l, n, h⟩ := s.useEntry_only q
  rw [h]
  rfl

/-- A change of a queue lets nothing begin where its own message may not. -/
theorem State.nextQueue_modQueue_none (hn : s.nextQueue = none) (q : BitVec 12) {f : Queue → Queue} (hf : (f (s.queue q)).begins = false) :
    (s.modQueue q f).nextQueue = none := by
  rw [State.nextQueue_eq_none] at hn ⊢
  intro e he
  rcases mem_sset he with h | h
  · exact hn e h
  · rw [h]
    exact hf

theorem mem_sput_self {α : Type} (t : Sparse α) (k : Nat) (v : α) : (k, v) ∈ sput t k v := by
  induction t with
  | nil => exact List.mem_singleton.2 rfl
  | cons x t ih =>
    simp only [sput]
    split
    · exact List.mem_cons_self
    · split
      · exact List.mem_cons_self
      · exact List.mem_cons_of_mem _ ih

theorem mem_queues_modQueue (s : State) (q : BitVec 12) {f : Queue → Queue} (hf : f (s.queue q) ≠ {}) :
    (q.toNat, f (s.queue q)) ∈ (s.modQueue q f).qce.queues := by
  show _ ∈ sset {} s.qce.queues q.toNat (f (s.queue q))
  rw [sset, if_neg hf]
  exact mem_sput_self _ _ _

/-- The only queue whose message may begin is the next one. -/
theorem State.nextQueue_modQueue_some (hn : s.nextQueue = none) (q : BitVec 12) {f : Queue → Queue} (hf : (f (s.queue q)).begins = true) :
    (s.modQueue q f).nextQueue = some q := by
  have hne : f (s.queue q) ≠ {} := fun e => by rw [e] at hf; cases hf
  rw [State.nextQueue_eq_none] at hn
  have hsome : ((s.modQueue q f).qce.queues.find? fun e => e.2.begins).isSome = true :=
    List.find?_isSome.2 ⟨_, mem_queues_modQueue s q hne, hf⟩
  obtain ⟨e, he⟩ := Option.isSome_iff_exists.1 hsome
  have heq : e = (q.toNat, f (s.queue q)) := by
    refine (mem_sset (List.mem_of_find?_eq_some he)).resolve_left fun h => ?_
    have hb : e.2.begins = true := by simpa using List.find?_some he
    rw [hn e h] at hb
    cases hb
  show ((s.modQueue q f).qce.queues.find? fun e => e.2.begins).map _ = some q
  rw [he, heq]
  exact congrArg some ((BitVec.ofNat_toNat 12 q).trans (BitVec.setWidth_eq q))

/-! ### Messages go on (13 R392) -/

theorem le_foldl_add {α : Type} (f : α → Nat) (l : List α) (a : Nat) : a ≤ l.foldl (fun n e => n + f e) a := by
  induction l generalizing a with
  | nil => exact Nat.le_refl a
  | cons x l ih => exact Nat.le_trans (Nat.le_add_right _ _) (ih _)

theorem lt_foldl_add_of_mem {α : Type} {f : α → Nat} {l : List α} {e : α} (he : e ∈ l) (a : Nat) : a + f e ≤ l.foldl (fun n e => n + f e) a := by
  induction l generalizing a with
  | nil => cases he
  | cons x l ih =>
    rcases List.mem_cons.1 he with h | h
    · rw [h]
      exact le_foldl_add f l _
    · exact Nat.le_trans (Nat.add_le_add_right (Nat.le_add_right _ _) _) (ih h _)

/-- The message that may begin is carried out, and what it lets go on goes on, as long as no further message may begin. -/
theorem State.settle_carry (hn : s.nextQueue = some q) (hc : (s.carry q).nextQueue = none) (hg : (s.carry q).goesOnOnce.nextQueue = none) :
    s.settle = (s.carry q).goesOnOnce := by
  obtain ⟨e, he, -⟩ := Option.map_eq_some_iff.1 hn
  have hb : e.2.begins = true := by simpa [Queue.begins] using List.find?_some he
  have hpos : 0 < e.2.waiting.length := by
    simp only [Queue.begins, Bool.and_eq_true, Bool.not_eq_true', List.isEmpty_eq_false_iff] at hb
    exact List.length_pos_iff.2 hb.1.2
  have hle := lt_foldl_add_of_mem (f := fun e : Nat × Queue => e.2.waiting.length) (List.mem_of_find?_eq_some he) 0
  rw [State.settle]
  generalize s.qce.queues.foldl _ 0 = m at hle ⊢
  obtain ⟨k, rfl⟩ : ∃ k, m = k + 1 := ⟨m - 1, by omega⟩
  have hall : carryAll (k + 1) s = s.carry q := by
    rw [carryAll, hn]
    exact carryAll_quiet _ k hc
  rw [settleGo, hall]
  simp only [hg, Option.isSome_none, Bool.false_eq_true, if_false]

/-! ### The message is delivered (13 R371-R373) -/

/-- The message of a header as it waits in its queue's order. -/
def rxOf (h : Hdr) (m : HostMsg) (formed : Bool) : RxMsg := { psn := h.psn, cookie := h.cookie, overrun := false, formed := formed, msg := m }

/-- The state in which the message stands at the head of its queue's order. -/
def State.standing (s : State) (h : Hdr) (m : RxMsg) : State := (s.taken h).modQueue h.qid fun q => { q with waiting := [m] }

theorem takeRun_single (m : RxMsg) (fuel : Nat) : takeRun (fuel + 1) m.psn [m] = ([m], m.psn + 1, []) := by
  have hfind : ([m].find? fun x => x.psn == m.psn) = some m := by simp
  have hrest : ([m].filter fun x => x.psn != m.psn) = [] := by simp
  simp only [takeRun, hfind, hrest]
  rw [takeRun_gap fuel fun _ h => absurd h List.not_mem_nil]

/-- A QUEUE_CTL on its own queue with nothing before it waits for its turn like any message. -/
theorem State.actAtOnce_alone (hc : (s.queue q).cur = none) (hw : (s.queue q).waiting = []) (m : RxMsg) : s.actAtOnce q m = (s, m) := by
  simp only [State.actAtOnce, hc, hw, Option.isSome_none, List.isEmpty_nil, Bool.not_true, Bool.or_self, Bool.not_false, Bool.true_or, if_true]
  split <;> rfl

/-- The message that a queue with none before it expects next is delivered. -/
theorem State.receive_next (m : HostMsg) (hpsn : h.psn = (s.queue h.qid).rxPsn) (hcred : (h.psn - (s.queue h.qid).devCred).toInt ≤ 0)
    (hrx : (s.queue h.qid).rxAhead = []) (hc : (s.queue h.qid).cur = none) (hw : (s.queue h.qid).waiting = []) :
    s.receive h m = (s.modQueue h.qid fun q => { q with needAck := true, rxPsn := h.psn + 1, rxAhead := [] }).modQueue h.qid fun q =>
      { q with waiting := q.waiting ++ [rxOf h m (wellFormedHdr h m)] } := by
  have hd : (h.psn - (s.queue h.qid).rxPsn).toNat = 0 := by rw [hpsn, BitVec.sub_self]; rfl
  have hpast : decide ((h.psn - (s.queue h.qid).devCred).toInt > 0) = false := decide_eq_false (Int.not_lt.2 hcred)
  have hrun := takeRun_single (rxOf h m (wellFormedHdr h m)) 0
  have hdeliver (v : State) (hv : (v.queue h.qid).cur = none) (hv' : (v.queue h.qid).waiting = []) (r : RxMsg) :
      State.deliver h.qid v r = v.modQueue h.qid fun q => { q with waiting := q.waiting ++ [r] } := by
    simp only [State.deliver, State.actAtOnce_alone hv hv']
  simp only [State.receive, hd, hrx, hpast, List.nil_append, List.length_nil, List.any_nil, Bool.false_eq_true, or_false, if_false, ne_eq,
    not_true_eq_false, if_neg (show ¬ 0 ≥ 2 ^ 31 by decide)]
  rw [rxOf] at hrun
  simp only [← hpsn, hrun, List.foldl_cons, List.foldl_nil]
  exact hdeliver _ (by rw [State.queue_modQueue_same]; exact hc) (by rw [State.queue_modQueue_same]; exact hw) _

theorem State.wellFormedHdr_of_awaits (hw : s.awaits h n) (m : HostMsg) : wellFormedHdr h m = (m.bytes == some n) := by
  obtain ⟨-, -, h0, h5, h7, hn, -⟩ := hw
  simp only [wellFormedHdr, h0, h5, h7, hn, beq_self_eq_true, Bool.true_and]

theorem State.queue_taken (s : State) (h : Hdr) : (s.taken h).queue h.qid =
    { s.queue h.qid with hostCred := h.credLimit, needAck := true, rxPsn := (s.queue h.qid).rxPsn + 1 } := by
  rw [State.taken, State.queue_modQueue_same, State.queue_useEntry]

section
variable (hw : s.awaits h n)
include hw

theorem State.valid_of_awaits : (s.queue h.qid).valid = true := by
  obtain ⟨-, ht, -⟩ := hw
  exact State.valid_of_takes ht

/-- The message that its queue awaits stands at the head of the queue's order. -/
theorem State.packet_awaited (m : HostMsg) : s.packet h (some m) = s.standing h (rxOf h m (m.bytes == some n)) := by
  have hvalid := State.valid_of_awaits hw
  have hformed := State.wellFormedHdr_of_awaits hw m
  obtain ⟨ha, ht, -, -, -, -, hpsn, hcred, hsent, htx, hrx, hwait, hcur, -, -, hheld, -⟩ := hw
  have hq : (s.useEntry h.qid).queue h.qid = s.queue h.qid := s.queue_useEntry _ _
  have hin := State.ackIn_credit (s := s.useEntry h.qid) (h := h) (by rw [hq]; exact htx) ((s.heldQueues_useEntry _).trans hheld) (by rw [hq]; exact hsent)
  have hd : (h.psn - (s.queue h.qid).rxPsn).toNat = 0 := by rw [hpsn, BitVec.sub_self]; rfl
  have hvq : ((s.useEntry h.qid).modQueue h.qid fun q => { q with hostCred := h.credLimit }).queue h.qid =
      { s.queue h.qid with hostCred := h.credLimit } := by rw [State.queue_modQueue_same, hq]
  have hnext := State.receive_next (s := (s.useEntry h.qid).modQueue h.qid fun q => { q with hostCred := h.credLimit }) (h := h) m
    (by rw [hvq]; exact hpsn) (by rw [hvq]; exact hcred) (by rw [hvq]; exact hrx) (by rw [hvq]; exact hcur) (by rw [hvq]; exact hwait)
  rw [State.packet_within ha ht m fun hb => absurd (hd ▸ hb.1) (by decide), hin, hnext, hformed, State.standing, State.taken]
  have hvalid' : ((s.useEntry h.qid).queue h.qid).valid = true := by rw [hq]; exact hvalid
  rw [State.modQueue_modQueue (s.useEntry h.qid) h.qid _ _ hvalid' hvalid', State.modQueue_modQueue (s.useEntry h.qid) h.qid _ _ hvalid' hvalid',
    State.modQueue_modQueue (s.useEntry h.qid) h.qid _ _ hvalid' hvalid']
  refine State.modQueue_congr _ _ ?_
  simp only [hq, hrx, hwait, ← hpsn, List.nil_append]

theorem State.nextQueue_taken : (s.taken h).nextQueue = none := by
  obtain ⟨-, -, -, -, -, -, -, -, -, -, -, hwait, -, -, -, -, hnext⟩ := hw
  refine State.nextQueue_modQueue_none ((s.nextQueue_useEntry _).trans hnext) _ ?_
  rw [State.queue_useEntry, Queue.begins, hwait]
  simp

theorem State.nextQueue_standing (m : RxMsg) : (s.standing h m).nextQueue = some h.qid := by
  have hq := s.queue_taken h
  have hnext := State.nextQueue_taken hw
  obtain ⟨-, -, -, -, -, -, -, -, -, -, -, -, hcur, -, hblocked, -⟩ := hw
  refine State.nextQueue_modQueue_some hnext _ ?_
  rw [hq]
  simp [Queue.begins, hcur, hblocked]

/-- The message leaves the queue's order as it is carried out. -/
theorem State.standing_leaves (m : RxMsg) : ((s.standing h m).modQueue h.qid fun q => { q with waiting := [] }) = s.taken h := by
  have hvalid := State.valid_of_awaits hw
  obtain ⟨-, -, -, -, -, -, -, -, -, -, -, hwait, -⟩ := hw
  have hvalid' : ((s.useEntry h.qid).queue h.qid).valid = true := by rw [State.queue_useEntry]; exact hvalid
  rw [State.standing, State.taken, State.modQueue_modQueue (s.useEntry h.qid) h.qid _ _ hvalid' hvalid',
    State.modQueue_modQueue (s.useEntry h.qid) h.qid _ _ hvalid' hvalid']
  refine State.modQueue_congr _ _ ?_
  rw [← hwait, ← State.queue_useEntry s h.qid h.qid]

/-! ### The message is carried out (13 R380, R388, R392) -/

/-- How a message leaves its queue once it has been carried out. -/
def State.leavesQueue (e : State) (h : Hdr) (m : RxMsg) : Carried → State
  | .done f data => e.complete h.qid m.cookie (Answer.of m.msg.kind f data)
  | .busy p => e.modQueue h.qid fun q => { q with cur := some (m, p) }

theorem State.carry_standing {m : RxMsg} {e : State} {c : Carried} (hc : (s.taken h).carryMsg h.qid m = (e, c))
    (hheld : ∀ f data, c = .done f data → f.1 ≠ heldCode) : (s.standing h m).carry h.qid = e.leavesQueue h m c := by
  have hq : ((s.standing h m).queue h.qid).waiting = [m] := by rw [State.standing, State.queue_modQueue_same]
  have hrun := (congrArg (State.carryMsg · h.qid m) (State.standing_leaves hw m)).trans hc
  simp only [State.carry, hq]
  rw [hrun]
  cases c with
  | busy p => rfl
  | done f data => exact if_neg (hheld f data rfl)

theorem State.carry_held {m : RxMsg} {e : State} {f : CmdFail} {data : List Byte} (hc : (s.taken h).carryMsg h.qid m = (e, .done f data))
    (hf : f.1 = heldCode) : (s.standing h m).carry h.qid = (s.standing h m).modQueue h.qid fun q => { q with blocked := true } := by
  have hq : ((s.standing h m).queue h.qid).waiting = [m] := by rw [State.standing, State.queue_modQueue_same]
  have hrun := (congrArg (State.carryMsg · h.qid m) (State.standing_leaves hw m)).trans hc
  simp only [State.carry, hq]
  rw [hrun]
  exact if_pos hf

/-- A message that leaves nothing to go on ends the command. -/
theorem State.host_still {m : HostMsg} {v : State} (hc : (s.standing h (rxOf h m (m.bytes == some n))).carry h.qid = v) (hv : s.still v) :
    s.host h (some m) = .next v := by
  obtain ⟨hquiet, hlost, o, hout, hr⟩ := hv
  have hr' : ∀ x ∈ o, x.isRemote = false := fun x hx => by
    have := hr x hx
    cases x <;> simp_all [Out.isRemote]
  have hnext : v.nextQueue = none := by
    simp only [State.quiet, Bool.and_eq_true, Option.isNone_iff_eq_none] at hquiet
    exact hquiet.1.1.1.1.1.1.1.1
  have hgo : v.goesOnOnce = v := v.goesOnOnce_quiet hquiet
  have hsettle := State.settle_carry (State.nextQueue_standing hw (rxOf h m (m.bytes == some n))) (by rw [hc]; exact hnext) (by rw [hc, hgo]; exact hnext)
  rw [hc, hgo] at hsettle
  rw [State.host_eq (some m) (State.packet_awaited hw m), State.after, hsettle, State.ownedDrain_same s v hlost, State.sendFlits_append s v o hout hr']

/-- A message that is carried out at once answers. -/
theorem State.answersWith_of_carryMsg {m : HostMsg} {e : State} {f : CmdFail} {data : List Byte} {cmd type : Nat}
    (hc : (s.taken h).carryMsg h.qid (rxOf h m (m.bytes == some n)) = (e, .done f data)) (hk : m.kind = (cmd, type)) :
    s.answersWith h (s.host h (some m)) cmd type e f data := by
  intro hf hv
  refine State.host_still hw ((State.carry_standing hw hc fun f' data' hd => ?_).trans ?_) hv
  · cases hd
    exact hf
  · simp only [State.leavesQueue, rxOf, Answer.of, hk]

/-- A message that stays in progress lets go on what it let begin. -/
theorem State.beginsWith_of_carryMsg {m : HostMsg} {e : State} {p : InProgress} (hb : m.bytes = some n)
    (hc : (s.taken h).carryMsg h.qid (rxOf h m true) = (e, .busy p)) : s.beginsWith h (s.host h (some m)) m e p := by
  intro hn hg
  have hformed : (m.bytes == some n) = true := beq_iff_eq.2 hb
  have hcarry : (s.standing h (rxOf h m true)).carry h.qid = e.leavesQueue h (rxOf h m true) (.busy p) := State.carry_standing hw hc nofun
  have hsettle := State.settle_carry (State.nextQueue_standing hw (rxOf h m true)) (by rw [hcarry]; exact hn) (by rw [hcarry]; exact hg)
  rw [State.host_eq (some m) (State.packet_awaited hw m), State.after, hformed, hsettle, hcarry]
  rfl

/-- A queue without an error lets a well-formed message be carried out, and refuses one that is not. -/
theorem State.err_taken : ((s.taken h).queue h.qid).err = false := by
  have hq := s.queue_taken h
  obtain ⟨-, -, -, -, -, -, -, -, -, -, -, -, -, herr, -⟩ := hw
  rw [hq]
  exact herr

theorem State.carryMsg_malformed (m : HostMsg) : (s.taken h).carryMsg h.qid (rxOf h m false) = (s.taken h, carryFail eCqtMsg) := by
  simp only [State.carryMsg, rxOf, State.err_taken hw, Bool.false_and, Option.isSome_none, Bool.not_false, Bool.false_eq_true, if_false, if_true]

theorem State.carryMsg_submit (w0 : Word) (b : List Word) (sig : SigVerdict) : (s.taken h).carryMsg h.qid (rxOf h (.submit w0 b sig) true) =
    (s.taken h).submit h.qid w0 b sig := by
  simp only [State.carryMsg, rxOf, State.err_taken hw, Bool.false_and, Option.isSome_none, Bool.not_true, Bool.false_eq_true, if_false]

theorem State.carryMsg_digest (b : List Word) (slip : Option (BitVec 128)) (hb : b.length = 15) : (s.taken h).carryMsg h.qid (rxOf h (.digest b slip) true) =
    let r := (s.taken h).digest ((s.taken h).queue h.qid) b slip; (r.1, .done r.2 []) := by
  simp only [State.carryMsg, rxOf, State.err_taken hw, Bool.false_and, Option.isSome_none, Bool.not_true, Bool.false_eq_true, if_false, submitWords, hb, ne_eq, not_true_eq_false]

theorem State.carryMsg_writeMem (b : List Word) (bs : List Byte) : (s.taken h).carryMsg h.qid (rxOf h (.writeMem b bs) true) =
    let r := (s.taken h).writeMem ((s.taken h).queue h.qid) b bs; (r.1, .done r.2 []) := by
  simp only [State.carryMsg, rxOf, State.err_taken hw, Bool.false_and, Option.isSome_none, Bool.not_true, Bool.false_eq_true, if_false]

theorem State.carryMsg_readMem (b : List Word) : (s.taken h).carryMsg h.qid (rxOf h (.readMem b) true) =
    let r := (s.taken h).readMem ((s.taken h).queue h.qid) b; (r.1, .done r.2.1 r.2.2) := by
  simp only [State.carryMsg, rxOf, State.err_taken hw, Bool.false_and, Option.isSome_none, Bool.not_true, Bool.false_eq_true, if_false]

theorem State.carryMsg_regRead (b : List Word) : (s.taken h).carryMsg h.qid (rxOf h (.regRead b) true) =
    let r := (s.taken h).regReadMsg ((s.taken h).queue h.qid) b; (r.1, .done (r.2.1, []) r.2.2) := by
  simp only [State.carryMsg, rxOf, State.err_taken hw, Bool.false_and, Option.isSome_none, Bool.not_true, Bool.false_eq_true, if_false]

theorem State.carryMsg_regWrite (b : List Word) : (s.taken h).carryMsg h.qid (rxOf h (.regWrite b) true) =
    let r := (s.taken h).regWriteMsg ((s.taken h).queue h.qid) b; (r.1, .done (r.2, []) []) := by
  simp only [State.carryMsg, rxOf, State.err_taken hw, Bool.false_and, Option.isSome_none, Bool.not_true, Bool.false_eq_true, if_false, carryFail]

end

end Sys2Proof.Machine
end

section
/-!
PROOFS about memory and register messages of a queue (13 R386, 08 R219, R222, 19 R527, R530).
-/

namespace Sys2Proof.Machine

variable {s t u : State} {h : Hdr} {a n : Nat} {bytes : List Byte}

/-! ### The fields of a memory message (13 R386) -/

/-- The words of a physical access of `n` bytes at `a`. -/
def physBody (a n : Nat) : List Word := [.ofNat 32 a, .ofNat 32 (a / 2 ^ 32), .ofNat 32 n, 1]

theorem memFields_physBody (ha : a < 2 ^ 64) (h1 : 1 ≤ n) (hn : n ≤ 8192) : memFields (physBody a n) = (a, n, true, true) := by
  have haddr : (dAt (physBody a n) 0).toNat = a := by
    have : (dAt (physBody a n) 0) = BitVec.ofNat 32 (a / 2 ^ 32) ++ BitVec.ofNat 32 a := rfl
    rw [this, BitVec.toNat_append, BitVec.toNat_ofNat, BitVec.toNat_ofNat, Nat.shiftLeft_eq, ← Nat.shiftLeft_eq, ← Nat.shiftLeft_add_eq_or_of_lt (Nat.mod_lt _ (by decide)),
      Nat.shiftLeft_eq]
    omega
  have hlen : (wAt (physBody a n) 2).toNat = n := by
    rw [show wAt (physBody a n) 2 = BitVec.ofNat 32 n from rfl, BitVec.toNat_ofNat]
    omega
  have hbits : bit1 (wAt (physBody a n) 3) 0 = true ∧ wbits (wAt (physBody a n) 3) 1 31 = 0 := by
    rw [show wAt (physBody a n) 3 = 1#32 from rfl]
    decide
  simp only [memFields, haddr, hlen, hbits.1, hbits.2]
  simp [physBody, h1, hn]

theorem beyondHbm_physBody (ha : a < 2 ^ 64) (h1 : 1 ≤ n) (hn : n ≤ 8192) : beyondHbm (physBody a n) = decide (hbmBytes < a + n) := by
  simp only [beyondHbm, memFields_physBody ha h1 hn, Bool.true_and, gt_iff_lt]

section
variable (ha : a < 2 ^ 64) (h1 : 1 ≤ n) (hn : n ≤ 8192) {q : Queue}
include ha h1 hn

/-! ### READ_MEM -/

theorem State.readMem_denied (hp : q.priv = false) : s.readMem q (physBody a n) = (s, (ePriv, []), []) := by
  simp only [State.readMem, memFields_physBody ha h1 hn, hp, Bool.not_true, Bool.not_false, Bool.and_self, Bool.false_eq_true, if_false, if_true]

theorem State.readMem_beyond (hp : q.priv = true) (ho : 96000000000 < a + n) : s.readMem q (physBody a n) = (s, (eXltFault, [5]), []) := by
  have hb : beyondHbm (physBody a n) = true := (beyondHbm_physBody ha h1 hn).trans (decide_eq_true ho)
  simp only [State.readMem, memFields_physBody ha h1 hn, hp, hb, Bool.not_true, Bool.and_false, Bool.false_eq_true, if_false, if_true]

theorem State.readMem_inside (hp : q.priv = true) (ho : a + n ≤ 96000000000) :
    s.readMem q (physBody a n) = if s.held a n then (s, cmdHeld, []) else s.readPieces [(a, n)] := by
  have hb : beyondHbm (physBody a n) = false := (beyondHbm_physBody ha h1 hn).trans (decide_eq_false (Nat.not_lt.2 ho))
  simp only [State.readMem, memFields_physBody ha h1 hn, hp, hb, Bool.not_true, Bool.and_false, Bool.false_eq_true, if_false, if_true]

/-! ### WRITE_MEM -/

variable (hl : bytes.length = n)
include hl

theorem State.writeMem_denied (hp : q.priv = false) : s.writeMem q (physBody a n) bytes = (s, (ePriv, [])) := by
  simp only [State.writeMem, memFields_physBody ha h1 hn, hl, hp, bne_self_eq_false, Bool.not_true, Bool.not_false, Bool.or_self, Bool.and_self,
    Bool.false_eq_true, if_false, if_true]

theorem State.writeMem_beyond (hp : q.priv = true) (ho : 96000000000 < a + n) : s.writeMem q (physBody a n) bytes = (s, (eXltFault, [5])) := by
  have hb : beyondHbm (physBody a n) = true := (beyondHbm_physBody ha h1 hn).trans (decide_eq_true ho)
  simp only [State.writeMem, memFields_physBody ha h1 hn, hl, hp, hb, bne_self_eq_false, Bool.not_true, Bool.or_self, Bool.and_false,
    Bool.false_eq_true, if_false, if_true]

theorem State.writeMem_inside (hp : q.priv = true) (ho : a + n ≤ 96000000000) :
    s.writeMem q (physBody a n) bytes = if s.held a n then (s, cmdHeld) else wroteMem (s.hostWrite a bytes) := by
  have hb : beyondHbm (physBody a n) = false := (beyondHbm_physBody ha h1 hn).trans (decide_eq_false (Nat.not_lt.2 ho))
  simp only [State.writeMem, memFields_physBody ha h1 hn, hl, hp, hb, bne_self_eq_false, Bool.not_true, Bool.or_self, Bool.and_false,
    Bool.false_eq_true, if_false, if_true]

end

/-! ### What a physical piece reads as -/

theorem State.readPieces_failing {f : Nat × Code × Nat} (hf : s.hbm.failing = [f]) (hm : rangesMeet a n (32 * f.1) 32 = true) :
    s.readPieces [(a, n)] = ({ s with hbm := { s.hbm with failing := [] } }, (f.2.1, [.ofNat 32 f.2.2]), []) := by
  simp only [State.readPieces, hf, List.any_cons, List.any_nil, Bool.or_false, List.find?_cons, hm, State.modHbm, List.filter_cons, Bool.not_true,
    Bool.false_eq_true, if_false, List.filter_nil]

theorem State.readPieces_poison {b : Nat} (hf : s.hbm.failing = []) (hp : s.hbm.poisonIn a n = some b) :
    s.readPieces [(a, n)] = (s, (eHbmDetect, [2]), []) := by
  simp only [State.readPieces, hf, List.find?_nil, List.find?_cons, hp, Option.isSome_some]

theorem State.readPieces_good (hf : s.hbm.failing = []) (hp : s.hbm.poisonIn a n = none) :
    s.readPieces [(a, n)] = (s, (0, []), s.hbm.read a n) := by
  simp only [State.readPieces, hf, List.find?_nil, List.find?_cons, hp, Option.isSome_none, List.map_cons, List.map_nil, List.flatten_cons,
    List.flatten_nil, List.append_nil]

/-! ### What a physical write does -/

/-- Bytes that are no header of an enabled pool are one run. -/
theorem hostRuns_eq (bs run : List Byte) (pa : Nat) (hb : bs ≠ []) (hh : ∀ i, i < bs.length → s.inHeaders (pa + i) = false) :
    hostRuns s pa bs run = [(pa - run.length, run ++ bs)] := by
  induction bs generalizing pa run with
  | nil => exact absurd rfl hb
  | cons b t ih =>
    have h0 : s.inHeaders pa = false := hh 0 (Nat.zero_lt_succ _)
    rw [hostRuns, h0]
    simp only [Bool.false_eq_true, if_false]
    cases t with
    | nil =>
      simp [hostRuns]
    | cons c t =>
      rw [ih _ _ (List.cons_ne_nil _ _) fun i hi => by rw [Nat.add_assoc]; exact hh _ (by simpa [Nat.add_comm 1] using Nat.succ_lt_succ hi)]
      simp

theorem State.hostWrite_single (hb : bytes ≠ []) (hh : ∀ i, i < bytes.length → s.inHeaders (a + i) = false) :
    s.hostWrite a bytes = ((s.pwrite a bytes).1, (s.pwrite a bytes).2.isSome) := by
  rw [State.hostWrite, hostRuns_eq bytes [] a hb hh]
  simp

/-! ### Registers (19 R527, R530) -/

theorem State.regReadMsg_single {q : Queue} {off : Nat} (hp : q.priv = true) (h4 : off % 4 = 0) (ho : off < 0x04000000) :
    s.regReadMsg q [.ofNat 32 off, 1] = ((s.readAt .queue off).1, 0, leBytes 4 ((s.readAt .queue off).2.getD 0).toNat) := by
  have hoff : (wAt [BitVec.ofNat 32 off, 1] 0).toNat = off := by
    rw [show wAt [BitVec.ofNat 32 off, 1] 0 = BitVec.ofNat 32 off from rfl, BitVec.toNat_ofNat]
    omega
  have hno : ¬ ([BitVec.ofNat 32 off, 1].length ≠ 2 ∨ off % 4 ≠ 0 ∨ 1 < 1 ∨ 1 > 64 ∨ off + 4 * 1 > windowBytes) := by
    rw [windowBytes]
    simp only [List.length_cons, List.length_nil]
    omega
  have hone : (wAt [BitVec.ofNat 32 off, 1] 1).toNat = 1 := rfl
  simp only [State.regReadMsg, hp, hoff, hone, Bool.not_true, Bool.false_eq_true, if_false, if_neg hno, readRun, wordBytes, List.map_cons, List.map_nil,
    List.flatten_cons, List.flatten_nil, List.append_nil]

theorem State.regWriteMsg_single {q : Queue} {off : Nat} (v : Word) (hp : q.priv = true) (h4 : off % 4 = 0) (ho : off < 0x04000000) :
    s.regWriteMsg q [.ofNat 32 off, v] = ((s.writeAt .queue off v).1, if (s.writeAt .queue off v).2 = .done then 0 else ePriv) := by
  have hoff : (wAt [BitVec.ofNat 32 off, v] 0).toNat = off := by
    rw [show wAt [BitVec.ofNat 32 off, v] 0 = BitVec.ofNat 32 off from rfl, BitVec.toNat_ofNat]
    omega
  have hno : ¬ ([BitVec.ofNat 32 off, v].length ≠ 2 ∨ off % 4 ≠ 0 ∨ off ≥ windowBytes) := by
    rw [windowBytes]
    simp only [List.length_cons, List.length_nil]
    omega
  simp only [State.regWriteMsg, hp, hoff, Bool.not_true, Bool.false_eq_true, if_false, if_neg hno]
  rfl

theorem State.regReadMsg_denied {q : Queue} (hp : q.priv = false) (b : List Word) : s.regReadMsg q b = (s, ePriv, []) := by
  simp only [State.regReadMsg, hp, Bool.not_false, if_true]

theorem State.regWriteMsg_denied {q : Queue} (hp : q.priv = false) (b : List Word) : s.regWriteMsg q b = (s, ePriv) := by
  simp only [State.regWriteMsg, hp, Bool.not_false, if_true]

/-! ### The memory of the state that carries a message out -/

theorem State.hbm_taken (s : State) (h : Hdr) : (s.taken h).hbm = s.hbm := by
  obtain ⟨l, m, hu⟩ := s.useEntry_only h.qid
  rw [State.taken, hu]
  rfl

theorem State.xlt_taken (s : State) (h : Hdr) : (s.taken h).xlt = s.xlt := by
  obtain ⟨l, m, hu⟩ := s.useEntry_only h.qid
  rw [State.taken, hu]
  rfl

theorem State.priv_taken (s : State) (h : Hdr) : ((s.taken h).queue h.qid).priv = (s.queue h.qid).priv := by rw [s.queue_taken h]

theorem State.held_taken (s : State) (h : Hdr) (a n : Nat) : (s.taken h).held a n = s.held a n := by rw [State.held, s.hbm_taken h, State.held]

theorem State.inHeaders_taken (s : State) (h : Hdr) (a : Nat) : (s.taken h).inHeaders a = s.inHeaders a := by
  have hpool (i : Nat) : (s.taken h).pool i = s.pool i := by rw [State.pool, s.xlt_taken h, State.pool]
  simp only [State.inHeaders, hpool]

/-- A message that reaches a granule under retirement keeps its place and waits (08 R222). -/
theorem State.host_held {m : HostMsg} {e : State} {data : List Byte} (hw : s.awaits h n) (hb : m.bytes = some n)
    (hc : (s.taken h).carryMsg h.qid (rxOf h m true) = (e, .done cmdHeld data))
    (hv : s.still ((s.taken h).modQueue h.qid fun q => { q with waiting := [rxOf h m true], blocked := true })) :
    s.host h (some m) = .next ((s.taken h).modQueue h.qid fun q => { q with waiting := [rxOf h m true], blocked := true }) := by
  have hformed : (m.bytes == some n) = true := beq_iff_eq.2 hb
  have hvalid : ((s.taken h).queue h.qid).valid = true := by rw [s.queue_taken h]; exact State.valid_of_awaits hw
  refine State.host_still hw ?_ hv
  rw [hformed, State.carry_held hw hc rfl, State.standing, State.modQueue_modQueue _ _ _ _ hvalid hvalid]

/-- Settles O50. -/
theorem hostMessages : Obligations.HostMessages := by
  intro s h k q
  have hpriv : (k.queue h.qid).priv = q.priv := s.priv_taken h
  have hhbm : k.hbm = s.hbm := s.hbm_taken h
  have hheld (a n : Nat) : k.held a n = s.held a n := s.held_taken h a n
  refine ⟨fun a n bytes ha h1 hn hl => ?_, fun off v hw h4 ho => ⟨fun hp => ⟨?_, ?_⟩, fun hp => ⟨?_, ?_⟩⟩, fun t n hw => ?_⟩
  · intro body inside waits
    refine ⟨fun hw => ?_, fun hw => ?_⟩
    · have hformed : ((HostMsg.readMem body).bytes == some 16) = true := rfl
      have hanswers {e : State} {f : CmdFail} {data : List Byte} (hr : k.readMem (k.queue h.qid) body = (e, f, data)) :
          s.answersWith h (exec (.readMem h body) s) 0 3 e f data := by
        refine State.answersWith_of_carryMsg hw ?_ rfl
        rw [hformed, State.carryMsg_readMem hw, hr]
      have hread (hi : inside) := State.readMem_inside (s := k) (q := k.queue h.qid) ha h1 hn (hpriv.trans hi.1) hi.2
      refine ⟨fun hp => hanswers (State.readMem_denied ha h1 hn (hpriv.trans hp)), fun hp ho => hanswers (State.readMem_beyond ha h1 hn (hpriv.trans hp) ho),
        fun hi hd hv => State.host_held (e := k) (data := []) hw rfl ?_ hv, fun hi hd => ?_⟩
      · rw [State.carryMsg_readMem hw]
        exact congrArg (fun r : State × CmdFail × List Byte => (r.1, Carried.done r.2.1 r.2.2)) (hread hi |>.trans (if_pos ((hheld a n).trans hd)))
      · have hpieces : k.readMem (k.queue h.qid) body = k.readPieces [(a, n)] := by
          exact (hread hi).trans (if_neg (by rw [hheld, hd]; exact Bool.false_ne_true))
        refine ⟨fun hf => ⟨fun p hp => hanswers (hpieces.trans (State.readPieces_poison (b := p) ?_ ?_)), fun hp => ?_⟩, fun f hf hm =>
          hanswers (hpieces.trans (State.readPieces_failing ?_ hm))⟩
        · rw [hhbm]; exact hf
        · rw [hhbm]; exact hp
        · have hgood := State.readPieces_good (s := k) (a := a) (n := n) (by rw [hhbm]; exact hf) (by rw [hhbm]; exact hp)
          rw [hhbm] at hgood
          exact hanswers (hpieces.trans hgood)
        · rw [hhbm]; exact hf
    · have hbytes : (HostMsg.writeMem body bytes).bytes = some (16 + n) := by rw [HostMsg.bytes, hl]; rfl
      have hformed : ((HostMsg.writeMem body bytes).bytes == some (16 + n)) = true := beq_iff_eq.2 hbytes
      have hanswers {e : State} {f : CmdFail} (hr : k.writeMem (k.queue h.qid) body bytes = (e, f)) :
          s.answersWith h (exec (.writeMem h body bytes) s) 0 2 e f [] := by
        refine State.answersWith_of_carryMsg hw ?_ rfl
        rw [hformed, State.carryMsg_writeMem hw, hr]
      have hput (hi : inside) := State.writeMem_inside (s := k) (q := k.queue h.qid) ha h1 hn hl (hpriv.trans hi.1) hi.2
      refine ⟨fun hp => hanswers (State.writeMem_denied ha h1 hn hl (hpriv.trans hp)),
        fun hp ho => hanswers (State.writeMem_beyond ha h1 hn hl (hpriv.trans hp) ho),
        fun hi hd hv => State.host_held (e := k) (data := []) hw hbytes ?_ hv, fun hi hd hh hin => ?_⟩
      · rw [State.carryMsg_writeMem hw]
        exact congrArg (fun r : State × CmdFail => (r.1, Carried.done r.2 [])) ((hput hi).trans (if_pos ((hheld a n).trans hd)))
      · have hne : bytes ≠ [] := List.ne_nil_of_length_pos (by omega)
        have hwrite : k.writeMem (k.queue h.qid) body bytes = wroteMem ((k.pwrite a bytes).1, (k.pwrite a bytes).2.isSome) := by
          refine (hput hi).trans ((if_neg (by rw [hheld, hd]; exact Bool.false_ne_true)).trans ?_)
          rw [State.hostWrite_single hne fun i hi => (s.inHeaders_taken h _).trans (hh i (hl ▸ hi))]
        refine ⟨fun hp => ?_, fun hlt hp => ?_⟩
        · have hburst := State.pwriteAs_writes (s := k) (own := false) (va := 0) hne (by rw [hl]; exact hin) (by rw [hl, hhbm]; exact hp)
          rw [State.pwrite, hburst] at hwrite
          refine ⟨_, hanswers hwrite, rfl, ?_, fun b m ho => ?_⟩
          · exact hl ▸ k.hbm.read_written false 0 a bytes
          · exact (k.hbm.read_written_other false 0 (by rw [hl]; exact ho)).trans (by rw [hhbm])
        · have hburst := State.pwriteAs_poisoned (s := k) (own := false) (va := 0) hne (by rw [hl]; exact hin) (by rw [hl]; exact hlt) (by rw [hhbm]; exact hp)
          rw [State.pwrite, hburst] at hwrite
          exact ⟨_, hanswers hwrite, rfl, fun b m => show k.hbm.read b m = s.hbm.read b m by rw [hhbm]⟩
  · refine State.answersWith_of_carryMsg hw ?_ rfl
    rw [show ((HostMsg.regRead [.ofNat 32 off, 1]).bytes == some 8) = true from rfl, State.carryMsg_regRead hw,
      State.regReadMsg_denied (hpriv.trans hp)]
  · refine State.answersWith_of_carryMsg hw ?_ rfl
    rw [show ((HostMsg.regWrite [.ofNat 32 off, v]).bytes == some 8) = true from rfl, State.carryMsg_regWrite hw,
      State.regWriteMsg_denied (hpriv.trans hp)]
  · refine State.answersWith_of_carryMsg hw ?_ rfl
    rw [show ((HostMsg.regRead [.ofNat 32 off, 1]).bytes == some 8) = true from rfl, State.carryMsg_regRead hw,
      State.regReadMsg_single (hpriv.trans hp) h4 ho]
  · refine State.answersWith_of_carryMsg hw ?_ rfl
    rw [show ((HostMsg.regWrite [.ofNat 32 off, v]).bytes == some 8) = true from rfl, State.carryMsg_regWrite hw,
      State.regWriteMsg_single v (hpriv.trans hp) h4 ho]
  · exact State.answersWith_of_carryMsg hw (State.carryMsg_malformed hw (.bad t)) rfl

end Sys2Proof.Machine
end

section
/-!
PROOFS about the commands that a SUBMIT carries (13 R380-R388, 15 R447, R455).
-/

namespace Sys2Proof.Machine

variable {s t u : State} {h : Hdr} {qid : BitVec 12} {b body : List Word} {sig : SigVerdict}

/-! ### What a SUBMIT carries (13 R380) -/

theorem State.submit_malformed {w0 : Word} (hw : wbits w0 0 24 ≠ 0 ∨ submitWords (wbits w0 24 8) ≠ some b.length) :
    s.submit qid w0 b sig = (s, carryFail eCqtMsg) := by
  rw [State.submit]
  exact if_pos hw

theorem State.submit_loadProgram (hb : b.length = 4) : s.submit qid (.ofNat 32 (1 * 2 ^ 24)) b sig =
    let r := s.loadProgram (s.queue qid).ctx (s.queue qid).priv b sig; (r.1, .done r.2 []) := by
  rw [State.submit]
  exact if_neg (by rw [hb]; decide)

theorem State.submit_launch_refused (hb : b.length = 14) {c : Code} (hc : s.launchRefusal (parseLaunch b) = some c) :
    s.submit qid (.ofNat 32 (2 * 2 ^ 24)) b sig = (s, carryFail c) := by
  have hkind : wbits (.ofNat 32 (2 * 2 ^ 24)) 24 8 = 2 := by decide
  have hrest : wbits (.ofNat 32 (2 * 2 ^ 24)) 0 24 = 0 := by decide
  simp only [State.submit, hkind, hrest, submitWords, hb, hc, ne_eq, not_true_eq_false, or_self, if_false]

theorem State.submit_launch_waits (hb : b.length = 14) (hc : s.launchRefusal (parseLaunch b) = none) :
    s.submit qid (.ofNat 32 (2 * 2 ^ 24)) b sig = (s, .busy (.launchWait b)) := by
  have hkind : wbits (.ofNat 32 (2 * 2 ^ 24)) 24 8 = 2 := by decide
  have hrest : wbits (.ofNat 32 (2 * 2 ^ 24)) 0 24 = 0 := by decide
  simp only [State.submit, hkind, hrest, submitWords, hb, hc, ne_eq, not_true_eq_false, or_self, if_false]

theorem State.submit_fence : s.submit qid (.ofNat 32 (3 * 2 ^ 24)) [] sig = (s, .done (0, []) []) := by
  rw [State.submit]
  exact if_neg (by decide)

theorem State.submit_prefix_refused (hb : b.length = 2) {e : CmdFail} (hp : s.prefixLookup qid (s.queue qid).ctx (dAt b 0).toNat = .error e) :
    s.submit qid (.ofNat 32 (4 * 2 ^ 24)) b sig = (s, .done e []) := by
  have hkind : wbits (.ofNat 32 (4 * 2 ^ 24)) 24 8 = 4 := by decide
  have hrest : wbits (.ofNat 32 (4 * 2 ^ 24)) 0 24 = 0 := by decide
  simp only [State.submit, hkind, hrest, submitWords, hb, hp, ne_eq, not_true_eq_false, or_self, if_false]

theorem State.submit_prefix_found (hb : b.length = 2) {m n : Nat} (hp : s.prefixLookup qid (s.queue qid).ctx (dAt b 0).toNat = .ok (u, m, n)) :
    s.submit qid (.ofNat 32 (4 * 2 ^ 24)) b sig = (u, .done (0, [.ofNat 32 m, .ofNat 32 n]) []) := by
  have hkind : wbits (.ofNat 32 (4 * 2 ^ 24)) 24 8 = 4 := by decide
  have hrest : wbits (.ofNat 32 (4 * 2 ^ 24)) 0 24 = 0 := by decide
  simp only [State.submit, hkind, hrest, submitWords, hb, hp, ne_eq, not_true_eq_false, or_self, if_false]

theorem State.submit_exportOpen (hb : b.length = 17) : s.submit qid (.ofNat 32 (5 * 2 ^ 24)) b sig =
    let r := s.exportOpen qid b; (r.1, .done r.2 []) := by
  rw [State.submit]
  exact if_neg (by rw [hb]; decide)

theorem State.submit_exportClose_refused {seq : Word} (hc : s.exportClose qid seq = (s, some eExportOpen)) :
    s.submit qid (.ofNat 32 (6 * 2 ^ 24)) [seq] sig = (s, carryFail eExportOpen) := by
  have hkind : wbits (.ofNat 32 (6 * 2 ^ 24)) 24 8 = 6 := by decide
  have hrest : wbits (.ofNat 32 (6 * 2 ^ 24)) 0 24 = 0 := by decide
  have hseq : wAt [seq] 0 = seq := rfl
  simp only [State.submit, hkind, hrest, submitWords, List.length_cons, List.length_nil, Nat.zero_add, hseq, hc, ne_eq, not_true_eq_false, or_self, if_false]

theorem State.submit_exportClose_begins {seq : Word} (hc : s.exportClose qid seq = (u, none)) :
    s.submit qid (.ofNat 32 (6 * 2 ^ 24)) [seq] sig = (u, .busy (.closing seq)) := by
  have hkind : wbits (.ofNat 32 (6 * 2 ^ 24)) 24 8 = 6 := by decide
  have hrest : wbits (.ofNat 32 (6 * 2 ^ 24)) 0 24 = 0 := by decide
  have hseq : wAt [seq] 0 = seq := rfl
  simp only [State.submit, hkind, hrest, submitWords, List.length_cons, List.length_nil, Nat.zero_add, hseq, hc, ne_eq, not_true_eq_false, or_self, if_false]

theorem State.submit_test_denied (hb : b.length = 15) (hp : (s.queue qid).priv = false) :
    s.submit qid (.ofNat 32 (7 * 2 ^ 24)) b sig = (s, carryFail ePriv) := by
  have hkind : wbits (.ofNat 32 (7 * 2 ^ 24)) 24 8 = 7 := by decide
  have hrest : wbits (.ofNat 32 (7 * 2 ^ 24)) 0 24 = 0 := by decide
  simp only [State.submit, hkind, hrest, submitWords, hb, hp, ne_eq, not_true_eq_false, or_self, if_false, Bool.not_false, if_true]

/-- What a TEST_REQUEST asks for, by its operation (15 R447). -/
def State.testAsked (s : State) (qid : BitVec 12) (b : List Word) : Nat → State × Option CmdFail
  | 0 => s.requestTest qid false b
  | 1 => s.requestTest qid true b
  | _ => s.requestPorts qid b

/-- How a request leaves its queue: refused, or in progress. -/
def testEnds (r : State × Option CmdFail) : State × Carried := (r.1, match r.2 with | some f => .done f [] | none => .busy .testing)

theorem State.submit_test (hb : b.length = 15) (hp : (s.queue qid).priv = true) {op : Nat} (hop : op ≤ 2) (hw : wbits (wAt b 0) 28 4 = op) :
    s.submit qid (.ofNat 32 (7 * 2 ^ 24)) b sig = testEnds (s.testAsked qid b op) := by
  have hkind : wbits (.ofNat 32 (7 * 2 ^ 24)) 24 8 = 7 := by decide
  have hrest : wbits (.ofNat 32 (7 * 2 ^ 24)) 0 24 = 0 := by decide
  simp only [State.submit, hkind, hrest, submitWords, hb, hp, hw, ne_eq, not_true_eq_false, or_self, if_false, Bool.not_true, Bool.false_eq_true]
  obtain rfl | rfl | rfl : op = 0 ∨ op = 1 ∨ op = 2 := by omega
  · cases hr : s.requestTest qid false b with | mk v f => cases f <;> simp [State.testAsked, testEnds, hr]
  · cases hr : s.requestTest qid true b with | mk v f => cases f <;> simp [State.testAsked, testEnds, hr]
  · cases hr : s.requestPorts qid b with | mk v f => cases f <;> simp [State.testAsked, testEnds, hr]

theorem State.submit_digest (hb : b.length = 15) : s.submit qid (.ofNat 32 (8 * 2 ^ 24)) b sig =
    let r := s.digest (s.queue qid) b none; (r.1, .done r.2 []) := by
  rw [State.submit]
  exact if_neg (by rw [hb]; decide)

theorem State.submit_queueCtl (hb : b.length = 4) : s.submit qid (.ofNat 32 (9 * 2 ^ 24)) b sig =
    let r := s.queueCtl (s.queue qid) b; (r.1, .done r.2 []) := by
  rw [State.submit]
  exact if_neg (by rw [hb]; decide)

/-! ### Fields of a body's first word -/

theorem length_withField (b : List Word) (off n v : Nat) : (withField b off n v).length = b.length := by
  cases b <;> rfl

theorem wbits_withField_op (hb : b ≠ []) {v : Nat} (hv : v < 16) : wbits (wAt (withField b 28 4 v) 0) 28 4 = v := by
  obtain ⟨w, t, rfl⟩ := List.exists_cons_of_ne_nil hb
  have hw := w.isLt
  rw [show wAt (withField (w :: t) 28 4 v) 0 = .ofNat 32 (w.toNat - w.toNat / 2 ^ 28 % 2 ^ 4 * 2 ^ 28 + v * 2 ^ 28) from rfl, wbits, BitVec.toNat_ofNat,
    Nat.shiftRight_eq_div_pow]
  omega

/-- The first word of a QUEUE_CTL for queue `t` with operation `op`, every other bit 0. -/
def ctlWord (t : BitVec 12) (op : Nat) : Word := .ofNat 32 (t.toNat + op * 2 ^ 28)

theorem withField_ctl (t : BitVec 12) (op : Nat) (l : List Word) : withField (t.setWidth 32 :: l) 28 4 op = ctlWord t op :: l := by
  have ht := t.isLt
  have hset : (t.setWidth 32).toNat = t.toNat := by rw [BitVec.toNat_setWidth]; omega
  have hzero : t.toNat / 2 ^ 28 % 2 ^ 4 * 2 ^ 28 = 0 := by omega
  rw [withField, hset, hzero, Nat.sub_zero, ctlWord]

section
variable (t : BitVec 12) {op : Nat} (hop : op ≤ 3)
include hop

theorem wbits_ctlWord (lo n : Nat) : wbits (ctlWord t op) lo n = (t.toNat + op * 2 ^ 28) / 2 ^ lo % 2 ^ n := by
  have ht := t.isLt
  have hlt : t.toNat + op * 2 ^ 28 < 2 ^ 32 := by omega
  rw [ctlWord, wbits, BitVec.toNat_ofNat, Nat.shiftRight_eq_div_pow, Nat.mod_eq_of_lt hlt]

/-- The fields of the word: operation and queue, the reserved bits, and the bits of RESET and of a named epoch. -/
theorem ctlWord_fields : wbits (ctlWord t op) 28 4 = op ∧ BitVec.ofNat 12 (wbits (ctlWord t op) 0 12) = t ∧ wbits (ctlWord t op) 12 14 = 0 ∧
    bit1 (ctlWord t op) 27 = false ∧ bit1 (ctlWord t op) 26 = false := by
  have ht := t.isLt
  simp only [bit1, wbits_ctlWord t hop, beq_eq_false_iff_ne]
  refine ⟨by omega, BitVec.eq_of_toNat_eq ?_, by omega, by omega, by omega⟩
  rw [BitVec.toNat_ofNat]
  omega

end

/-! ### QUEUE_CTL (13 R387, R388) -/

theorem State.queueCtl_denied {q : Queue} (hp : q.priv = false) (b : List Word) : s.queueCtl q b = (s, (ePriv, [])) := by
  simp only [State.queueCtl, hp, Bool.not_false, if_true]

section
variable {q : Queue} (hp : q.priv = true) (t : BitVec 12)
include hp

theorem State.queueCtl_set (lo hi : Word) : s.queueCtl q [ctlWord t 0, lo, hi, 0] = s.ctlSet q t false (hi ++ lo).toNat := by
  obtain ⟨h1, h2, h3, h4, h5⟩ := ctlWord_fields t (op := 0) (by decide)
  simp [State.queueCtl, hp, wAt, dAt, h1, h2, h3, h4, h5]

theorem State.queueCtl_resume_refused {c : Code} (hr : s.resumeRefusal t none = some c) : s.queueCtl q [ctlWord t 1, 0, 0, 0] = (s, (c, [])) := by
  obtain ⟨h1, h2, h3, h4, h5⟩ := ctlWord_fields t (op := 1) (by decide)
  simp [State.queueCtl, hp, wAt, h1, h2, h3, h4, h5, hr]

theorem State.queueCtl_resume (hr : s.resumeRefusal t none = none) :
    s.queueCtl q [ctlWord t 1, 0, 0, 0] = ((s.resumeLaunch t none).1, (0, [])) := by
  obtain ⟨h1, h2, h3, h4, h5⟩ := ctlWord_fields t (op := 1) (by decide)
  simp [State.queueCtl, hp, wAt, h1, h2, h3, h4, h5, hr]

theorem State.queueCtl_end_none (hl : s.launchOf t = none) : s.queueCtl q [ctlWord t 2, 0, 0, 0] = (s, (eQueueState, [])) := by
  obtain ⟨h1, h2, h3, h4, h5⟩ := ctlWord_fields t (op := 2) (by decide)
  simp [State.queueCtl, hp, wAt, h1, h2, h3, h4, h5, hl]

theorem State.queueCtl_end {l : Launch} (hl : s.launchOf t = some l) :
    s.queueCtl q [ctlWord t 2, 0, 0, 0] = (s.stop l { code := eLaunchEnded, source := 3 }, (0, [])) := by
  obtain ⟨h1, h2, h3, h4, h5⟩ := ctlWord_fields t (op := 2) (by decide)
  simp [State.queueCtl, hp, wAt, h1, h2, h3, h4, h5, hl]

theorem State.queueCtl_clear (hd : s.err.drained = false) (he : (s.queue t).err = true) :
    s.queueCtl q [ctlWord t 3, 0, 0, 0] = (s.modQueue t fun q => { q with err := false, errCode := 0 }, (0, [])) := by
  obtain ⟨h1, h2, h3, h4, h5⟩ := ctlWord_fields t (op := 3) (by decide)
  simp [State.queueCtl, hp, wAt, h1, h2, h3, h4, h5, hd, he]

theorem State.queueCtl_clear_none (hd : s.err.drained = false) (he : (s.queue t).err = false) :
    s.queueCtl q [ctlWord t 3, 0, 0, 0] = (s, (eQueueState, [])) := by
  obtain ⟨h1, h2, h3, h4, h5⟩ := ctlWord_fields t (op := 3) (by decide)
  simp [State.queueCtl, hp, wAt, h1, h2, h3, h4, h5, hd, he]

end

/-! ### A SUBMIT that comes alone -/

section
variable {w0 : Word} {n : Nat} (hw : s.awaits h n) (hn : 4 + 4 * b.length = n)
include hw hn

theorem State.host_submit_answers {e : State} {f : CmdFail} {data : List Byte} {cmd : Nat} (hk : wbits w0 24 8 = cmd)
    (hr : (s.taken h).submit h.qid w0 b sig = (e, .done f data)) : s.answersWith h (s.host h (some (.submit w0 b sig))) cmd 1 e f data := by
  have hformed : ((HostMsg.submit w0 b sig).bytes == some n) = true := beq_iff_eq.2 (congrArg some hn)
  refine State.answersWith_of_carryMsg hw ?_ (by rw [HostMsg.kind, hk])
  rw [hformed, State.carryMsg_submit hw, hr]

theorem State.host_submit_begins {e : State} {p : InProgress} (hr : (s.taken h).submit h.qid w0 b sig = (e, .busy p)) :
    s.beginsWith h (s.host h (some (.submit w0 b sig))) (.submit w0 b sig) e p := by
  refine State.beginsWith_of_carryMsg hw (congrArg some hn) ?_
  rw [State.carryMsg_submit hw, hr]

end

theorem State.expSeq_taken (s : State) (h : Hdr) (seq : Word) : (s.taken h).expSeq seq = s.expSeq seq := by
  obtain ⟨l, m, hu⟩ := s.useEntry_only h.qid
  rw [State.taken, hu]
  rfl

theorem State.err_block_taken (s : State) (h : Hdr) : (s.taken h).err = s.err := by
  obtain ⟨l, m, hu⟩ := s.useEntry_only h.qid
  rw [State.taken, hu]
  rfl

theorem State.exportClose_refused {seq : Word} (hc : (s.expSeq seq).closing ≠ none ∨ ∀ b ∈ (s.expSeq seq).subs, b.2.opened = false) :
    s.exportClose qid seq = (s, some eExportOpen) := by
  refine if_pos ?_
  rw [Bool.or_eq_true]
  refine hc.imp (fun h => Option.isSome_iff_ne_none.2 h) fun h => ?_
  rw [Bool.not_eq_true', List.any_eq_false]
  exact fun b hb => by rw [h b hb]; exact Bool.false_ne_true

theorem State.exportClose_begins {seq : Word} (hc : (s.expSeq seq).closing = none) (ho : ∃ b ∈ (s.expSeq seq).subs, b.2.opened = true) :
    s.exportClose qid seq = (s.modSeq seq fun e => { e with closing := some qid }, none) := by
  refine if_neg ?_
  rw [hc, List.any_eq_true.2 ho]
  exact Bool.false_ne_true

/-- Settles O49. -/
theorem hostCommands : Obligations.HostCommands := by
  intro s h body sig slip hw k q plain submit
  have hq : (k.queue h.qid).ctx = q.ctx ∧ (k.queue h.qid).priv = q.priv := by rw [s.queue_taken h]; exact ⟨rfl, rfl⟩
  have hload (b : List Word) (hb : b.length = 4) (sig : SigVerdict) : k.submit h.qid (.ofNat 32 (1 * 2 ^ 24)) b sig =
      ((k.loadProgram q.ctx q.priv b sig).1, .done (k.loadProgram q.ctx q.priv b sig).2 []) := by
    rw [← hq.1, ← hq.2]
    exact State.submit_loadProgram hb
  have hfield (off n v : Nat) : 4 + 4 * (withField body off n v).length = 4 + 4 * body.length := by rw [length_withField]
  refine ⟨fun w0 hbad => State.host_submit_answers hw rfl rfl (State.submit_malformed hbad), fun hb => ⟨?_, ?_⟩, fun hb hc => ?_, fun hb => ?_, fun hb => ?_,
    fun hb => ?_, rfl, rfl, fun hb => ?_, fun hb => ⟨fun c hc => ?_, fun hc => ?_⟩, fun hb => ?_, fun hb => ⟨fun e he => ?_, fun u m n he => ?_⟩, fun hb => ?_,
    fun seq hb => ?_, fun hb => ⟨fun hp => ?_, fun hp => ?_, ?_⟩, fun t => ?_⟩
  · exact State.host_submit_answers hw rfl rfl (hload body hb sig)
  · exact State.host_submit_answers hw rfl rfl (State.submit_queueCtl hb)
  · exact State.host_submit_begins hw rfl (State.submit_launch_waits hb hc)
  · subst hb
    exact State.host_submit_answers hw rfl rfl State.submit_fence
  · exact State.host_submit_answers hw rfl rfl (State.submit_exportOpen hb)
  · exact State.host_submit_answers hw rfl rfl (State.submit_digest hb)
  · intro r
    have hkind (kind : Nat) := State.host_submit_answers hw (hfield 30 2 kind) rfl (hload (withField body 30 2 kind) ((length_withField _ _ _ _).trans hb) sig)
    exact ⟨hkind 0, hkind 1, hkind 2⟩
  · exact State.host_submit_answers hw rfl rfl (State.submit_launch_refused hb hc)
  · exact State.host_submit_begins hw rfl (State.submit_launch_waits hb hc)
  · subst hb
    exact State.host_submit_answers hw rfl rfl State.submit_fence
  · exact State.host_submit_answers hw rfl rfl (State.submit_prefix_refused hb (by rw [hq.1]; exact he))
  · exact State.host_submit_answers hw rfl rfl (State.submit_prefix_found hb (by rw [hq.1]; exact he))
  · exact State.host_submit_answers hw rfl rfl (State.submit_exportOpen hb)
  · subst hb
    refine ⟨fun hc => ?_, fun hc ho => ?_⟩
    · exact State.host_submit_answers hw rfl rfl (State.submit_exportClose_refused (State.exportClose_refused (by rw [s.expSeq_taken h]; exact hc)))
    · exact State.host_submit_begins hw rfl (State.submit_exportClose_begins (State.exportClose_begins (by rw [s.expSeq_taken h]; exact hc)
        (by rw [s.expSeq_taken h]; exact ho)))
  · have hdenied (op : Nat) := State.host_submit_answers hw (hfield 28 4 op) (sig := ⟨false, false⟩) rfl
      (State.submit_test_denied ((length_withField _ _ _ _).trans hb) (hq.2.trans hp))
    exact ⟨hdenied 0, hdenied 1, hdenied 2⟩
  · intro now
    have hne : body ≠ [] := List.ne_nil_of_length_pos (by omega)
    have hasked {op : Nat} (hop : op ≤ 2) {r : State × Option CmdFail} (hr : k.testAsked h.qid (withField body 28 4 op) op = r) :
        (∀ f, r.2 = some f → s.answersWith h (s.host h (some (plain 7 (withField body 28 4 op)))) 7 1 r.1 f []) ∧
        (r.2 = none → s.beginsWith h (s.host h (some (plain 7 (withField body 28 4 op)))) (plain 7 (withField body 28 4 op)) r.1 .testing) := by
      have hrun := State.submit_test (sig := ⟨false, false⟩) ((length_withField body 28 4 op).trans hb) (hq.2.trans hp) hop
        (wbits_withField_op hne (Nat.lt_of_le_of_lt hop (by decide)))
      rw [hr] at hrun
      refine ⟨fun f hf => State.host_submit_answers hw (hfield 28 4 op) rfl (hrun.trans ?_), fun hf =>
        State.host_submit_begins hw (hfield 28 4 op) (hrun.trans ?_)⟩
      · rw [testEnds, hf]
      · rw [testEnds, hf]
    exact ⟨hasked (op := 0) (by decide) rfl, hasked (op := 1) (by decide) rfl, hasked (op := 2) (by decide) rfl⟩
  · refine State.answersWith_of_carryMsg hw ?_ rfl
    rw [show ((HostMsg.digest body slip).bytes == some (4 + 4 * body.length)) = true from beq_self_eq_true _, State.carryMsg_digest hw body slip hb]
  · intro b hb
    have hctl (op : Nat) (x y z : Word) {e : State} {f : CmdFail} (hr : k.queueCtl (k.queue h.qid) [ctlWord t op, x, y, z] = (e, f)) :
        s.answersWith h (s.host h (some (plain 9 (withField [t.setWidth 32, x, y, z] 28 4 op)))) 9 1 e f [] := by
      refine State.host_submit_answers hw (by rw [length_withField, hb]; rfl) rfl ?_
      rw [State.submit_queueCtl (length_withField _ _ _ _), withField_ctl, hr]
    refine ⟨fun hp => ⟨hctl 0 0 0 0 (State.queueCtl_denied (hq.2.trans hp) _), hctl 2 0 0 0 (State.queueCtl_denied (hq.2.trans hp) _)⟩, fun hp => ?_⟩
    have hp' := hq.2.trans hp
    refine ⟨fun lo hi => hctl 0 lo hi 0 (State.queueCtl_set hp' t lo hi), fun hr => hctl 1 0 0 0 (State.queueCtl_resume hp' t hr),
      fun c hr => hctl 1 0 0 0 (State.queueCtl_resume_refused hp' t hr), fun hl => hctl 2 0 0 0 (State.queueCtl_end_none hp' t hl),
      fun l hl => hctl 2 0 0 0 (State.queueCtl_end hp' t hl), fun hd he => hctl 3 0 0 0 (State.queueCtl_clear hp' t ?_ he),
      fun hd he => hctl 3 0 0 0 (State.queueCtl_clear_none hp' t ?_ he)⟩
    · rw [s.err_block_taken h]; exact hd
    · rw [s.err_block_taken h]; exact hd

end Sys2Proof.Machine
end

section
/-!
PROOFS about streams: SARM, the start, the launch beat and the end (08 R240, R241, R245, R248).
-/

namespace Sys2Proof.Machine

variable {s t u : State} {l : Launch} {c : Nat}

/-! ### The state of a stream's line (08 R240) -/

theorem Core.dw_setStreamState (k : Core) (ln n a b : Nat) :
    (k.setStreamState ln n).dw a b = if 16 * ln + 1 = 16 * a + b then .ofNat 32 ((k.dw ln 1).toNat % 2 ^ 28 + n * 2 ^ 28) else k.dw a b :=
  k.dw_setDw ln 1 a b _

/-- The core with a stream in state QUEUED at the tail of its engine, with no progress and no halt. -/
def Core.armed (k : Core) (line : BitVec 10) (eng : Fin 4) (st : Stream) : Core :=
  ((({ k with streamLines := addLine k.streamLines line, eng := smod [] k.eng eng.val fun q => q ++ [st] } : Core).setStreamState line.toNat 1).setDw
    line.toNat 2 0).setDw line.toNat 15 0

section
variable (k : Core) (line : BitVec 10) (eng : Fin 4) (st : Stream)

theorem Core.dw_armed (a b : Nat) : (k.armed line eng st).dw a b =
    if 16 * line.toNat + 15 = 16 * a + b then 0 else if 16 * line.toNat + 2 = 16 * a + b then 0
    else if 16 * line.toNat + 1 = 16 * a + b then .ofNat 32 ((k.dw line.toNat 1).toNat % 2 ^ 28 + 1 * 2 ^ 28) else k.dw a b := by
  rw [Core.armed, Core.dw_setDw, Core.dw_setDw, Core.dw_setStreamState]
  rfl

theorem mem_addLine (ls : List (BitVec 10)) : (addLine ls line).contains line = true := by
  rw [addLine]
  split
  · assumption
  · simp

theorem Core.streamState_armed : (k.armed line eng st).streamState line = 1 := by
  have hmem : (k.armed line eng st).streamLines.contains line = true := mem_addLine line k.streamLines
  rw [Core.streamState, hmem, if_pos rfl, Core.dw_armed, if_neg (by omega), if_neg (by omega), if_pos rfl, wbits, BitVec.toNat_ofNat,
    Nat.shiftRight_eq_div_pow]
  omega

theorem Core.eng_armed : sget [] (k.armed line eng st).eng eng.val = sget [] k.eng eng.val ++ [st] := sget_sset_same _ _ _ _

/-- Every other word of the descriptor store stays. -/
theorem Core.dw_armed_other {a b : Nat} (hb : b < 16) (h : a ≠ line.toNat ∨ (b ≠ 1 ∧ b ≠ 2 ∧ b ≠ 15)) : (k.armed line eng st).dw a b = k.dw a b := by
  rw [Core.dw_armed, if_neg (by omega), if_neg (by omega), if_neg (by omega)]

end

/-- The log of streams that a shadow needs is its own matter (14 R411). -/
theorem Core.logStream_frame (k : Core) (d : StreamDesc) (ws : List Word) (ctx : BitVec 8) :
    (k.logStream d ws ctx).1 = { k with refetch := (k.logStream d ws ctx).1.refetch, nextStream := (k.logStream d ws ctx).1.nextStream } := by
  rw [Core.logStream]
  split <;> rfl

/-! ### SARM (08 R241) -/

/-- The core with a stream armed from its descriptor, logged where it is one of those that are (14 R411). -/
def Core.sarmed (k : Core) (line : BitVec 10) (eng : Fin 4) (serial : Nat) (d : StreamDesc) (ws : List Word) (ctx : BitVec 8) : Core :=
  (k.logStream d ws ctx).1.armed line eng { line := line, serial := serial, words := ws, logNo := (k.logStream d ws ctx).2 }

section
variable {line : BitVec 10} (eng : Fin 4) (ins : Issued)

/-- A busy line is left alone; the SARM goes on without its signal. -/
theorem runSarm_busy (hline : 2 ≤ line.toNat) (h5 : wbits (wAt ((s.core c).lineWords line.toNat 16) 0) 28 4 = 5) (hb : (s.core c).streamBusy line = true) :
    runSarm line eng s l c ins = { s := s.log (rearmRecord l c ins.pc), fly := false, mute := true } := by
  have hok : lineOk line.toNat 1 = true := by
    have := line.isLt
    simp only [lineOk, Bool.and_eq_true, decide_eq_true_eq]
    omega
  simp only [runSarm, hok, h5, hb, Bool.not_true, bne_self_eq_false, Bool.or_self, Bool.false_eq_true, if_false, if_true]

theorem runSarm_arms (hline : 2 ≤ line.toNat) (h5 : wbits (wAt ((s.core c).lineWords line.toNat 16) 0) 28 4 = 5) (hb : (s.core c).streamBusy line = false)
    {d : StreamDesc} (hd : parseStream ((s.core c).lineWords line.toNat 16) = .ok d) (hslot : d.remote = true → s.slotOk l d.slot d.dev = true)
    (hbounds : d.boundsOk = true) (hover : d.overlaps = false) :
    runSarm line eng s l c ins =
      { s := s.setCore c ((s.core c).sarmed line eng ins.serial d ((s.core c).lineWords line.toNat 16) l.ctx) } := by
  have hok : lineOk line.toNat 1 = true := by
    have := line.isLt
    simp only [lineOk, Bool.and_eq_true, decide_eq_true_eq]
    omega
  have hreach : (d.remote && !s.slotOk l d.slot d.dev) = false := by
    cases hr : d.remote with
    | false => rfl
    | true => rw [hslot hr]; rfl
  simp only [runSarm, hok, h5, hb, hd, hreach, hbounds, hover, Bool.not_true, bne_self_eq_false, Bool.or_self, Bool.false_eq_true, if_false]
  rfl

end

theorem Core.lineWords_unitStart (k : Core) (h : Ih) (line n : Nat) : (k.unitStart h).lineWords line n = k.lineWords line n := by
  rw [Core.unitStart_frame]
  rfl

theorem Core.streamBusy_unitStart (k : Core) (h : Ih) (line : BitVec 10) : (k.unitStart h).streamBusy line = k.streamBusy line := by
  rw [Core.unitStart_frame]
  rfl

section
variable (k : Core) (ins : Issued) (u : CUnit)

theorem Core.streamState_flying (line : BitVec 10) : (k.flying ins u).streamState line = k.streamState line := rfl

theorem Core.dw_flying (a b : Nat) : (k.flying ins u).dw a b = k.dw a b := rfl

theorem Core.flight_flying : (k.flying ins u).flight = k.flight ++ [{ ins := ins, unit := u }] := rfl

theorem Core.pc_flying : (k.flying ins u).pc = k.pc := rfl

theorem Core.eng_flying : (k.flying ins u).eng = k.eng := rfl

end

section
variable (k : Core) (h : Ih) (line : BitVec 10) (eng : Fin 4) (n : Nat) (d : StreamDesc) (ws : List Word) (ctx : BitVec 8)

/-- What SARM leaves in the core that begins it. -/
theorem Core.sarmed_unitStart :
    let v := (k.unitStart h).sarmed line eng n d ws ctx
    v.streamState line = 1 ∧ v.dw line.toNat 2 = 0 ∧ v.dw line.toNat 15 = 0 ∧
    (∀ a b, b < 16 → (a ≠ line.toNat ∨ (b ≠ 1 ∧ b ≠ 2 ∧ b ≠ 15)) → v.dw a b = k.dw a b) ∧
    sget [] v.eng eng.val = sget [] k.eng eng.val ++ [{ line := line, serial := n, words := ws, logNo := ((k.unitStart h).logStream d ws ctx).2 }] := by
  refine ⟨Core.streamState_armed _ line eng _, (Core.dw_armed _ line eng _ _ _).trans ?_, (Core.dw_armed _ line eng _ _ _).trans (if_pos rfl),
    fun a b hb h' => (Core.dw_armed_other _ line eng _ hb h').trans ?_, (Core.eng_armed _ line eng _).trans ?_⟩
  · rw [if_neg (by omega), if_pos rfl]
  · rw [Core.logStream_frame]
    exact Core.dw_unitStart _ _ _ _
  · rw [Core.logStream_frame, Core.unitStart_frame]

theorem Core.flight_setDw (a b : Nat) (w : Word) : (k.setDw a b w).flight = k.flight := rfl

theorem Core.pc_setDw (a b : Nat) (w : Word) : (k.setDw a b w).pc = k.pc := rfl

theorem Core.flight_armed (st : Stream) : (k.armed line eng st).flight = k.flight := by
  rw [Core.armed, Core.flight_setDw, Core.flight_setDw, Core.setStreamState, Core.flight_setDw]

theorem Core.pc_armed (st : Stream) : (k.armed line eng st).pc = k.pc := by
  rw [Core.armed, Core.pc_setDw, Core.pc_setDw, Core.setStreamState, Core.pc_setDw]

theorem Core.flight_sarmed : ((k.unitStart h).sarmed line eng n d ws ctx).flight = k.flight :=
  calc ((k.unitStart h).sarmed line eng n d ws ctx).flight
    _ = ((k.unitStart h).logStream d ws ctx).1.flight := Core.flight_armed _ line eng _
    _ = (k.unitStart h).flight := congrArg (·.flight) ((k.unitStart h).logStream_frame d ws ctx)
    _ = k.flight := congrArg (·.flight) (k.unitStart_frame h)

theorem Core.pc_sarmed : ((k.unitStart h).sarmed line eng n d ws ctx).pc = k.pc + 8 :=
  calc ((k.unitStart h).sarmed line eng n d ws ctx).pc
    _ = ((k.unitStart h).logStream d ws ctx).1.pc := Core.pc_armed _ line eng _
    _ = (k.unitStart h).pc := congrArg (·.pc) ((k.unitStart h).logStream_frame d ws ctx)
    _ = k.pc + 8 := rfl

end

/-- What a SARM that flies leaves in its core. -/
theorem Core.sarms {k v : Core} {h : Ih} {line : BitVec 10} {eng : Fin 4} {n : Nat} {d : StreamDesc} {ws : List Word} {ctx : BitVec 8} {ins : Issued}
    (hv : v = ((k.unitStart h).sarmed line eng n d ws ctx).flying ins .stm) :
    v.streamState line = 1 ∧ v.dw line.toNat 2 = 0 ∧ v.dw line.toNat 15 = 0 ∧
    (∀ a b, b < 16 → (a ≠ line.toNat ∨ (b ≠ 1 ∧ b ≠ 2 ∧ b ≠ 15)) → v.dw a b = k.dw a b) ∧
    sget [] v.eng eng.val = sget [] k.eng eng.val ++ [{ line := line, serial := n, words := ws, logNo := ((k.unitStart h).logStream d ws ctx).2 }] ∧
    v.flight = k.flight ++ [{ ins := ins, unit := .stm }] ∧ v.pc = k.pc + 8 := by
  subst hv
  obtain ⟨hstate, hprog, hhalt, hdw, heng⟩ := k.sarmed_unitStart h line eng n d ws ctx
  refine ⟨(Core.streamState_flying _ ins .stm line).trans hstate, (Core.dw_flying _ ins .stm _ _).trans hprog, (Core.dw_flying _ ins .stm _ _).trans hhalt,
    fun a b hb h' => (Core.dw_flying _ ins .stm a b).trans (hdw a b hb h'), (congrArg (sget [] · eng.val) (Core.eng_flying _ ins .stm)).trans heng,
    (Core.flight_flying _ ins .stm).trans ?_, (Core.pc_flying _ ins .stm).trans (k.pc_sarmed h line eng n d ws ctx)⟩
  rw [Core.flight_sarmed]

/-- Settles O21. -/
theorem streamArms : Obligations.StreamArms := by
  intro s h l d eng c k line i op ins ws w hline h5
  have hb := State.begun_onlyCore w
  have hcore : (s.begun h (bitsOf i) .stm op).core c = k.unitStart h := hb.2.1
  have hwords : ((s.begun h (bitsOf i) .stm op).core c).lineWords line.toNat 16 = ws := by rw [hcore, Core.lineWords_unitStart]
  have hbusy : ((s.begun h (bitsOf i) .stm op).core c).streamBusy line = k.streamBusy line := by rw [hcore, Core.streamBusy_unitStart]
  have h5' : wbits (wAt (((s.begun h (bitsOf i) .stm op).core c).lineWords line.toNat 16) 0) 28 4 = 5 := by rw [hwords]; exact h5
  refine ⟨fun hfree x hx hslot hbounds hover => ?_, fun hb => ?_⟩
  · have hrun := runSarm_arms (s := s.begun h (bitsOf i) .stm op) (l := l) (c := c) eng ins hline h5' (hbusy.trans hfree) (d := x) (by rw [hwords]; exact hx)
      (fun hr => by rw [hb.1]; exact hslot hr) hbounds hover
    rw [hcore, Core.lineWords_unitStart] at hrun
    have harmed : ∃ t, exec i s = .next t ∧ s.onlyCore t c (((k.unitStart h).sarmed line eng k.serialNo x ws l.ctx).flying ins .stm) := by
      have hset := State.onlyCore_trans hb
        (State.onlyCore_setCore (k := (k.unitStart h).sarmed line eng ins.serial x (k.lineWords line.toNat 16) l.ctx) _ c)
      have hend := State.onlyCore_trans hset (State.onlyCore_modCore _ c fun k => k.flying ins .stm)
      rw [hset.2.1] at hend
      exact ⟨_, exec_flies (i := i) (op := op) rfl nofun nofun w hrun (State.onlyCore_out hset) (by rw [hset.1]), hend⟩
    obtain ⟨t, hexec, ht, htc, hother⟩ := harmed
    exact ⟨t, _, hexec, rfl, rfl, rfl, rfl, ht, hother, Core.sarms htc⟩
  · have hmute := (exec_runs (i := i) (op := op) rfl nofun nofun w).2.2.1
    have hrun : runOp {} (s.begunState h (bitsOf i) .stm fun _ => op) l c ins = _ := runSarm_busy eng ins hline h5' (hbusy.trans hb)
    generalize runOp {} (s.begunState h (bitsOf i) .stm fun _ => op) l c ins = g at hmute hrun
    subst hrun
    exact ⟨_, hmute rfl rfl rfl, rfl, fun j => rfl⟩

end Sys2Proof.Machine
end

section
/-!
PROOFS about streams: the start, the launch beat and the end (08 R240, R245, R248).
-/

namespace Sys2Proof.Machine

variable {s t u : State} {l : Launch} {c : Nat} {eng : Fin 4} {st : Stream} {d : StreamDesc}

/-! ### The end of a stream (08 R245) -/

/-- The core whose stream is DONE with all of its bytes, and whose engine has let it go. -/
def Core.streamEnded (k : Core) (eng : Fin 4) (ln total : Nat) : Core :=
  let k := (k.setStreamState ln 4).setDw ln 2 (.ofNat 32 total)
  { k with eng := smod [] k.eng eng.val (·.drop 1) }

section
variable (k : Core) (eng : Fin 4) (ln total : Nat)

theorem Core.eng_setDw (a b : Nat) (w : Word) : (k.setDw a b w).eng = k.eng := rfl

theorem Core.streamEnded_eq : k.streamEnded eng ln total =
    { (k.setStreamState ln 4).setDw ln 2 (.ofNat 32 total) with eng := smod [] k.eng eng.val (·.drop 1) } := by
  rw [Core.streamEnded, Core.eng_setDw, Core.setStreamState, Core.eng_setDw]

theorem Core.flight_streamEnded : (k.streamEnded eng ln total).flight = k.flight := by
  rw [Core.streamEnded, Core.flight_setDw, Core.setStreamState, Core.flight_setDw]

theorem Core.streamState_modEngHead (f : Stream → Stream) (line : BitVec 10) : (k.modEngHead eng f).streamState line = k.streamState line := rfl

/-- The core that a stream leaves whose flight ends with it. -/
def Core.sarmEnded (n : Nat) : Core :=
  { k.streamEnded eng ln total with flight := k.flight.filter fun g => g.ins.serial != n }

theorem Core.sarmEnded_eq (n : Nat) : k.sarmEnded eng ln total n =
    { (k.setStreamState ln 4).setDw ln 2 (.ofNat 32 total) with
      eng := smod [] k.eng eng.val (·.drop 1), flight := k.flight.filter fun g => g.ins.serial != n } := by
  rw [Core.sarmEnded, Core.streamEnded_eq]

theorem Core.filtered_streamEnded (n : Nat) : ({ k.streamEnded eng ln total with
    flight := (k.streamEnded eng ln total).flight.filter fun g => g.ins.serial != n, flags := (k.streamEnded eng ln total).flags ||| 0 } : Core) =
      k.sarmEnded eng ln total n := by
  rw [Core.sarmEnded, Core.flight_streamEnded]
  exact congrArg (fun v => ({ k.streamEnded eng ln total with flight := _, flags := v } : Core)) BitVec.or_zero

end

theorem State.endStream_ended {f : Flight} (hf : (s.core c).streamFlight st = some f) :
    s.endStream l c eng st d = (s.setCore c ((s.core c).streamEnded eng st.line.toNat d.total)).completeFlight l c f := by
  have hend : (((s.core c).setStreamState st.line.toNat 4).setDw st.line.toNat 2 (.ofNat 32 d.total)).streamFlight st = some f := by
    rw [Core.streamFlight, Core.flight_setDw, Core.setStreamState, Core.flight_setDw]
    exact hf
  simp only [State.endStream, hend, Core.streamEnded]

/-- A stream whose SARM carries no mark, signal or flag ends with its flight. -/
theorem State.endStream_done {f : Flight} (hf : (s.core c).streamFlight st = some f) (hmarks : f.marks = []) (hsg : f.ins.sg = none) (hflags : f.flags = 0) :
    ∃ t, s.endStream l c eng st d = (t, false) ∧ s.onlyCore t c ((s.core c).sarmEnded eng st.line.toNat d.total f.ins.serial) := by
  have hset := State.onlyCore_setCore (k := (s.core c).streamEnded eng st.line.toNat d.total) s c
  obtain ⟨t, hend, ht⟩ := State.completeFlight_ends (s := s.setCore c ((s.core c).streamEnded eng st.line.toNat d.total)) (l := l) (c := c) (f := f) hmarks
    (fun x hx => nomatch hsg.symm.trans hx)
  refine ⟨t, (State.endStream_ended hf).trans hend, ?_⟩
  have h := State.onlyCore_trans hset ht
  rw [hset.2.1, hsg, hflags, Core.filtered_streamEnded] at h
  exact h

/-! ### The steps of a stream -/

section
variable (s) (c : Nat) (eng : Fin 4)

/-- The state in which an engine's head has no detection left. -/
def State.headCleared : State := s.modCore c fun k => k.modEngHead eng fun t => { t with det := [] }

theorem State.core_headCleared : (s.headCleared c eng).core c = (s.core c).modEngHead eng fun t => { t with det := [] } :=
  s.core_modCore_same c _

end

/-- With no detection the data path goes on. -/
theorem State.streamDetect_nil (hr : s.running = some l) (hdet : st.det = []) (go : State → State × Bool) :
    s.streamDetect l c eng st [] go = go (s.headCleared c eng) := by
  rw [State.streamDetect, hdet]
  simp only [List.append_nil, State.detect_nil, State.launchOf_running hr, Bool.false_eq_true, if_false, List.isEmpty_nil, Bool.not_true, Bool.or_false]
  rfl

theorem State.beforeStart_iff : s.beforeStart l d = true ↔ ¬(d.remote = false ∨ d.startBeat.toNat ≤ (l.beat s.fab.cnt).toNat) := by
  rw [State.beforeStart, Bool.and_eq_true, decide_eq_true_eq]
  cases d.remote <;> simp

section
variable (hr : s.running = some l) (hhead : (s.core c).headStream eng = some (st, d)) (hto : s.inTakeover c = false)
include hr hhead hto

theorem State.startStream_begins (hdet : st.det = []) (hstate : (s.core c).streamState st.line = 1) (hbegun : s.beforeStart l d = false) :
    s.startStream c eng [] = (s.headCleared c eng).beginStream l c eng st d := by
  rw [State.startStream, hr, hhead]
  simp only [hto, hstate, hbegun, bne_self_eq_false, Bool.or_self, Bool.false_eq_true, if_false]
  exact State.streamDetect_nil hr hdet _

theorem State.startStream_waits (hstate : (s.core c).streamState st.line = 1) (hbegun : s.beforeStart l d = true) :
    s.startStream c eng [] = (if d.total = 0 then s else s.modCore c fun k => k.setStreamState st.line.toNat 2, false) := by
  rw [State.startStream, hr, hhead]
  simp only [hto, hstate, hbegun, bne_self_eq_false, Bool.or_self, Bool.false_eq_true, if_false, if_true]

theorem State.startRemote_begins (hdet : st.det = []) (hremote : d.remote = true) (hstarted : st.started = false) (hbegun : s.beforeStart l d = false)
    (hstate : (s.core c).streamState st.line = if d.total = 0 then 1 else 2) :
    s.startRemote c eng = (s.headCleared c eng).beginStream l c eng st d := by
  rw [State.startRemote, hr, hhead]
  simp only [hto, hremote, hstarted, hstate, hbegun, bne_self_eq_false, Bool.not_true, Bool.or_self, Bool.false_eq_true, if_false]
  exact State.streamDetect_nil hr hdet _

section
variable (hstate : (s.core c).streamState st.line = 2) (hstarted : st.started = true)
include hstate hstarted

theorem State.streamDone_ends (hdet : st.det = []) {n : Nat}
    (h : (d.remote = true ∧ d.total ≤ n) ∨ (d.remote = false ∧ ((s.core c).dw st.line.toNat 2).toNat = d.total)) :
    s.streamDone c eng n [] = (s.headCleared c eng).endStream l c eng st d := by
  have hall : (!d.remote && ((s.core c).dw st.line.toNat 2).toNat != d.total) = false := by
    rcases h with ⟨hrem, -⟩ | ⟨hrem, hn⟩
    · rw [hrem]; rfl
    · rw [hrem, hn]; simp
  have hless : (d.remote && decide (n < d.total)) = false := by
    rcases h with ⟨hrem, hn⟩ | ⟨hrem, -⟩
    · rw [hrem, decide_eq_false (by omega)]; rfl
    · rw [hrem]; rfl
  have hactive : ((s.headCleared c eng).core c).streamState st.line = 2 := by
    rw [State.core_headCleared, Core.streamState_modEngHead, hstate]
  rw [State.streamDone, hr, hhead]
  simp only [hto, hstate, hstarted, hall, hless, bne_self_eq_false, Bool.not_true, Bool.or_self, Bool.false_eq_true, if_false]
  refine (State.streamDetect_nil hr hdet _).trans ?_
  rw [hdet]
  exact if_pos hactive

theorem State.streamDone_progress {n : Nat} (hremote : d.remote = true) (hn : n < d.total) :
    s.streamDone c eng n [] =
      (s.modCore c fun k => k.setDw st.line.toNat 2 (.ofNat 32 (max (k.dw st.line.toNat 2).toNat (min n st.sent / 64 * 64))), false) := by
  rw [State.streamDone, hr, hhead]
  simp only [hto, hstate, hstarted, hremote, decide_eq_true hn, bne_self_eq_false, Bool.not_true, Bool.or_self, Bool.and_self, Bool.false_and,
    Bool.false_eq_true, if_false, if_true]

end

end

theorem State.beginStream_runs (h : d.total ≠ 0) : s.beginStream l c eng st d = (s.runStream l c eng st d 0, true) := by
  rw [State.beginStream, if_neg h]

/-- A stream of size zero that owes no signal to another device is DONE at once. -/
theorem State.beginStream_zero (h : d.total = 0) (hsig : d.remote = false ∨ d.sig = none) :
    s.beginStream l c eng st d = s.endStream l c eng st d := by
  have hno : (d.remote && d.sig.isSome) = false := by
    rcases hsig with hl | hn
    · rw [hl]; rfl
    · rw [hn]; simp
  rw [State.beginStream, if_pos h]
  simp only [hno, Bool.false_eq_true, if_false]

/-! ### The commands -/

theorem finish_onlyCore {k : Core} (h : s.onlyCore t c k) : finish s (t, false) = .next t :=
  finish_false s _ (by rw [h.1]) (by rw [h.1])

theorem finish_modCore (f : Core → Core) : finish s (s.modCore c f, false) = .next (s.modCore c f) := finish_onlyCore (s.onlyCore_modCore c f)

/-- A command that ends the stream at an engine's head ends it as 08 R245 says. -/
theorem finish_ended {r : State × Bool} (hrun : r = (s.headCleared c eng).endStream l c eng st d) {f : Flight}
    (hf : ((s.headCleared c eng).core c).streamFlight st = some f) (hmarks : f.marks = []) (hsg : f.ins.sg = none) (hflags : f.flags = 0) :
    ∃ t, finish s r = .next t ∧ s.onlyCore t c (((s.headCleared c eng).core c).sarmEnded eng st.line.toNat d.total f.ins.serial) := by
  obtain ⟨t, hend, ht⟩ := State.endStream_done (l := l) (eng := eng) (d := d) hf hmarks hsg hflags
  have hone := State.onlyCore_trans (s.onlyCore_modCore c fun k => k.modEngHead eng fun t => { t with det := [] }) ht
  exact ⟨t, (congrArg (finish s) (hrun.trans hend)).trans (finish_onlyCore hone), hone⟩

/-- Settles O25. -/
theorem streams : Obligations.Streams := by
  intro s c eng l st d hr hhead hto hdet state ln begun s1 k done
  have hbefore : begun → s.beforeStart l d = false := fun h => Bool.eq_false_iff.2 fun hw => State.beforeStart_iff.1 hw h
  have hruns : d.total ≠ 0 → ∀ r, r = s1.beginStream l c.val eng st d → finish s r = .next (s.after (s1.runStream l c.val eng st d 0)) :=
    fun ht r h => (congrArg (finish s) (h.trans (State.beginStream_runs ht))).trans (finish_true s _)
  have hdone : ∀ i r, exec i s = finish s r → r = s1.endStream l c.val eng st d → done i := fun i r he h f hf hmarks hsg hflags => by
    obtain ⟨t, hfin, ht⟩ := finish_ended h hf hmarks hsg hflags
    rw [Core.sarmEnded_eq] at ht
    exact ⟨t, he.trans hfin, ht⟩
  refine ⟨fun h1 hb ht => ?_, fun h1 hb ht hsig => ?_, fun h1 hb ht => ?_, fun h1 hb ht => ?_, fun hrem hst hb => ⟨fun h2 ht => ?_, fun h1 ht hsig => ?_⟩,
    fun h2 hst => ⟨fun n h => ?_, fun n hrem hn => ?_⟩⟩
  · exact hruns ht _ (State.startStream_begins hr hhead hto hdet h1 (hbefore hb))
  · exact hdone _ _ rfl ((State.startStream_begins hr hhead hto hdet h1 (hbefore hb)).trans (State.beginStream_zero ht hsig))
  · have hw := State.startStream_waits hr hhead hto h1 (State.beforeStart_iff.2 hb)
    rw [if_neg ht] at hw
    exact (congrArg (finish s) hw).trans (finish_modCore _)
  · have hw := State.startStream_waits hr hhead hto h1 (State.beforeStart_iff.2 hb)
    rw [if_pos ht] at hw
    exact (congrArg (finish s) hw).trans (finish_false s s rfl rfl)
  · exact hruns ht _ (State.startRemote_begins hr hhead hto hdet hrem hst (hbefore hb) (h2.trans (if_neg ht).symm))
  · exact hdone _ _ rfl ((State.startRemote_begins hr hhead hto hdet hrem hst (hbefore hb) (h1.trans (if_pos ht).symm)).trans
      (State.beginStream_zero ht (.inr hsig)))
  · exact hdone _ _ rfl (State.streamDone_ends hr hhead hto h2 hst hdet h)
  · exact (congrArg (finish s) (State.streamDone_progress hr hhead hto h2 hst hrem hn)).trans (finish_modCore _)

end Sys2Proof.Machine
end

section
/-!
PROOFS that what has left stays said: nothing that a command lets go on takes an output back (13 R392, 04 R110, 11 R327). An obligation that
says what stands in `u.out` for some `u` with the answer `s.after u` (O41) so says it of the answer itself.
-/

namespace Sys2Proof.Machine

variable {s t : State} {y : Out} {l : Launch}

/-! ### Folds and cases -/

section
variable {α : Type} {f : State → α → State}

theorem said_foldl (hf : ∀ v a, y ∈ v.out → y ∈ (f v a).out) (as : List α) (h : y ∈ s.out) : y ∈ (as.foldl f s).out :=
  List.foldlRecOn (motive := fun v : State => y ∈ v.out) as f h fun v hv a _ => hf v a hv

theorem said_foldl_fst {f : State × Bool → α → State × Bool} (hf : ∀ v a, y ∈ v.1.out → y ∈ (f v a).1.out) (as : List α)
    {r : State × Bool}
    (h : y ∈ r.1.out) : y ∈ (as.foldl f r).1.out :=
  List.foldlRecOn (motive := fun v : State × Bool => y ∈ v.1.out) as f h fun v hv a _ => hf v a hv

theorem said_ite {c : Prop} [Decidable c] (hs : y ∈ s.out) (ht : y ∈ t.out) : y ∈ (if c then s else t).out := by
  split
  · exact hs
  · exact ht

theorem said_ite_fst {β : Type} {c : Prop} [Decidable c] {r q : State × β} (hr : y ∈ r.1.out)
    (hq : y ∈ q.1.out) : y ∈ (if c then r else q).1.out := by
  split
  · exact hr
  · exact hq

theorem said_of_eq (ht : t.out = s.out) (h : y ∈ s.out) : y ∈ t.out := ht ▸ h

end

theorem State.said_emitAll (o : List Out) (h : y ∈ s.out) : y ∈ (s.emitAll o).out := List.mem_append_left _ h

theorem State.said_emit (o : Out) (h : y ∈ s.out) : y ∈ (s.emit o).out := List.mem_append_left _ h

theorem State.said_symOn (ps : List (Fin 6)) (x : Sym) (h : y ∈ s.out) : y ∈ (s.symOn ps x).out := State.said_emitAll _ h

/-! ### Messages for the host -/

theorem said_flushGo (n : Nat) (qid : BitVec 12) (h : y ∈ s.out) : y ∈ (flushGo n qid s).out := by
  induction n generalizing s with
  | zero => exact h
  | succ n ih =>
    simp only [flushGo]
    split
    · exact h
    · split
      · exact ih (List.mem_append_left _ h)
      · exact h

theorem State.said_flushHeld (h : y ∈ s.out) : y ∈ s.flushHeld.out :=
  said_foldl (fun _ _ => said_foldl (fun _ _ => said_flushGo _ _) _) _ h

theorem State.said_flushTx (qid : BitVec 12) (h : y ∈ s.out) : y ∈ (s.flushTx qid).out := State.said_flushHeld (said_flushGo _ _ h)

theorem State.said_sendMsg (qid : BitVec 12) (m : TxMsg) (h : y ∈ s.out) : y ∈ (s.sendMsg qid m).out :=
  State.said_flushTx (s := s.modQueue qid _) qid h

theorem State.said_complete (qid : BitVec 12) (cookie : Word) (a : Answer) (h : y ∈ s.out) : y ∈ (s.complete qid cookie a).out :=
  said_ite (c := a.lost = true) (s := (s.modQueue qid _).clearObligations _) h (State.said_sendMsg (s := s.modQueue qid _) qid _ h)

theorem State.said_event (qid : BitVec 12) (e : EvInfo) (h : y ∈ s.out) : y ∈ (s.event qid e).out := State.said_sendMsg qid _ h

/-! ### Tests and swaps (15 R443-R452) -/

theorem State.said_clearCur (qid : BitVec 12) (h : y ∈ s.out) : y ∈ (s.clearCur qid).out := h

theorem State.said_answerTest (qid : BitVec 12) (code : Code) (ws : List Word) (h : y ∈ s.out) : y ∈ (s.answerTest qid code ws).out := by
  rw [State.answerTest]
  split
  · exact State.said_clearCur qid (State.said_complete qid _ _ h)
  · exact h

theorem State.said_activatePack (h : y ∈ s.out) : y ∈ s.activatePack.out := by
  rw [State.activatePack]
  split <;> exact h

theorem State.said_startTest (set : Nat) (p : Fin 9) (why : TestWhy) (h : y ∈ s.out) : y ∈ (s.startTest set p why).out := by
  unfold State.startTest
  split
  · exact h
  · cases why <;> exact h

theorem State.said_serveTests (h : y ∈ s.out) : y ∈ s.serveTests.out :=
  said_foldl (fun v r hv => by
    split
    · exact hv
    · exact State.said_answerTest (s := { v with tst := _ }) _ _ _ hv
    · exact State.said_startTest _ _ _ (State.said_activatePack hv)) _ h

theorem State.said_swapOnce (h : y ∈ s.out) : y ∈ s.swapOnce.out := by
  simp only [State.swapOnce]
  split
  · exact h
  · split
    · exact h
    · split
      · exact h
      · exact State.said_activatePack h

theorem State.said_beginPortTest (h : y ∈ s.out) : y ∈ s.beginPortTest.out := by
  simp only [State.beginPortTest]
  split
  · split
    · exact h
    · split
      · exact State.said_activatePack h
      · exact State.said_activatePack h
  · exact h

theorem State.said_testMoments (h : y ∈ s.out) : y ∈ s.testMoments.out :=
  State.said_beginPortTest (said_ite (said_foldl (fun _ _ => State.said_swapOnce) _ (State.said_serveTests h)) (State.said_serveTests h))

theorem State.said_refuseTests (h : y ∈ s.out) : y ∈ s.refuseTests.out :=
  said_foldl (s := { s with tst := _ }) (fun _ _ => State.said_answerTest _ _ _) _ h

theorem State.said_startSave (h : y ∈ s.out) : y ∈ s.startSave.out := by
  rw [State.startSave]
  split
  · split <;> exact h
  · exact h

/-! ### Pages, pools and the table of shared pages (10 R285-R310) -/

theorem State.said_pfxRead (hash : BitVec 96) (layer pool : Nat) (h : y ∈ s.out) : y ∈ (s.pfxRead hash layer pool).out := by
  rw [State.pfxRead]
  split <;> exact h

theorem State.said_ownWrite (pa : Nat) (bs : List Byte) (h : y ∈ s.out) : y ∈ (s.ownWrite pa bs).out :=
  said_of_eq (s.ownWrite_onlyPools pa bs).out h

theorem State.said_pfxInsert (hash : BitVec 96) (layer pool page : Nat) (h : y ∈ s.out) : y ∈ (s.pfxInsert hash layer pool page).1.out := by
  rw [State.pfxInsert]
  split
  · exact State.said_pfxRead _ _ _ h
  · exact State.said_ownWrite _ _ (State.said_pfxRead _ _ _ h)
  · exact State.said_pfxRead _ _ _ h

theorem State.said_setKhdr (q x : Nat) (k : KHdr) (h : y ∈ s.out) : y ∈ (s.setKhdr q x k).out := said_of_eq (s.setKhdr_onlyPools q x k).out h

theorem State.said_freePage (q x : Nat) (h : y ∈ s.out) : y ∈ (s.freePage q x).out := said_of_eq (s.freePage_onlyPools q x).out h

theorem State.said_reclAdd (q x : Nat) (gen : BitVec 16) (h : y ∈ s.out) : y ∈ (s.reclAdd q x gen).out :=
  said_of_eq (s.reclAdd_onlyPools q x gen).out h

theorem State.said_clearPend (q x u : Nat) (h : y ∈ s.out) : y ∈ (s.clearPend q x u).out := said_of_eq (s.clearPend_onlyPools q x u).out h

theorem State.said_mapPage (q x entry : Nat) (wr : Bool) (h : y ∈ s.out) : y ∈ (s.mapPage q x entry wr).out := h

theorem State.said_invalidate (all : Bool) (ctx : BitVec 8) (h : y ∈ s.out) : y ∈ (s.invalidate all ctx).out := h

theorem State.said_publishPage (e : Fin 5 × Nat × BitVec 8 × Nat) (h : y ∈ s.out) : y ∈ (s.publishPage e).1.out := by
  simp only [State.publishPage]
  split
  · exact h
  · split
    · exact h
    · split
      · exact h
      · split
        · exact State.said_invalidate _ _ (State.said_mapPage _ _ _ _ (State.said_setKhdr _ _ _ (State.said_pfxInsert _ _ _ _ h)))
        · exact State.said_setKhdr _ _ _ (State.said_pfxInsert _ _ _ _ h)

theorem said_publishPages (ps : List (Fin 5 × Nat × BitVec 8 × Nat)) (h : y ∈ s.out) : y ∈ (publishPages ps s).1.out := by
  induction ps generalizing s with
  | nil => exact h
  | cons e ps ih => exact ih (State.said_publishPage e h)

theorem State.said_publish (qid : BitVec 12) (h : y ∈ s.out) : y ∈ (s.publish qid).out :=
  said_foldl (s := { s with xlt := _ }) (fun _ _ hv => by
    dsimp only
    split
    · exact said_publishPages _ hv
    · exact said_publishPages _ hv) _ h

/-! ### Commit (13 R384) -/

theorem State.said_commit (h : y ∈ s.out) : y ∈ (s.commit l).out := State.said_complete _ _ _ (State.said_publish l.qid h)

theorem State.said_commitIfDone (h : y ∈ s.out) : y ∈ s.commitIfDone.1.out := by
  rw [State.commitIfDone]
  split
  · exact h
  · split
    · exact State.said_commit h
    · exact h

/-! ### Flits and control chunks (11 R313) -/

theorem said_drainGo (p : Fin 6) (n : Nat) (h : y ∈ s.out) : y ∈ (drainGo p n s).out := by
  obtain ⟨o, ho, -⟩ := drainGo_leavesNoStream p n s
  rw [ho]
  exact List.mem_append_left _ h

theorem State.said_pushFlit (p : Fin 6) (f : Flit) (h : y ∈ s.out) : y ∈ (s.pushFlit p f).out := by
  rw [State.pushFlit]
  split
  · exact said_drainGo p _ h
  · exact h

theorem State.said_sendFlit (p : Fin 6) (cls : BitVec 2) (dst : Nat) (core : BitVec 6) (tag : BitVec 12) (chunk : Nat)
    (data : List Byte) (h : y ∈ s.out) :
    y ∈ (s.sendFlit p cls dst core tag chunk data).out := by
  rw [State.sendFlit]
  split
  · exact h
  · exact State.said_pushFlit p _ h

theorem State.said_sendControl (x : Sched) (g : Group) (tag : Word) (id : BitVec 12) (dirs : List (Axis × Bool)) (m : CollCtl) (h : y ∈ s.out) :
    y ∈ (s.sendControl x g tag id dirs m).out := by
  obtain ⟨o, ho, -⟩ := s.sendControl_leavesNoStream x g tag id dirs m
  rw [ho]
  exact List.mem_append_left _ h

theorem State.said_tellWaits (h : y ∈ s.out) : y ∈ s.tellWaits.out := by
  rw [State.tellWaits]
  split
  · exact h
  · split
    · exact h
    · exact said_foldl (fun _ _ => State.said_sendControl _ _ _ _ _ _) _ h

theorem State.said_sendAbort (c : Coll) (code : Code) (culprit : BitVec 12) (h : y ∈ s.out) : y ∈ (s.sendAbort l c code culprit).out := by
  rw [State.sendAbort]
  split
  · exact State.said_sendControl _ _ _ _ _ _ h
  · exact h

theorem State.said_abortColls (h : y ∈ s.out) : y ∈ (s.abortColls l).out :=
  said_foldl (fun _ _ hv => by
    dsimp only
    split
    · split <;> exact hv
    · split <;> exact State.said_sendAbort _ _ _ hv) _ h

end Sys2Proof.Machine
end

section
/-!
PROOFS that a stop, a drain and a boundary that passes take no output back (04 R132, 11 R327, 14 R409).
-/

namespace Sys2Proof.Machine

variable {s t : State} {y : Out} {l : Launch}

/-! ### Halts (04 R133) -/

theorem State.said_modQueue (q : BitVec 12) (f : Queue → Queue) (h : y ∈ s.out) : y ∈ (s.modQueue q f).out := h

theorem State.said_modLaunch (q : BitVec 12) (f : Launch → Launch) (h : y ∈ s.out) : y ∈ (s.modLaunch q f).out := h

theorem State.said_halt (code : Code) (e : EvInfo) (h : y ∈ s.out) : y ∈ (s.halt l code e).out :=
  State.said_event _ _ (State.said_modQueue _ _ (said_ite h (State.said_modLaunch _ _ h)))

theorem State.said_haltForLoss (k : LinkId) (h : y ∈ s.out) : y ∈ (s.haltForLoss l k).out := by
  rw [State.haltForLoss]
  refine State.said_halt _ _ (said_ite h (State.said_modLaunch _ _ ?_))
  split <;> exact h

theorem State.said_haltLosses (ks : List LinkId) (h : y ∈ s.out) : y ∈ (s.haltLosses ks).out := by
  have hall : y ∈ (ks.foldl (fun s k => s.launches.foldl (fun s l => if s.affectedBy l k then s.haltForLoss l k else s) s) s).out :=
    said_foldl (fun _ _ => said_foldl (fun _ _ hv => said_ite (State.said_haltForLoss _ hv) hv) _) _ h
  exact hall

/-! ### The tree, the holders and the counters of a boundary -/

theorem State.said_mapChanged (h : y ∈ s.out) : y ∈ s.mapChanged.out := by
  obtain ⟨-, -, -, o, ho, -⟩ := s.mapChanged_tellsPorts
  rw [ho]
  exact List.mem_append_left _ h

theorem State.said_tellHold (old : Option (BitVec 12)) (h : y ∈ s.out) : y ∈ (State.tellHold old s).out := by
  unfold State.tellHold
  extract_lets new f v
  have hv : y ∈ v.out := by
    simp only [v]
    split <;> exact h
  refine said_ite hv ?_
  split
  · exact State.said_emit _ hv
  · exact State.said_emit _ hv
  · exact hv

theorem State.said_refreshHold (h : y ∈ s.out) : y ∈ s.refreshHold.out := State.said_tellHold (s := { s with fab := _ }) _ h

theorem State.said_mapCores (f : Core → Core) (h : y ∈ s.out) : y ∈ (s.mapCores f).out := h

theorem State.said_countBoundary (h : y ∈ s.out) : y ∈ s.countBoundary.out := by
  unfold State.countBoundary
  extract_lets v counts
  have hv : y ∈ v.out := by
    simp only [v]
    split
    · exact said_ite (State.said_mapCores _ h) h
    · exact h
  exact hv

/-! ### Records, stops and the drain (04 R132, 14 R409, R419) -/

theorem State.said_retire (h : y ∈ s.out) : y ∈ s.retire.out := said_ite h h

theorem State.said_pushRec (i : RecInfo) (h : y ∈ s.out) : y ∈ (s.pushRec i).1.out := by
  unfold State.pushRec
  split
  · exact h
  · extract_lets r e v w
    have hw : y ∈ w.out := said_ite (State.said_sendMsg (s := v) _ _ h) h
    exact State.said_retire hw

theorem State.said_keepObligations (h : y ∈ s.out) : y ∈ (s.keepObligations l).out := by
  simp only [State.keepObligations]
  split <;> exact h

theorem State.said_stopCore (i : StopInfo) (h : y ∈ s.out) : y ∈ (s.stopCore l i).1.out := by
  unfold State.stopCore
  extract_lets words s1 key r s2 s3 e s4 s5
  have h1 : y ∈ s1.out := State.said_keepObligations (State.said_abortColls h)
  have h2 : y ∈ s2.out := State.said_pushRec _ h1
  have h3 : y ∈ s3.out := said_ite (State.said_mapCores _ h2) h2
  have h5 : y ∈ s5.out := State.said_complete (s := s4) _ _ _ h3
  exact h5

theorem State.said_modSub (seq : Word) (u : Nat) (f : Sub → Sub) (h : y ∈ s.out) : y ∈ (s.modSub seq u f).out := h

theorem State.said_dropSub (seq : Word) (u : Nat) (cause : BitVec 8) (h : y ∈ s.out) : y ∈ (s.dropSub seq u cause).out := by
  unfold State.dropSub
  refine said_ite h ?_
  extract_lets s1 s2 x s3
  have h1 : y ∈ s1.out := said_foldl (fun _ _ => State.said_clearPend _ _ _) _ h
  exact State.said_event (s := s3) _ _ h1

theorem State.said_dropSubs (seq : Word) (cause : BitVec 8) (h : y ∈ s.out) : y ∈ (s.dropSubs seq cause).out :=
  said_foldl (fun _ _ => State.said_dropSub _ _ _) _ h

theorem State.said_setQueueErr (q : BitVec 12) (code : Code) (h : y ∈ s.out) : y ∈ (s.setQueueErr q code).out := h

theorem State.said_drain (cause : Code) (why : Option (BitVec 12 × StopInfo)) (h : y ∈ s.out) : y ∈ (s.drain cause why).out := by
  unfold State.drain
  refine said_ite h ?_
  extract_lets s1 e s2 s3 s4 s5 s6
  have h1 : y ∈ s1.out := said_ite (State.said_emit _ h) h
  have h3 : y ∈ s3.out := said_foldl (fun _ _ => State.said_stopCore _) _ h1
  have h5 : y ∈ s5.out := State.said_refuseTests (said_foldl (fun _ _ => State.said_dropSubs _ _) _ h3)
  have h6 : y ∈ s6.out := said_foldl (fun _ _ hv => said_ite (State.said_setQueueErr _ _ hv) hv) _ h5
  exact State.said_symOn (s := { s6 with fab := _ }) _ _ h6

theorem State.said_history (k : BitVec 4) (u : Nat) (w : HKind) (h : y ∈ s.out) : y ∈ (s.history k u w).out := h

theorem State.said_stop (i : StopInfo) (h : y ∈ s.out) : y ∈ (s.stop l i).out := by
  rw [State.stop]
  split
  · exact h
  · exact said_ite (State.said_drain _ _ (State.said_history _ _ _ (State.said_stopCore i h))) (State.said_stopCore i h)

theorem State.said_log (i : RecInfo) (h : y ∈ s.out) : y ∈ (s.log i).out :=
  said_ite (State.said_drain _ _ (State.said_history _ _ _ (State.said_pushRec i h))) (State.said_pushRec i h)

theorem State.said_logDrain (i : RecInfo) (why : Option (BitVec 12 × StopInfo)) (h : y ∈ s.out) : y ∈ (s.logDrain i why).out :=
  State.said_drain _ _ (State.said_log _ h)

/-! ### Pages that are handed over (13 R394, R397) -/

theorem State.said_markSlots (q x : Nat) (km vm : BitVec 16) (h : y ∈ s.out) : y ∈ (s.markSlots q x km vm).out :=
  said_ite h (State.said_setKhdr _ _ _ h)

theorem State.said_handOffTo (seq : Word) (u : Nat) (pool : Fin 5) (page : Nat) (layer : BitVec 8) (index : Nat) (h : y ∈ s.out) :
    y ∈ (s.handOffTo seq u pool page layer index).out :=
  said_ite (State.said_dropSub _ _ _ h) (State.said_modSub _ _ _ (State.said_setKhdr _ _ _ h))

theorem State.said_modSeq (seq : Word) (f : ExpSeq → ExpSeq) (h : y ∈ s.out) : y ∈ (s.modSeq seq f).out := h

theorem State.said_handOff (seq : Word) (pool : Fin 5) (page : Nat) (layer : BitVec 8) (index : Nat) (h : y ∈ s.out) :
    y ∈ (s.handOff seq pool page layer index).out := by
  have hsent (k : KHdr) (f : ExpSeq → ExpSeq) : y ∈ ((s.modSeq seq f).setKhdr pool.val page k).out :=
    State.said_setKhdr _ _ _ (State.said_modSeq _ _ h)
  exact said_ite h (said_ite (State.said_dropSubs _ _ (hsent _ _)) (said_foldl (fun _ _ => State.said_handOffTo _ _ _ _ _ _) _ (hsent _ _)))

theorem State.said_handOffArmed (pool : Fin 5) (page : Nat) (h : y ∈ s.out) : y ∈ (s.handOffArmed pool page).out := by
  rw [State.handOffArmed]
  split
  · split
    · exact State.said_handOff _ _ _ _ _ h
    · exact h
  · exact h

theorem State.said_applyMarks (ms : List KvMark) (h : y ∈ s.out) : y ∈ (s.applyMarks ms).out :=
  said_foldl (fun _ _ hv => said_ite hv (said_ite (State.said_markSlots _ _ _ _ hv) (State.said_handOffArmed _ _ (State.said_markSlots _ _ _ _ hv)))) _ h

/-! ### Signals and flights (04 R112) -/

section
variable (c : Nat)

theorem State.said_modCore (f : Core → Core) (h : y ∈ s.out) : y ∈ (s.modCore c f).out := h

theorem State.said_signal (x : Fin 16) (n : Nat) (i : StopInfo) (h : y ∈ s.out) : y ∈ (s.signal l c x n i).1.out := by
  rw [State.signal]
  split
  · exact State.said_stop _ h
  · exact h

theorem State.said_signalOpt (x : Option (Fin 16)) (i : StopInfo) (h : y ∈ s.out) : y ∈ (s.signalOpt l c x i).1.out := by
  cases x with
  | none => exact h
  | some x => exact State.said_signal c x 1 i h

theorem State.said_completeFlight (f : Flight) (h : y ∈ s.out) : y ∈ (s.completeFlight l c f).1.out :=
  State.said_signalOpt c _ _ (State.said_applyMarks _ (State.said_modCore c _ h))

end

theorem State.said_completeWaits (h : y ∈ s.out) : y ∈ s.completeWaits.1.out := by
  rw [State.completeWaits]
  split
  · exact h
  · refine said_foldl_fst (fun v c hv => said_foldl_fst (fun w f hw => ?_) _ hv) _ h
    split
    · exact hw
    · exact State.said_completeFlight c f hw

/-! ### A boundary that passes (11 R327) -/

theorem State.OnlyShares.out (h : s.OnlyShares t) : t.out = s.out := by rw [h]

theorem State.said_applyCredits (h : y ∈ s.out) : y ∈ s.applyCredits.out := said_of_eq (State.OnlyShares.out s.applyCredits_onlyShares) h

theorem State.said_powerBoundary (held : Nat → Bool) (h : y ∈ s.out) : y ∈ (s.powerBoundary held).out :=
  said_of_eq (State.OnlyShares.out (s.powerBoundary_onlyShares held)) h

theorem State.said_passOne (a : Announced) (late : Bool) (h : y ∈ s.out) : y ∈ (s.passOne a late).1.out := by
  unfold State.passOne
  extract_lets sets lead stretch e f s1 s2 s3 s4 r s5
  have h2 : y ∈ s2.out := State.said_powerBoundary _ (State.said_applyCredits (s := s1) h)
  have h3 : y ∈ s3.out := State.said_tellWaits (State.said_mapCores _ (State.said_countBoundary (State.said_haltLosses _ h2)))
  have h4 : y ∈ s4.out := said_ite (State.said_mapChanged h3) h3
  have hr : y ∈ r.1.out := State.said_completeWaits h4
  exact said_ite (State.said_beginPortTest (State.said_swapOnce hr)) hr

theorem said_passDue (n : Nat) (now : Option Dword) {r : State × Bool} (h : y ∈ r.1.out) : y ∈ (passDue n now r).1.out := by
  induction n generalizing r with
  | zero => exact h
  | succ n ih =>
    simp only [passDue]
    split
    · split
      · exact ih (State.said_passOne _ _ h)
      · exact h
    · exact h

theorem State.said_latePasses (h : y ∈ s.out) : y ∈ s.latePasses.1.out := State.said_refreshHold (said_passDue _ none (r := (s, false)) h)

theorem State.said_goesOnOnce (h : y ∈ s.out) : y ∈ s.goesOnOnce.out :=
  State.said_startSave (State.said_testMoments (State.said_commitIfDone (State.said_latePasses h)))

end Sys2Proof.Machine
end

section
/-!
PROOFS that programs, lookups of shared pages, exports, test requests and collectives take no output back (13 R381-R388, 10 R285-R310, 12 R341-R360).
-/

namespace Sys2Proof.Machine

variable {s t : State} {y : Out} {l : Launch}

/-! ### Programs and schedules (13 R381) -/

theorem State.said_placeSched {x : Sched} (ht : s.placeSched x = .ok t) (h : y ∈ s.out) : y ∈ t.out := by
  unfold State.placeSched at ht
  extract_lets same put at ht
  have hput (as : List Sched) (hp : put as = t) : y ∈ t.out := hp ▸ h
  split at ht
  · split at ht
    · exact nomatch ht
    · exact hput _ (Except.ok.inj ht)
  · split at ht
    · exact hput _ (Except.ok.inj ht)
    · split at ht
      · exact nomatch ht
      · exact hput _ (Except.ok.inj ht)

theorem State.said_loadProgram (ctx : BitVec 8) (priv : Bool) (b : List Word) (sig : SigVerdict) (h : y ∈ s.out) :
    y ∈ (s.loadProgram ctx priv b sig).1.out := by
  dsimp only [State.loadProgram]
  refine said_ite_fst h (said_ite_fst h (said_ite_fst h ?_))
  split
  · exact h
  · split
    · split <;> exact h
    · split
      · exact h
      · split
        · exact h
        · split
          · exact h
          · next hx => exact State.said_placeSched hx h
    · split
      · exact h
      · split <;> exact h

/-! ### The table of shared pages and its lookup (10 R300-R310) -/

theorem State.said_ownRead (pa n : Nat) (h : y ∈ s.out) : y ∈ (s.ownRead pa n).out := said_of_eq (s.ownRead_onlyPools pa n).out h

theorem State.said_pfxSee (u : KvUse) (hash : BitVec 96) (va : Nat) (h : y ∈ s.out) : y ∈ (s.pfxSee u hash va).out := by
  dsimp only [State.pfxSee]
  split
  · exact State.said_ownRead _ _ (State.said_pfxRead _ _ _ h)
  · exact State.said_pfxRead _ _ _ h

theorem said_pfxMatch (u : KvUse) (r : PfxReq) (i : Nat) (ks : List (BitVec 96 × List Nat)) (h : y ∈ s.out) : y ∈ (pfxMatch u r i ks s).1.out := by
  induction ks generalizing i s with
  | nil => exact h
  | cons k ks ih =>
    unfold pfxMatch
    extract_lets hits s1 bad x s2 v
    have h1 : y ∈ s1.out := said_foldl (fun _ _ => State.said_pfxSee _ _ _) _ h
    exact said_ite_fst (ih (s := s2) _ h1) h1

theorem State.said_setPfx (j : Nat) (e : PfxEntry) (h : y ∈ s.out) : y ∈ (s.setPfx j e).out := State.said_ownWrite _ _ h

theorem State.said_pfxMap (ctx : BitVec 8) (u : KvUse) (e : Nat × Nat × Nat) (h : y ∈ s.out) : y ∈ (s.pfxMap ctx u e).out := by
  unfold State.pfxMap
  split
  · exact h
  · exact State.said_setPfx _ _ (State.said_mapPage _ _ _ _ (State.said_setKhdr _ _ _ h))

theorem State.said_modPool (q : Nat) (f : Pool → Pool) (h : y ∈ s.out) : y ∈ (s.modPool q f).out := h

theorem State.said_popPage {q x : Nat} (ht : s.popPage q = some (x, t)) (h : y ∈ s.out) : y ∈ t.out := by
  simp only [State.popPage] at ht
  split at ht
  · exact nomatch ht
  · cases ht
    exact State.said_modPool _ _ (State.said_ownRead _ _ h)

theorem said_pfxPages {u : KvUse} {vas : List Nat} {ps : List (Nat × Nat)} (ht : pfxPages u vas s = some (ps, t)) (h : y ∈ s.out) : y ∈ t.out := by
  induction vas generalizing s ps with
  | nil =>
    cases ht
    exact h
  | cons va vas ih =>
    rw [pfxPages] at ht
    split at ht
    · exact nomatch ht
    · next hpop =>
      obtain ⟨r, hr, hrt⟩ := Option.map_eq_some_iff.1 ht
      cases hrt
      exact ih hr (State.said_popPage hpop h)

theorem State.said_newKhdr (q x : Nat) (k : KHdr) (h : y ∈ s.out) : y ∈ (s.newKhdr q x k).out := State.said_ownWrite _ _ h

theorem said_pfxPrepare (ctx : BitVec 8) (u : KvUse) (r : PfxReq) (i : Nat) (ks : List (BitVec 96 × List Nat)) (h : y ∈ s.out) :
    y ∈ (pfxPrepare ctx u r i ks s).1.out := by
  induction ks generalizing i s with
  | nil => exact h
  | cons k ks ih =>
    rw [pfxPrepare]
    split
    · exact h
    · next hpages =>
      refine ih _ (said_foldl (fun _ _ hv => ?_) _ (said_pfxPages hpages h))
      split
      · exact hv
      · exact State.said_mapPage _ _ _ _ (State.said_newKhdr _ _ _ hv)

theorem State.said_pfxMapped (ctx : BitVec 8) (u : KvUse) (ps : List (List (Nat × Nat × Nat))) (h : y ∈ s.out) :
    y ∈ (ps.foldl (fun s ps => ps.foldl (fun s e => s.pfxMap ctx u e) s) s).out :=
  said_foldl (fun _ _ => said_foldl (fun _ _ => State.said_pfxMap _ _ _) _) _ h

theorem State.said_prefixLookup {qid : BitVec 12} {ctx : BitVec 8} {va m n : Nat} (ht : s.prefixLookup qid ctx va = .ok (t, m, n)) (h : y ∈ s.out) :
    y ∈ t.out := by
  dsimp only [State.prefixLookup] at ht
  split at ht
  · exact nomatch ht
  · split at ht
    · exact nomatch ht
    · split at ht
      · exact nomatch ht
      · split at ht
        · exact nomatch ht
        · split at ht
          · exact nomatch ht
          · split at ht
            · exact nomatch ht
            · split at ht
              · exact nomatch ht
              · split at ht
                · exact nomatch ht
                · cases ht
                  refine said_ite ?_ ?_
                  · exact said_pfxPrepare _ _ _ _ _ (State.said_pfxMapped _ _ _ (said_pfxMatch _ _ _ _ h))
                  · dsimp only
                    exact said_pfxPrepare _ _ _ _ _ (State.said_pfxMapped _ _ _ (said_pfxMatch _ _ _ _ h))

/-! ### Exports, test requests, digests, queues (13 R385-R388, R394, 15 R447) -/

theorem State.said_exportOpen (qid : BitVec 12) (b : List Word) (h : y ∈ s.out) : y ∈ (s.exportOpen qid b).1.out := by
  unfold State.exportOpen
  exact said_ite_fst h (State.said_modSub _ _ _ h)

theorem State.said_exportClose (qid : BitVec 12) (seq : Word) (h : y ∈ s.out) : y ∈ (s.exportClose qid seq).1.out :=
  said_ite_fst h (State.said_modSeq _ _ h)

theorem State.said_requestTest (qid : BitVec 12) (rejoin : Bool) (b : List Word) (h : y ∈ s.out) : y ∈ (s.requestTest qid rejoin b).1.out := by
  dsimp only [State.requestTest]
  refine said_ite_fst h (said_ite_fst h ?_)
  split <;> exact h

theorem State.said_requestPorts (qid : BitVec 12) (b : List Word) (h : y ∈ s.out) : y ∈ (s.requestPorts qid b).1.out :=
  said_ite_fst h (said_ite_fst h (said_ite_fst h h))

theorem State.said_digest (q : Queue) (b : List Word) (slip : Option (BitVec 128)) (h : y ∈ s.out) : y ∈ (s.digest q b slip).1.out := by
  dsimp only [State.digest]
  refine said_ite_fst h ?_
  split
  · split <;> exact h
  · split
    · split
      · dsimp only
        exact State.said_logDrain _ _ h
      · dsimp only
        exact State.said_log _ h
    · exact h

theorem State.said_useEntry (q : BitVec 12) (h : y ∈ s.out) : y ∈ (s.useEntry q).out := said_of_eq (s.out_useEntry q) h

theorem State.said_ctlSet (issuer : Queue) (q : BitVec 12) (reset : Bool) (va : Nat) (h : y ∈ s.out) : y ∈ (s.ctlSet issuer q reset va).1.out := by
  unfold State.ctlSet
  split
  · exact h
  · exact said_ite_fst h (said_ite_fst h (State.said_modQueue _ _ (State.said_useEntry _ h)))

/-! ### Collectives (12 R350-R360) -/

theorem State.said_dropColl (c : Coll) (h : y ∈ s.out) : y ∈ (s.dropColl c).out := h

theorem State.said_putColl (c : Coll) (h : y ∈ s.out) : y ∈ (s.putColl c).out := h

theorem State.said_collDone (c : Coll) (h : y ∈ s.out) : y ∈ (s.collDone l c).1.out := by
  unfold State.collDone
  split
  · exact State.said_completeFlight _ _ h
  · exact h

theorem State.said_recordFailure (c : Coll) (code : Code) (culprit : BitVec 12) (h : y ∈ s.out) : y ∈ (s.recordFailure c code culprit).out := h

theorem State.said_failColl (c : Coll) (code : Code) (culprit : BitVec 12) (h : y ∈ s.out) : y ∈ (s.failColl l c code culprit).1.out := by
  unfold State.failColl
  extract_lets v i w
  have hw : y ∈ w.out := State.said_recordFailure c _ _ (State.said_dropColl c h)
  exact said_ite_fst (State.said_stop (s := v) _ h) (said_ite_fst (said_ite_fst hw (State.said_collDone c hw)) (State.said_stop (s := w) _ hw))

theorem State.said_setRecord (c : Coll) (n : Nat) (valid : Bool) (h : y ∈ s.out) : y ∈ (s.setRecord c n valid).out :=
  said_ite h (State.said_modCore _ _ h)

theorem State.said_finishColl (c : Coll) (h : y ∈ s.out) : y ∈ (s.finishColl l c).1.out := by
  unfold State.finishColl
  extract_lets v x w
  have hv : y ∈ v.out := State.said_dropColl c (State.said_setRecord c _ _ h)
  exact said_ite_fst (r := (w, false)) hv (State.said_collDone (s := w) c hv)

theorem State.said_judge (c : Coll) (h : y ∈ s.out) : y ∈ (s.judge l c).1.out := by
  dsimp only [State.judge]
  split
  · exact State.said_failColl _ _ _ h
  · split
    · exact h
    · refine said_ite_fst h ?_
      split
      · exact h
      · split
        · exact State.said_failColl _ _ _ h
        · have hput (d : Coll) : y ∈ ((s.putColl d).setRecord d 2 false).out := State.said_setRecord _ _ _ (State.said_putColl _ h)
          exact said_ite_fst h (said_ite_fst (State.said_finishColl _ (hput _)) (hput _))

theorem State.said_event1 (k : BitVec 4) (u : Nat) (w : HKind) (h : y ∈ s.out) : y ∈ (s.event1 k u w).out := h

theorem State.said_notePermanent (k : BitVec 4) (u : Nat) (h : y ∈ s.out) : y ∈ (s.notePermanent k u).out := by
  unfold State.notePermanent
  split
  · split <;> exact h
  · exact State.said_event1 _ _ _ h

theorem State.said_noteEvent (k : BitVec 4) (u : Nat) (h : y ∈ s.out) : y ∈ (s.noteEvent k u).1.out :=
  said_ite_fst h (State.said_event1 _ _ _ h)

theorem State.said_countReplay (h : y ∈ s.out) : y ∈ s.countReplay.out := h

theorem State.said_engineDetect (p : Fin 6) (c : Coll) (det : List Bool) (h : y ∈ s.out) : y ∈ (s.engineDetect p c det).1.out := by
  unfold State.engineDetect
  split
  · exact h
  · extract_lets code kind unit failed base n s1 e s2 s3 s4
    have hn : y ∈ n.1.out := said_ite_fst (State.said_notePermanent _ _ h) (State.said_noteEvent _ _ h)
    have h1 : y ∈ s1.out := State.said_countReplay hn
    have h2 : y ∈ s2.out := by
      simp only [s2]
      split <;> exact h1
    have h3 : y ∈ s3.out := State.said_log (s := s2) _ h2
    refine said_ite_fst h3 (said_ite_fst ?_ ?_)
    · dsimp only
      exact State.said_logDrain _ _ h3
    · dsimp only
      exact State.said_log _ h3

theorem State.said_bumpEpoch (q : BitVec 12) (h : y ∈ s.out) : y ∈ (s.bumpEpoch q).out := h

theorem State.said_haltOn (e : XFail) (at? : Option (Nat × BitVec 20)) (source : BitVec 3) (line : Nat) (h : y ∈ s.out) :
    y ∈ (s.haltOn l e at? source line).out := by
  unfold State.haltOn
  extract_lets r s1 x s2 v
  have h1 : y ∈ s1.out := said_ite h (State.said_countReplay (State.said_log _ h))
  have hv : y ∈ v.out := by
    refine said_ite (State.said_log _ (State.said_bumpEpoch (s := s2) _ h1)) (said_ite ?_ h)
    · split
      · exact State.said_modPool _ _ h
      · exact h
  exact said_ite hv (State.said_halt _ _ hv)

theorem State.said_haltColl (c : Coll) (e : XFail) (h : y ∈ s.out) : y ∈ (s.haltColl l c e).out :=
  State.said_haltOn _ _ _ _ (State.said_modCore _ _ (State.said_putColl _ h))

theorem said_pwriteAll (va : Nat) (ps : List (Nat × Nat)) (bs : List Byte) (bad : Option XFail) (h : y ∈ s.out) :
    y ∈ (pwriteAll s va ps bs bad).1.out := by
  induction ps generalizing s va bs bad with
  | nil => exact h
  | cons p ps ih => exact ih _ _ _ h

theorem State.said_vwriteNow (phys : Option Nat) (ctx : BitVec 8) (va : Nat) (bs : List Byte) (h : y ∈ s.out) :
    y ∈ (s.vwriteNow phys ctx va bs).1.out := by
  unfold State.vwriteNow
  split
  · exact h
  · exact said_pwriteAll _ _ _ _ h

section
variable {x : CSt}

theorem CSt.said_write (ctx : BitVec 8) (ch : Nat) (bs : List Byte) (f : Flags) (h : y ∈ x.s.out) : y ∈ (x.write ctx ch bs f).s.out := by
  have hw := State.said_vwriteNow none ctx (x.c.desc.dst + ch * x.c.desc.perChunk * fmtBytes x.c.desc.fmt) bs h
  unfold CSt.write
  extract_lets d a c
  split
  · split
    · next heq => rw [heq] at hw; exact hw
    · next heq => rw [heq] at hw; exact hw
  · exact State.said_modCore _ _ h

theorem CSt.said_result (ctx : BitVec 8) (ch : Nat) (bs : List Byte) (h : y ∈ x.s.out) : y ∈ (x.result ctx ch bs).s.out := by
  unfold CSt.result
  extract_lets d ws rs
  split
  · exact CSt.said_write _ _ _ _ h
  · exact CSt.said_write _ _ _ _ h

theorem CSt.said_send (p : Sched) (g : Geo) (a : Axis) (plus result : Bool) (ch : Nat) (bs : List Byte) (h : y ∈ x.s.out) :
    y ∈ (x.send p g a plus result ch bs).s.out := State.said_sendFlit _ _ _ _ _ _ _ (said_ite (State.said_emit _ h) h)

theorem CSt.said_reduceGo (ctx : BitVec 8) (p : Sched) (g : Geo) (ch n : Nat) (a : Axis) (acc : Option (List Byte)) (v : List Byte) (h : y ∈ x.s.out) :
    y ∈ (x.reduceGo ctx p g ch n a acc v).s.out := by
  induction n generalizing x a acc v with
  | zero => exact h
  | succ n ih =>
    unfold CSt.reduceGo
    extract_lets d done last out meet
    have hdone (z : CSt) (r : List Byte) (hz : y ∈ z.s.out) : y ∈ (done z r).s.out := by
      simp only [done]
      split
      · exact CSt.said_result _ _ _ hz
      · exact ih _ _ _ hz
    have hout (z : CSt) (r : List Byte) (hz : y ∈ z.s.out) : y ∈ (out z r).s.out := by
      simp only [out]
      split
      · split
        · exact hdone z r hz
        · exact CSt.said_send _ _ _ _ _ _ _ hz
      · exact CSt.said_send _ _ _ _ _ _ _ hz
    split
    · exact hout _ _ h
    · split
      · exact hout _ _ h
      · split
        · exact hout _ _ h
        · exact h

theorem CSt.said_foldl {α : Type} {f : CSt → α → CSt} (hf : ∀ v a, y ∈ v.s.out → y ∈ (f v a).s.out) (as : List α) (h : y ∈ x.s.out) :
    y ∈ (as.foldl f x).s.out :=
  List.foldlRecOn (motive := fun v : CSt => y ∈ v.s.out) as f h fun v hv a _ => hf v a hv

theorem CSt.said_start (ctx : BitVec 8) (p : Sched) (g : Geo) (h : y ∈ x.s.out) : y ∈ (CSt.start ctx p g x).s.out := by
  unfold CSt.start
  extract_lets ch
  split
  · exact h
  · next v _ =>
    extract_lets z
    have hz : y ∈ z.s.out := by
      simp only [z]
      split
      · exact CSt.said_reduceGo _ _ _ _ _ _ _ _ h
      · exact CSt.said_foldl (fun _ _ => CSt.said_send _ _ _ _ _ _ _) _ h
    split
    · exact h
    · exact hz

theorem State.said_collWork (keep : Coll) (h : y ∈ x.s.out) : y ∈ (State.collWork l x keep).1.out := by
  unfold State.collWork
  split
  · exact State.said_putColl _ h
  · exact State.said_haltColl _ _ h

end

theorem State.said_startChunk (x : Sched) (c : Coll) (det : List Bool) (h : y ∈ s.out) : y ∈ (s.startChunk l x c det).1.out := by
  unfold State.startChunk
  extract_lets g e
  have he : y ∈ e.1.out := State.said_engineDetect _ _ _ h
  exact said_ite_fst he (State.said_collWork _ (CSt.said_start _ _ _ he))

theorem said_pumpGo (n : Nat) (last : BitVec 12) (det : List Bool) (h : y ∈ s.out) : y ∈ (pumpGo n last det s).1.out := by
  induction n generalizing s last det with
  | zero => exact h
  | succ n ih =>
    rw [pumpGo]
    split
    · exact h
    · split
      · exact h
      · split
        · exact h
        · exact ih _ _ (State.said_startChunk _ _ _ h)

theorem State.said_decideAll (det : List Bool) (h : y ∈ s.out) : y ∈ (s.decideAll det).1.out := by
  unfold State.decideAll
  extract_lets r q
  refine said_pumpGo _ _ _ (said_foldl_fst (fun v c hv => ?_) _ h)
  split
  · exact said_ite_fst (State.said_judge _ hv) hv
  · exact hv

theorem State.said_joinCount (x : Sched) (c : Coll) (own : CEntry) (h : y ∈ s.out) : y ∈ (s.joinCount x c own).out :=
  State.said_sendControl (s := { s with col := _ }) _ _ _ _ _ _ h

theorem State.said_joinBarrier (h : y ∈ s.out) : y ∈ (s.joinBarrier l).1.out := by
  unfold State.joinBarrier
  split
  · exact h
  · exact State.said_decideAll _ (State.said_joinCount _ _ _ (State.said_modLaunch _ _ h))

end Sys2Proof.Machine
end

section
/-!
PROOFS that the units' instructions take no output back: conversion, MMA, ATTN, EPI, VEC, SARM, SEXP and COLL (05 R130-R190, 06, 07, 09).
-/

namespace Sys2Proof.Machine

variable {s t : State} {y : Out} {l : Launch} {w : Work}

/-! ### Pages that an append takes (10 R285) -/

theorem State.said_pfxRemove (hash : BitVec 96) (layer pool : Nat) (h : y ∈ s.out) : y ∈ (s.pfxRemove hash layer pool).out := by
  unfold State.pfxRemove
  split
  · exact State.said_setPfx _ _ (State.said_pfxRead _ _ _ h)
  · exact State.said_pfxRead _ _ _ h

theorem State.said_reclRead (q i : Nat) (h : y ∈ s.out) : y ∈ (s.reclRead q i).out := State.said_ownRead _ _ (State.said_ownRead _ _ h)

theorem said_reclTake {n q x : Nat} (ht : reclTake n s q = some (x, t)) (h : y ∈ s.out) : y ∈ t.out := by
  induction n generalizing s with
  | zero => exact nomatch ht
  | succ n ih =>
    unfold reclTake at ht
    extract_lets p e s1 k s2 at ht
    have h1 : y ∈ s1.out := State.said_modPool _ _ (State.said_reclRead _ _ h)
    have h2 : y ∈ s2.out := State.said_newKhdr _ _ _ (State.said_pfxRemove _ _ _ h1)
    clear_value s1 s2
    split at ht
    · exact nomatch ht
    · split at ht
      · have ht2 : s2.modPool q _ = t := congrArg (·.2) (Option.some.inj ht)
        rw [← ht2]
        exact State.said_modPool _ _ h2
      · exact ih ht h1

theorem State.said_takePage {q x : Nat} (ht : s.takePage q = some (x, t)) (h : y ∈ s.out) : y ∈ t.out := by
  rw [State.takePage] at ht
  split at ht
  · next hpop =>
    cases ht
    exact State.said_popPage hpop h
  · exact said_reclTake ht h

theorem State.said_allocPage {r : Region} {va entry fmt x : Nat} (ht : s.allocPage r va entry fmt = some (t, x)) (h : y ∈ s.out) : y ∈ t.out := by
  dsimp only [State.allocPage] at ht
  split at ht
  · exact nomatch ht
  · next htake =>
    cases ht
    exact State.said_mapPage _ _ _ _ (State.said_newKhdr _ _ _ (State.said_takePage htake h))

theorem State.said_appendPage {phys : Option Nat} {ctx : BitVec 8} {r : Region} {va fmt x : Nat}
    (ht : s.appendPage phys ctx r va fmt = .ok (t, x)) (h : y ∈ s.out) : y ∈ t.out := by
  unfold State.appendPage at ht
  split at ht
  · split at ht
    · cases ht
      exact h
    · exact nomatch ht
  · split at ht
    · split at ht
      · split at ht
        · next halloc =>
          cases ht
          exact State.said_allocPage halloc h
        · exact nomatch ht
      · exact nomatch ht
    · exact nomatch ht

theorem State.said_pwrite (pa : Nat) (bs : List Byte) (h : y ∈ s.out) : y ∈ (s.pwrite pa bs).1.out := h

theorem State.said_kvPut (phys : Option Nat) (ctx : BitVec 8) (u : KvUse) (base tok part f fmt : Nat) (bits : Word) (h : y ∈ s.out) :
    y ∈ (s.kvPut phys ctx u base tok part f fmt bits).1.out := by
  dsimp only [State.kvPut]
  split
  · exact h
  · next hpage =>
    split
    · exact State.said_appendPage hpage h
    · exact State.said_pwrite _ _ (State.said_appendPage hpage h)

theorem State.said_armPage (pool : Fin 5) (page : Nat) (seq : Word) (index : Nat) (h : y ∈ s.out) : y ∈ (s.armPage pool page seq index).out :=
  State.said_setKhdr _ _ _ h

/-! ### The output chain (05 R150-R166) -/

theorem Work.said_foldl {α : Type} {f : Work → α → Work} (hf : ∀ v a, y ∈ v.s.out → y ∈ (f v a).s.out) (as : List α) (h : y ∈ w.s.out) :
    y ∈ (as.foldl f w).s.out :=
  List.foldlRecOn (motive := fun v : Work => y ∈ v.s.out) as f h fun v hv a _ => hf v a hv

section
variable (v : Conv) (b : CBlock)

theorem Conv.said_append (m n : Nat) (bits : Word) (h : y ∈ w.s.out) : y ∈ (v.append w m n bits).s.out := by
  dsimp only [Conv.append]
  split
  · exact h
  · split
    · exact State.said_kvPut _ _ _ _ _ _ _ _ _ h
    · split
      · exact State.said_armPage _ _ _ _ (State.said_kvPut _ _ _ _ _ _ _ _ _ h)
      · exact State.said_kvPut _ _ _ _ _ _ _ _ _ h

theorem State.said_vwrite (phys : Option Nat) (ctx : BitVec 8) (va : Nat) (bs : List Byte) (h : y ∈ s.out) : y ∈ (s.vwrite phys ctx va bs).1.out := by
  unfold State.vwrite
  split
  · exact h
  · exact said_pwriteAll _ _ _ _ h

theorem Conv.said_put (a : Int) (bs : List Byte) (h : y ∈ s.out) : y ∈ (v.put s a bs).1.out :=
  said_ite_fst (State.said_modCore _ _ h) (said_ite_fst (State.said_vwrite _ _ _ _ h) h)

theorem Conv.said_store (m n : Nat) (bits : Word) (h : y ∈ w.s.out) : y ∈ (v.store b w m n bits).s.out := by
  dsimp only [Conv.store]
  split
  · exact h
  · split
    · exact Conv.said_append v _ _ _ h
    · exact Conv.said_put v _ _ (Conv.said_append v _ _ _ h)

theorem Conv.said_write (x : ConvWrite) (h : y ∈ w.s.out) : y ∈ (v.write b w x).s.out := by
  cases x with
  | element m n bits => exact Conv.said_store v b m n bits h
  | scale a bits =>
    dsimp only [Conv.write]
    split
    · exact h
    · exact Conv.said_put v _ _ h

theorem Conv.said_reserve (r : Nat) (h : y ∈ w.s.out) : y ∈ (v.reserve b w r).s.out := by
  dsimp only [Conv.reserve]
  split
  · exact h
  · refine Work.said_foldl (fun x i hx => ?_) _ h
    split
    · exact hx
    · split
      · exact hx
      · next hpage => exact State.said_appendPage hpage hx

theorem State.said_setCore (c : Nat) (k : Core) (h : y ∈ s.out) : y ∈ (s.setCore c k).out := h

theorem Conv.said_draw (lane : Nat) (h : y ∈ w.s.out) : y ∈ (v.draw w lane).2.s.out := by
  dsimp only [Conv.draw]
  split
  · exact State.said_setCore _ _ h
  · exact h

theorem Conv.said_writeUnit (ws : List ConvWrite) (h : y ∈ w.s.out) : y ∈ (v.writeUnit b w ws).s.out :=
  Work.said_foldl (fun _ _ => Conv.said_write v b _) _ h

theorem Conv.said_element (skip r c : Nat) (h : y ∈ w.s.out) : y ∈ (v.element b skip w r c).s.out := by
  have hd := Conv.said_draw v (c % 128) h
  dsimp only [Conv.element]
  split
  · exact h
  · split
    · exact hd
    · split
      · exact hd
      · split
        · exact hd
        · exact Conv.said_writeUnit v b _ hd

theorem Conv.said_group (skip r : Nat) (els : List (Nat × Rnd)) (h : y ∈ w.s.out) : y ∈ (v.group b skip w r els).s.out := by
  unfold Conv.group
  split
  · exact h
  · exact h
  · split
    · exact h
    · extract_lets m j ns
      split
      · exact h
      · split
        · exact h
        · extract_lets sc noNan w1 w2 qs w3
          have h1 : y ∈ w1.s.out := by
            refine Work.said_foldl (fun _ _ hx => ?_) _ h
            exact hx
          have h2 : y ∈ w2.s.out := by
            simp only [w2]
            split <;> exact h1
          exact Conv.said_writeUnit v b _ h2

theorem Conv.said_row (skip r : Nat) (h : y ∈ w.s.out) : y ∈ (v.row b skip w r).s.out := by
  unfold Conv.row
  extract_lets w1 d key
  have h1 : y ∈ w1.s.out := by
    simp only [w1]
    split
    · exact Conv.said_reserve v b _ h
    · exact h
  split
  · exact Work.said_foldl (fun _ _ => Conv.said_element v b _ _ _) _ h1
  · split
    · exact h1
    · have hd : y ∈ d.2.s.out :=
        List.foldlRecOn (motive := fun a : List (Nat × Rnd) × Work => y ∈ a.2.s.out) _ _ h1 fun a ha i _ => Conv.said_draw v _ ha
      exact Work.said_foldl (fun _ _ => Conv.said_group v b _ _ _) _ hd

theorem State.said_countOn (c : Nat) (f : PCore → PCore) (h : y ∈ s.out) : y ∈ (s.countOn c f).out := by
  unfold State.countOn
  split <;> exact h

theorem State.said_vecGroups (c n : Nat) (h : y ∈ s.out) : y ∈ (s.vecGroups c n).out := State.said_countOn _ _ h

theorem Conv.said_block (skip : Nat) (h : y ∈ w.s.out) : y ∈ (v.block b skip w).s.out := by
  unfold Conv.block
  extract_lets sr w1 w2
  have h1 : y ∈ w1.s.out := Work.said_foldl (fun _ _ => Conv.said_write v b _) _ (said_ite (State.said_vecGroups _ _ h) h)
  have h2 : y ∈ w2.s.out := Work.said_foldl (fun _ _ => Conv.said_row v b skip _) _ h1
  split
  · exact h1
  · split
    · exact State.said_modCore _ _ h2
    · exact h2

end

/-! ### MMA, ATTN and EPI -/

theorem State.said_shadowTile (c : Nat) (pc : BitVec 20) (n : Nat) (vs : List Word) (h : y ∈ s.out) : y ∈ (s.shadowTile l c pc n vs).out := by
  unfold State.shadowTile
  extract_lets i e
  split <;> exact h

theorem Mma.said_shadows (x : Mma) (c : Nat) (pc : BitVec 20) (i : Nat) (b : VBlock) (h : y ∈ s.out) : y ∈ (x.shadows l c pc i b s).out :=
  said_foldl (fun _ _ hv => said_ite hv (State.said_shadowTile _ _ _ _ hv)) _ h

theorem Mma.said_accumulate (x : Mma) (c : Nat) (mode : BitVec 2) (i : StopInfo) (place : Nat × Nat × Nat × Nat) (b : VBlock) (h : y ∈ w.s.out) :
    y ∈ (x.accumulate c mode i place b w).s.out := h

theorem Mma.said_run (x : Mma) (v : Conv) (resumed : Bool) (skip : Nat) (bs : List (VBlock × Nat)) (h : y ∈ w.s.out) :
    y ∈ (x.run l v resumed skip bs w).1.s.out := by
  induction bs generalizing w resumed skip with
  | nil => exact h
  | cons b bs ih =>
    unfold Mma.run
    extract_lets place wa cy s1 w1 w2
    have h1 : y ∈ w1.s.out := by
      simp only [w1]
      split
      · exact h
      · exact State.said_countOn _ _ (State.said_vecGroups _ _ (Mma.said_shadows x _ _ _ _ (Mma.said_accumulate x _ _ _ _ _ h)))
    have h2 : y ∈ w2.s.out := by
      simp only [w2]
      split
      · exact h1
      · exact Conv.said_block v _ _ h1
    split
    · exact h2
    · exact ih _ _ h2

theorem Work.said_began (place : Nat) (h : y ∈ w.s.out) : y ∈ (w.began place).s.out := by
  unfold Work.began
  split <;> exact h

section
variable (line : BitVec 10) (prob : Word) (m n k : Option Word) (p : Resume) (c : Nat) (ins : Issued)

theorem said_runMma (h : y ∈ s.out) : y ∈ (runMma line prob m n k p s l c ins).s.out := by
  unfold runMma
  extract_lets info v
  have hv : y ∈ v.out := said_ite h (State.said_modCore _ _ h)
  clear_value v
  split
  · exact hv
  · split
    · exact hv
    · dsimp only
      split
      · exact hv
      · split
        · exact hv
        · exact Work.said_began _ (Mma.said_run _ _ _ _ _ (said_ite hv (State.said_modCore _ _ hv)))

theorem Attn.said_appendToken (x : Attn) (phys : Option Nat) (ctx : BitVec 8) (u : KvUse) (i : Nat) (h : y ∈ w.s.out) :
    y ∈ (x.appendToken c phys ctx u w i).s.out := by
  unfold Attn.appendToken
  split
  · exact h
  · extract_lets tok wb core part w2
    have hpart (z : Work) (a b : Nat) (hz : y ∈ z.s.out) : y ∈ (part z a b).s.out := by
      refine Work.said_foldl (fun z e hz => ?_) _ hz
      split
      · exact hz
      · dsimp only
        split
        · exact State.said_kvPut _ _ _ _ _ _ _ _ _ hz
        · exact State.said_kvPut _ _ _ _ _ _ _ _ _ hz
    have h2 : y ∈ w2.s.out := hpart _ _ _ (hpart _ _ _ h)
    split <;> exact h2

theorem State.said_countBlock (visited : Bool) (rows : Nat) (h : y ∈ s.out) : y ∈ (s.countBlock c visited rows).out := State.said_countOn _ _ h

theorem Attn.said_block (x : Attn) (phys : Option Nat) (i : StopInfo) (j : Nat) {a : AttnWork} (h : y ∈ a.w.s.out) :
    y ∈ (x.block c phys l i a j).w.s.out := by
  dsimp only [Attn.block]
  split
  · exact h
  · split
    · exact State.said_countBlock _ _ _ h
    · split
      · exact h
      · exact h
      · exact h
      · exact State.said_countBlock _ _ _ (State.said_setCore _ _ h)

theorem AttnWork.said_foldl {α : Type} {f : AttnWork → α → AttnWork} (hf : ∀ v a, y ∈ v.w.s.out → y ∈ (f v a).w.s.out) (as : List α)
    {a : AttnWork}
    (h : y ∈ a.w.s.out) : y ∈ (as.foldl f a).w.s.out :=
  List.foldlRecOn (motive := fun v : AttnWork => y ∈ v.w.s.out) as f h fun v hv a _ => hf v a hv

theorem said_runAttn (h : y ∈ s.out) : y ∈ (runAttn line prob m n k p s l c ins).s.out := by
  unfold runAttn
  extract_lets info v phys phase skip wp w0 from?
  have hv : y ∈ v.out := said_ite h (State.said_modCore _ _ h)
  clear_value v
  split
  · exact hv
  · split
    · exact hv
    · split
      · exact hv
      · extract_lets w1 s1 w1' todo a
        split
        · exact hv
        · have h1 : y ∈ w1.s.out := by
            simp only [w1]
            split
            · split
              · exact Work.said_foldl (fun _ _ => Attn.said_appendToken c _ _ _ _ _) _ hv
              · exact hv
            · exact hv
          have hs1 : y ∈ s1.out := said_ite (State.said_modCore _ _ (State.said_applyMarks _ h1)) h1
          have ha : y ∈ a.w.s.out := AttnWork.said_foldl (fun _ _ => Attn.said_block c _ _ _ _) _ hs1
          clear_value a
          split
          · exact Work.said_began _ h1
          · split
            · exact ha
            · exact ha
            · split
              · split
                · exact Work.said_began _ ha
                · exact Work.said_began _ ha
              · exact Work.said_began _ (Conv.said_block _ _ _ (said_ite ha (said_foldl (fun _ _ => State.said_shadowTile _ _ _ _) _ ha)))

theorem said_runEpi (off : Word) (a b : BitVec 3) (h : y ∈ s.out) : y ∈ (runEpi line off a b p s l c ins).s.out := by
  dsimp only [runEpi]
  split
  · exact h
  · split
    · exact h
    · split
      · exact h
      · exact Work.said_began _ (Conv.said_block _ _ _ h)

end

end Sys2Proof.Machine
end

section
/-!
PROOFS that an instruction that begins, a launch that goes on and a message that is carried out take no output back (04 R112, R133, 08 R240, 13 R386-R388).
-/

namespace Sys2Proof.Machine

variable {s t : State} {y : Out} {l : Launch}

/-! ### VEC, SARM, SEXP, COLL and the SYN instructions -/

section
variable (c : Nat) (ins : Issued)

theorem said_vecDone (k : Core) (f : Flags) (trap : Option StopInfo) (h : y ∈ s.out) : y ∈ (vecDone s c k f trap).s.out :=
  State.said_vecGroups _ _ (State.said_setCore _ _ h)

theorem said_ite_began {p : Prop} [Decidable p] {a b : Began} (ha : y ∈ a.s.out) (hb : y ∈ b.s.out) : y ∈ (if p then a else b).s.out := by
  split
  · exact ha
  · exact hb

theorem said_runVprog (td ta tb : BitVec 6) (tp : Option (BitVec 6)) (line : BitVec 10) (h : y ∈ s.out) :
    y ∈ (runVprog td ta tb tp line s l c ins).s.out := by
  unfold runVprog
  refine said_ite_began h ?_
  split
  · exact h
  · exact said_ite_began h (said_vecDone c _ _ _ h)

theorem said_runVred (td ta : BitVec 6) (rop : RedOp) (axis : Bool) (h : y ∈ s.out) : y ∈ (runVred td ta rop axis s l c ins).s.out :=
  said_vecDone c _ _ _ h

theorem said_runVld (tv : BitVec 6) (fmt : BitVec 4) (uns : Bool) (off : Nat) (h : y ∈ s.out) : y ∈ (runVld tv fmt uns off s l c ins).s.out :=
  said_ite_began h (said_ite_began h (said_ite_began h (said_vecDone c _ _ _ h)))

theorem said_runVst (tv : BitVec 6) (fmt : BitVec 4) (uns : Bool) (off : Nat) (h : y ∈ s.out) : y ∈ (runVst tv fmt uns off s l c ins).s.out :=
  said_ite_began h (said_ite_began h (said_ite_began h (said_ite_began h (said_vecDone c _ _ _ h))))

theorem said_runVcvt (ta : BitVec 6) (cvt : Word) (off : Nat) (h : y ∈ s.out) : y ∈ (runVcvt ta cvt off s l c ins).s.out := by
  unfold runVcvt
  split
  · exact h
  · exact said_ite_began h (said_ite_began h (said_vecDone c _ _ _ h))

theorem said_runVaccw (tv : BitVec 6) (tile : BitVec 3) (rblk cblk : BitVec 2) (h : y ∈ s.out) : y ∈ (runVaccw tv tile rblk cblk s l c ins).s.out :=
  said_ite_began h (said_vecDone c _ _ _ h)

theorem said_runSarm (line : BitVec 10) (eng : Fin 4) (h : y ∈ s.out) : y ∈ (runSarm line eng s l c ins).s.out := by
  unfold runSarm
  refine said_ite_began h (said_ite_began (State.said_log _ h) ?_)
  split
  · exact h
  · exact said_ite_began h (said_ite_began h (said_ite_began h (State.said_setCore _ _ h)))

theorem State.said_sexpPage (ctx : BitVec 8) (u : KvUse) (d : ExportDesc) (va : Nat) (h : y ∈ s.out) : y ∈ (s.sexpPage c ctx u d va).out := by
  unfold State.sexpPage
  split
  · exact said_ite (State.said_handOff _ _ _ _ _ h) h
  · exact h

theorem said_runSexp (line : BitVec 10) (h : y ∈ s.out) : y ∈ (runSexp line s l c ins).s.out := by
  unfold runSexp
  refine said_ite_began h ?_
  split
  · exact h
  · split
    · exact h
    · exact said_ite_began h (said_foldl (fun _ _ => State.said_sexpPage c _ _ _ _) _ h)

theorem said_runTsig (x : Fin 16) (n : BitVec 16) (h : y ∈ s.out) : y ∈ (runTsig x n s l c ins).s.out :=
  said_ite_began h (State.said_signal c _ _ _ h)

theorem said_runBeatmark (m : Word) (h : y ∈ s.out) : y ∈ (runBeatmark m s l c ins).s.out := said_ite_began h (State.said_modCore _ _ h)

theorem said_runColl (line : BitVec 10) (h : y ∈ s.out) : y ∈ (runColl line s l c ins).s.out := by
  dsimp only [runColl]
  split
  · exact h
  · refine said_ite_began h ?_
    split
    · exact h
    · refine said_ite_began h ?_
      split
      · exact h
      · exact said_ite_began h (State.said_joinCount _ _ _ (State.said_setRecord _ _ _ (State.said_setCore _ _ h)))

theorem said_runOp (p : Resume) (h : y ∈ s.out) : y ∈ (runOp p s l c ins).s.out := by
  unfold runOp
  cases ins.op with
  | mma _ line prob m n k => exact said_runMma line prob m n k p c ins h
  | attn _ line prob m n k => exact said_runAttn line prob m n k p c ins h
  | epi line off a b => exact said_runEpi line p c ins off a b h
  | accinit mask i32 => exact h
  | vprog td ta tb tp line => exact said_runVprog c ins td ta tb tp line h
  | vred td ta rop axis => exact said_runVred c ins td ta rop axis h
  | vld tv fmt uns off => exact said_runVld c ins tv fmt uns off h
  | vst tv fmt uns off => exact said_runVst c ins tv fmt uns off h
  | vcvt ta cvt off => exact said_runVcvt c ins ta cvt off h
  | vaccr tv tile rblk cblk => exact said_vecDone c _ _ _ h
  | vaccw tv tile rblk cblk => exact said_runVaccw c ins tv tile rblk cblk h
  | vmov td ta => exact said_vecDone c _ _ _ h
  | vfill td w => exact said_vecDone c _ _ _ h
  | sarm line eng => exact said_runSarm c ins line eng h
  | sexp line => exact said_runSexp c ins line h
  | tsig x n => exact said_runTsig c ins x n h
  | twait x n => exact h
  | waitbeat m => exact h
  | beatmark m => exact said_runBeatmark c ins m h
  | coll line => exact said_runColl c ins line h
  | lbar => exact h

theorem State.said_orFlags (f : Flags) (h : y ∈ s.out) : y ∈ (s.orFlags c f).out := said_ite h (State.said_modCore _ _ h)

theorem said_finishBegin (u : CUnit) {b : Began} (h : y ∈ b.s.out) : y ∈ (finishBegin l c u ins b).1.out := by
  unfold finishBegin
  split
  · exact State.said_stop _ (State.said_applyMarks _ (State.said_orFlags c _ h))
  · split
    · extract_lets v
      have hv : y ∈ v.out := State.said_modCore _ _ h
      split
      · exact said_ite_fst hv (State.said_haltOn _ _ _ _ hv)
      · exact hv
    · extract_lets v
      have hv : y ∈ v.out := State.said_orFlags c _ h
      exact said_ite_fst hv (State.said_signalOpt c _ _ hv)

end

/-! ### Streams (08 R240-R248) -/

section
variable (c : Nat)

theorem StreamDesc.said_move (d : StreamDesc) (tag : Word) (ctx : BitVec 8) (mark : BitVec 17) (p : Nat) (h : y ∈ s.out) :
    y ∈ (d.move s c tag ctx mark p).1.out := by
  dsimp only [StreamDesc.move]
  split
  · exact h
  · split
    · exact State.said_modCore _ _ h
    · exact State.said_vwrite _ _ _ _ h
    · exact h
    · exact State.said_emit _ h
    · exact State.said_emit _ h

theorem StreamDesc.said_moveAll (d : StreamDesc) (tag : Word) (ctx : BitVec 8) (mark : BitVec 17) (n p : Nat) (h : y ∈ s.out) :
    y ∈ (d.moveAll c tag ctx mark n s p).1.out := by
  induction n generalizing s p with
  | zero => exact h
  | succ n ih =>
    dsimp only [StreamDesc.moveAll]
    split
    · exact h
    · split
      · exact StreamDesc.said_move c d _ _ _ _ h
      · exact ih _ (StreamDesc.said_move c d _ _ _ _ h)

theorem State.said_runStream (eng : Fin 4) (st : Stream) (d : StreamDesc) (p : Nat) (h : y ∈ s.out) : y ∈ (s.runStream l c eng st d p).out := by
  unfold State.runStream
  extract_lets ln s1 mark r s2
  have h2 : y ∈ s2.out := State.said_modCore _ _ (StreamDesc.said_moveAll c d _ _ _ _ _ (State.said_modCore _ _ h))
  split
  · exact h2
  · exact said_ite h2 (State.said_haltOn _ _ _ _ (State.said_modCore _ _ h2))

theorem State.said_resumeStream (eng : Fin 4) (h : y ∈ s.out) : y ∈ (s.resumeStream c eng).out := by
  unfold State.resumeStream
  split
  · split
    · exact State.said_runStream c _ _ _ _ h
    · exact said_ite (State.said_runStream c _ _ _ _ h) h
    · exact h
  · exact h

end

/-! ### A launch that goes on (11 R332-R334) -/

section
variable {x : CSt}

theorem CSt.said_arrive (ctx : BitVec 8) (p : Sched) (g : Geo) (a : Axis) (result : Bool) (ch : Nat) (bs : List Byte) (h : y ∈ x.s.out) :
    y ∈ (CSt.arrive ctx p g x a result ch bs).s.out := by
  unfold CSt.arrive
  extract_lets zc z w
  have hz : y ∈ z.s.out := h
  split
  · have hw : y ∈ w.s.out := CSt.said_write _ _ _ _ hz
    split
    · exact hw
    · exact CSt.said_foldl (fun _ _ => CSt.said_send _ _ _ _ _ _ _) _ hw
  · split
    · split
      · split
        · exact CSt.said_result _ _ _ hz
        · exact CSt.said_reduceGo _ _ _ _ _ _ _ _ hz
      · exact CSt.said_send _ _ _ _ _ _ _ hz
    · split
      · split
        · exact hz
        · exact CSt.said_reduceGo _ _ _ _ _ _ _ _ hz
      · split
        · exact CSt.said_reduceGo _ _ _ _ _ _ _ _ hz
        · exact hz

end

theorem State.said_resumeFlight (c : Nat) (f : Flight) (h : y ∈ s.out) : y ∈ (s.resumeFlight l c f).1.out :=
  said_finishBegin c _ _ (said_runOp c _ _ (State.said_modCore _ _ h))

theorem State.said_resumeColl (c : Coll) (h : y ∈ s.out) : y ∈ (s.resumeColl l c).1.out := by
  unfold State.resumeColl
  split
  · exact State.said_failColl _ _ _ h
  · refine said_ite_fst h ?_
    extract_lets stalled d v
    have hv : y ∈ v.out := State.said_setRecord _ _ _ (State.said_putColl _ h)
    split
    · exact State.said_collWork _ (CSt.said_arrive _ _ _ _ _ _ _ hv)
    · exact hv

theorem State.said_resumeColls (h : y ∈ s.out) : y ∈ (s.resumeColls l).1.out := by
  unfold State.resumeColls
  extract_lets r q
  refine State.said_decideAll _ (said_foldl_fst (fun v c hv => ?_) _ h)
  split
  · exact hv
  · exact State.said_resumeColl c hv

theorem State.said_resumeUnits (qid : BitVec 12) (h : y ∈ s.out) : y ∈ (s.resumeUnits qid).1.out := by
  unfold State.resumeUnits
  extract_lets cores go r1 r2
  have hgo (r : State × Bool) (f : State → Launch → State × Bool) (hf : ∀ v m, y ∈ v.out → y ∈ (f v m).1.out) (hr : y ∈ r.1.out) :
      y ∈ (go r f).1.out := by
    simp only [go]
    split
    · split
      · exact hf _ _ hr
      · exact hr
    · exact hr
  clear_value cores go
  have h1 : y ∈ r1.1.out :=
    said_foldl_fst (fun v c hv => said_foldl_fst (fun w f hw => hgo w _ (fun _ _ hx => State.said_resumeFlight c f hx) hw) _ hv) _ h
  have h2 : y ∈ r2.1.out :=
    said_foldl_fst (fun v c hv => said_foldl_fst (fun w e hw => hgo w _ (fun _ _ hx => State.said_resumeStream c e hx) hw) _ hv) _ h1
  exact hgo r2 _ (fun _ _ hx => State.said_resumeColls hx) h2

theorem State.said_goOn (qid : BitVec 12) (h : y ∈ s.out) : y ∈ (s.goOn qid).1.out := by
  unfold State.goOn
  extract_lets s1 s2
  exact State.said_resumeUnits (s := s2) qid h

theorem State.said_endUse (h : y ∈ s.out) : y ∈ (s.endUse l).out := h

theorem State.said_resumeLaunch (q : BitVec 12) (epoch : Option (BitVec 16)) (h : y ∈ s.out) : y ∈ (s.resumeLaunch q epoch).1.out := by
  unfold State.resumeLaunch
  split
  · exact h
  · extract_lets s1 s2 s3 n
    have h2 : y ∈ s2.out := State.said_modLaunch _ _ (said_ite (State.said_endUse h) h)
    have h3 : y ∈ s3.out := said_ite (State.said_bumpEpoch _ h2) h2
    clear_value s3
    refine said_ite_fst h3 (said_ite_fst h3 (said_ite_fst ?_ (State.said_goOn _ h3)))
    split
    · exact State.said_joinBarrier (State.said_modQueue _ _ h3)
    · exact h3

/-! ### The commands of a SUBMIT (13 R380-R388) -/

theorem State.said_queueCtl (q : Queue) (b : List Word) (h : y ∈ s.out) : y ∈ (s.queueCtl q b).1.out := by
  dsimp only [State.queueCtl]
  refine said_ite_fst h (said_ite_fst h ?_)
  split
  · exact State.said_ctlSet _ _ _ _ h
  · split
    · exact h
    · exact State.said_resumeLaunch _ _ h
  · split
    · exact h
    · exact State.said_stop _ h
  · exact said_ite_fst h (said_ite_fst h (State.said_modQueue _ _ h))

theorem State.said_submit (qid : BitVec 12) (w : Word) (b : List Word) (sig : SigVerdict) (h : y ∈ s.out) : y ∈ (s.submit qid w b sig).1.out := by
  unfold State.submit
  refine said_ite_fst h ?_
  split
  · exact State.said_loadProgram _ _ _ _ h
  · split <;> exact h
  · exact h
  · split
    · exact h
    · next hpfx => exact State.said_prefixLookup hpfx h
  · exact State.said_exportOpen _ _ h
  · have hclose := State.said_exportClose qid (wAt b 0) h
    split
    · next heq => rw [heq] at hclose; exact hclose
    · next heq => rw [heq] at hclose; exact hclose
  · refine said_ite_fst h ?_
    extract_lets r
    have hr : y ∈ r.1.out := by
      simp only [r]
      split
      · exact State.said_requestTest _ _ _ h
      · exact State.said_requestTest _ _ _ h
      · exact State.said_requestPorts _ _ h
      · exact h
    clear_value r
    split <;> exact hr
  · exact State.said_digest _ _ _ h
  · exact State.said_queueCtl _ _ h
  · exact h

/-! ### Memory messages (13 R386) -/

theorem State.said_hostWrite (pa : Nat) (bs : List Byte) (h : y ∈ s.out) : y ∈ (s.hostWrite pa bs).1.out := by
  refine said_foldl_fst (fun _ _ hv => ?_) _ h
  exact State.said_pwrite _ _ hv

theorem State.said_hostWriteAll (ps : List (Nat × Nat)) (bs : List Byte) (h : y ∈ s.out) : y ∈ (s.hostWriteAll ps bs).1.out := by
  induction ps generalizing s bs with
  | nil => exact h
  | cons p ps ih => exact ih _ (State.said_hostWrite _ _ h)

theorem said_wroteMem {r : State × Bool} (h : y ∈ r.1.out) : y ∈ (wroteMem r).1.out := h

theorem State.said_writeMem (q : Queue) (b : List Word) (bs : List Byte) (h : y ∈ s.out) : y ∈ (s.writeMem q b bs).1.out := by
  unfold State.writeMem
  refine said_ite_fst h (said_ite_fst h (said_ite_fst h (said_ite_fst (said_ite_fst h (said_wroteMem (State.said_hostWrite _ _ h))) ?_)))
  split
  · exact h
  · exact said_wroteMem (State.said_hostWriteAll _ _ h)

theorem State.said_modHbm (f : Hbm → Hbm) (h : y ∈ s.out) : y ∈ (s.modHbm f).out := h

theorem State.said_readPieces (ps : List (Nat × Nat)) (h : y ∈ s.out) : y ∈ (s.readPieces ps).1.out := by
  dsimp only [State.readPieces]
  split
  · exact State.said_modHbm _ h
  · exact h
  · exact h

theorem State.said_readMem (q : Queue) (b : List Word) (h : y ∈ s.out) : y ∈ (s.readMem q b).1.out := by
  unfold State.readMem
  refine said_ite_fst h (said_ite_fst h (said_ite_fst h (said_ite_fst (said_ite_fst h (State.said_readPieces _ h)) ?_)))
  split
  · exact h
  · exact State.said_readPieces _ h

end Sys2Proof.Machine
end

section
/-!
PROOFS that register messages, and all that a command lets go on, take no output back (13 R386, R392, 19 R530).
-/

namespace Sys2Proof.Machine

variable {s t : State} {y : Out} {l : Launch}

/-! ### Registers (19 R527, R530) -/

section
variable (p : Path)

theorem State.said_modPath (f : PathRegs → PathRegs) (h : y ∈ s.out) : y ∈ (s.modPath p f).out := by
  cases p <;> exact h

theorem State.said_readReg (r : Reg) (h : y ∈ s.out) : y ∈ (s.readReg p r).1.out := by
  unfold State.readReg
  extract_lets v
  split
  · exact State.said_modPath p _ h
  · exact State.said_modPath p _ h
  · exact State.said_modPath p _ h
  · exact h

theorem State.said_readAt (n : Nat) (h : y ∈ s.out) : y ∈ (s.readAt p n).1.out := by
  unfold State.readAt
  split
  · exact h
  · split
    · exact h
    · exact State.said_readReg p _ h

theorem said_readRun (n a : Nat) (h : y ∈ s.out) : y ∈ (readRun p n a s).1.out := by
  induction n generalizing s a with
  | zero => exact h
  | succ n ih => exact ih _ (State.said_readAt p a h)

theorem State.said_beginTraining (h : y ∈ s.out) : y ∈ s.beginTraining.out := by
  rw [State.beginTraining_only]
  exact h

theorem State.said_wFabCtl (v : Word) (h : y ∈ s.out) : y ∈ (s.wFabCtl v).out :=
  said_ite (s := { s with fab := _ }) h (said_ite (s := { s with fab := _ }) h (State.said_beginTraining (s := { s with fab := _ }) h))

theorem State.said_wEpData (n : Nat) (v : Word) (h : y ∈ s.out) : y ∈ (s.wEpData p n v).out := by
  unfold State.wEpData
  exact said_ite (State.said_modPath p _ h) (said_ite h (said_ite (State.said_modPath p _ h) (State.said_modPath p _ h)))

theorem State.said_ctxErr (e : Bool) (h : y ∈ s.out) : y ∈ (s.ctxErr p e).out := State.said_modPath p _ h

theorem State.said_setCtx (c : BitVec 8) (x : Ctx) (h : y ∈ s.out) : y ∈ (s.setCtx c x).out := h

theorem State.said_wCtxRoot (v : Word) (h : y ∈ s.out) : y ∈ (s.wCtxRoot p v).out :=
  said_ite (State.said_ctxErr p _ h) (State.said_ctxErr p _ (State.said_setCtx _ _ h))

theorem State.said_wRegion (ok : Bool) (f : Region → Region) (h : y ∈ s.out) : y ∈ (s.wRegion p ok f).out :=
  said_ite (State.said_ctxErr p _ h) (State.said_ctxErr p _ (State.said_setCtx _ _ h))

theorem State.said_wPoolSel (v : Word) (h : y ∈ s.out) : y ∈ (s.wPoolSel p v).out := said_ite (State.said_modPath p _ h) (State.said_modPath p _ h)

theorem State.said_poolErr (e : Bool) (h : y ∈ s.out) : y ∈ (s.poolErr p e).out := State.said_modPath p _ h

theorem State.said_wPoolCfg (v : Word) (h : y ∈ s.out) : y ∈ (s.wPoolCfg p v).out := by
  have hset (q : Nat) (f : Pool → Pool) (e : Bool) : y ∈ ((s.modPool q f).poolErr p e).out := State.said_poolErr p _ (State.said_modPool _ _ h)
  unfold State.wPoolCfg
  exact said_ite (said_ite (State.said_poolErr p _ h) (hset _ _ _)) (said_ite (hset _ _ _) (said_ite (State.said_poolErr p _ h) (hset _ _ _)))

theorem State.said_wPool (f : Pool → Pool) (h : y ∈ s.out) : y ∈ (s.wPool p f).out :=
  said_ite (State.said_poolErr p _ h) (State.said_poolErr p _ (State.said_modPool _ _ h))

end

section
variable (v : Word)

theorem State.said_wInv (h : y ∈ s.out) : y ∈ (s.wInv v).out := by
  unfold State.wInv
  split <;> exact h

theorem State.said_wPfxBase (h : y ∈ s.out) : y ∈ (s.wPfxBase v).out := by
  unfold State.wPfxBase
  split <;> exact h

theorem State.said_wPfxCfg (h : y ∈ s.out) : y ∈ (s.wPfxCfg v).out := by
  dsimp only [State.wPfxCfg]
  split
  · exact h
  · split <;> exact h

theorem State.said_walkerLost (pa : Nat) (h : y ∈ s.out) : y ∈ (s.walkerLost pa).out := State.said_countReplay (State.said_log _ h)

theorem State.said_unmapPage (q x : Nat) (h : y ∈ s.out) : y ∈ (s.unmapPage q x).out :=
  said_ite (State.said_setKhdr _ _ _ h)
    (said_ite (said_ite (State.said_reclAdd _ _ _ (State.said_setKhdr _ _ _ h)) (State.said_setKhdr _ _ _ h))
      (said_ite (State.said_freePage _ _ h) (State.said_setKhdr _ _ _ h)))

theorem State.said_setPte (a x : Nat) (h : y ∈ s.out) : y ∈ (s.setPte a x).out := h

theorem State.said_kvVisit (ctx : BitVec 8) (r : Region) (drop : Bool) (e : Nat × Nat) (h : y ∈ s.out) : y ∈ (s.kvVisit ctx r drop e).out := by
  dsimp only [State.kvVisit]
  split
  · exact h
  · refine said_ite (State.said_walkerLost _ h) (said_ite (said_ite h (State.said_setPte _ _ h)) (said_ite ?_ h))
    split
    · exact State.said_unmapPage _ _ (State.said_setPte _ _ h)
    · exact State.said_setPte _ _ h

theorem State.said_wKvOp (h : y ∈ s.out) : y ∈ (s.wKvOp v).out := by
  unfold State.wKvOp
  extract_lets op ctx x s1 va layers pages no
  refine said_ite h ?_
  have h1 : y ∈ s1.out := h
  refine said_ite (s := { s1 with xlt := _ }) h1 ?_
  split
  · exact h1
  · exact State.said_invalidate false ctx (said_foldl (fun _ _ => State.said_kvVisit _ _ _ _) _ h1)

theorem State.said_wCredit (h : y ∈ s.out) : y ∈ (s.wCredit v).out := by
  dsimp only [State.wCredit]
  split <;> exact h

theorem State.said_modErr (f : Err → Err) (h : y ∈ s.out) : y ∈ (s.modErr f).out := h

theorem State.said_wErrCtl (h : y ∈ s.out) : y ∈ (s.wErrCtl v).out :=
  said_ite (State.said_modErr _ h) (State.said_retire (State.said_modErr _ h))

theorem State.said_wRingRetire (h : y ∈ s.out) : y ∈ (s.wRingRetire v).out := said_ite h (State.said_modErr _ h)

theorem State.said_wDrain (h : y ∈ s.out) : y ∈ (s.wDrain v).out := said_ite (State.said_modErr _ (State.said_drain _ _ h)) h

theorem State.said_modPwr (f : Pwr → Pwr) (h : y ∈ s.out) : y ∈ (s.modPwr f).out := h

theorem State.said_wCap (h : y ∈ s.out) : y ∈ (s.wCap v).out := said_ite (State.said_modPwr _ h) (State.said_modPwr _ h)

theorem State.said_wGroupBudget (h : y ∈ s.out) : y ∈ (s.wGroupBudget v).out := said_ite (State.said_modPwr _ h) (State.said_modPwr _ h)

theorem State.said_wSlew (h : y ∈ s.out) : y ∈ (s.wSlew v).out := said_ite (State.said_modPwr _ h) h

theorem State.said_modSec (f : Sec → Sec) (h : y ∈ s.out) : y ∈ (s.modSec f).out := h

theorem State.said_configured (h : y ∈ s.out) : y ∈ s.configured.out := said_ite h (State.said_beginTraining (State.said_modSec _ h))

theorem State.said_backAlive (h : y ∈ s.out) : y ∈ s.backAlive.out :=
  said_ite (State.said_mapChanged (State.said_symOn (s := { s with fab := _ }) _ _ h)) h

theorem State.said_clearDrain (h : y ∈ s.out) : y ∈ s.clearDrain.out := by
  unfold State.clearDrain
  extract_lets s1 s2 s3
  have h3 : y ∈ s3.out := said_foldl (fun _ _ hv => said_ite (State.said_modQueue _ _ hv) hv) _ h
  exact said_ite h (said_ite (State.said_backAlive (State.said_emit _ h3)) h)

theorem State.said_wSpdmCtl (h : y ∈ s.out) : y ∈ (s.wSpdmCtl v).out := said_ite (State.said_modSec _ h) (State.said_modSec _ h)

theorem State.said_wSpdmReq (n : Nat) (h : y ∈ s.out) : y ∈ (s.wSpdmReq n v).out := said_ite (State.said_modSec _ h) (State.said_modSec _ h)

theorem State.said_modTst (f : Tst → Tst) (h : y ∈ s.out) : y ∈ (s.modTst f).out := h

theorem State.said_wTstCtl (h : y ∈ s.out) : y ∈ (s.wTstCtl v).out := said_ite (State.said_modTst _ h) (State.said_modTst _ h)

theorem State.said_wTstSwap (h : y ∈ s.out) : y ∈ (s.wTstSwap v).out := said_ite (State.said_modTst _ h) (State.said_modTst _ h)

theorem State.said_qceEvq (p : Path) (h : y ∈ s.out) : y ∈ (s.writeReg p .qceEvq v).out :=
  said_ite (s := s.modQce _) h (State.said_retire (s := (s.modQce _).modErr _) h)

end

theorem State.said_writeReg (p : Path) (r : Reg) (v : Word) (h : y ∈ s.out) : y ∈ (s.writeReg p r v).out := by
  cases r with
  | fabCtl => exact State.said_wFabCtl v h
  | qceEvq => exact State.said_qceEvq v p h
  | qceEpSel => exact State.said_modPath p _ h
  | qceEpData n => exact State.said_wEpData p _ v h
  | xltCtxSel => exact State.said_modPath p _ h
  | xltCtxRoot => exact State.said_wCtxRoot p v h
  | xltCtxKvsel => exact State.said_modPath p _ h
  | xltCtxKvbase => exact State.said_wRegion p _ _ h
  | xltCtxKvlen => exact State.said_wRegion p _ _ h
  | xltInv => exact State.said_wInv v h
  | xltCtxKvlsh => exact State.said_wRegion p _ _ h
  | xltKvpSel => exact State.said_wPoolSel p v h
  | xltKvpCfg => exact State.said_wPoolCfg p v h
  | xltKvpFrames => exact State.said_wPool p _ h
  | xltKvpHdr => exact State.said_wPool p _ h
  | xltKvpStack => exact State.said_wPool p _ h
  | xltKvpRecl => exact State.said_wPool p _ h
  | xltKvpCount => exact State.said_wPool p _ h
  | xltPfxBase => exact State.said_wPfxBase v h
  | xltPfxCfg => exact State.said_wPfxCfg v h
  | xltKvopCmd => exact State.said_wKvOp v h
  | stmCredit => exact State.said_wCredit v h
  | errCtl => exact State.said_wErrCtl v h
  | errRingRetire => exact State.said_wRingRetire v h
  | errDrain => exact State.said_wDrain v h
  | pwrCap => exact State.said_wCap v h
  | pwrGroupBudget => exact State.said_wGroupBudget v h
  | pwrSlew => exact State.said_wSlew v h
  | secBootCtl => exact said_ite (State.said_configured h) h
  | secSvcCtl => exact said_ite (State.said_clearDrain h) h
  | secSpdmCtl => exact State.said_wSpdmCtl v h
  | secSpdmReq n => exact State.said_wSpdmReq v _ h
  | tstCtl => exact State.said_wTstCtl v h
  | tstSwap => exact State.said_wTstSwap v h
  | _ => exact h

theorem State.said_writeAt (p : Path) (n : Nat) (v : Word) (h : y ∈ s.out) : y ∈ (s.writeAt p n v).1.out := by
  unfold State.writeAt
  split
  · exact h
  · split
    · exact State.said_writeReg p _ v h
    · exact h
    · exact h

/-! ### Messages (13 R386, R392) -/

theorem State.said_regReadMsg (q : Queue) (b : List Word) (h : y ∈ s.out) : y ∈ (s.regReadMsg q b).1.out :=
  said_ite_fst h (said_ite_fst h (said_readRun _ _ _ h))

theorem State.said_regWriteMsg (q : Queue) (b : List Word) (h : y ∈ s.out) : y ∈ (s.regWriteMsg q b).1.out :=
  said_ite_fst h (said_ite_fst h (State.said_writeAt _ _ _ h))

theorem State.said_carryMsg (qid : BitVec 12) (m : RxMsg) (h : y ∈ s.out) : y ∈ (s.carryMsg qid m).1.out := by
  unfold State.carryMsg
  refine said_ite_fst h (said_ite_fst h (said_ite_fst h (said_ite_fst h ?_)))
  split
  · exact State.said_submit _ _ _ _ h
  · exact said_ite_fst h (State.said_digest _ _ _ h)
  · exact State.said_writeMem _ _ _ h
  · exact State.said_readMem _ _ h
  · exact State.said_regReadMsg _ _ h
  · exact State.said_regWriteMsg _ _ h
  · exact h

theorem State.said_carry (qid : BitVec 12) (h : y ∈ s.out) : y ∈ (s.carry qid).out := by
  unfold State.carry
  split
  · exact h
  · next m rest _ =>
    extract_lets r
    have hr : y ∈ r.1.out := State.said_carryMsg _ _ (State.said_modQueue _ _ h)
    split
    · exact said_ite (State.said_modQueue _ _ h) (State.said_complete _ _ _ hr)
    · exact State.said_modQueue _ _ hr

theorem said_carryAll (n : Nat) (h : y ∈ s.out) : y ∈ (carryAll n s).out := by
  induction n generalizing s with
  | zero => exact h
  | succ n ih =>
    unfold carryAll
    split
    · exact ih (State.said_carry _ h)
    · exact h

/-! ### What a command lets go on -/

theorem said_settleGo (n : Nat) (h : y ∈ s.out) : y ∈ (settleGo n s).out := by
  induction n generalizing s with
  | zero => exact h
  | succ n ih =>
    have hon : y ∈ (carryAll n s).goesOnOnce.out := State.said_goesOnOnce (said_carryAll n h)
    exact said_ite (ih hon) hon

theorem State.said_settle (h : y ∈ s.out) : y ∈ s.settle.out := said_settleGo _ h

theorem State.said_ownedDrain (v : State) (h : y ∈ s.out) : y ∈ (v.ownedDrain s).out := by
  unfold State.ownedDrain
  split
  · exact h
  · exact h
  · exact State.said_logDrain _ _ (State.said_countReplay (State.said_log (s := { s with hbm := _ }) _ h))

theorem State.said_sendGather (g : Option Gather) (h : y ∈ s.out) : y ∈ (s.sendGather g).out := by
  unfold State.sendGather
  split
  · exact h
  · split
    · exact State.said_sendFlit _ _ _ _ _ _ _ h
    · exact h

theorem said_flitsOf (os : List Out) (g : Option Gather) (h : y ∈ s.out) : y ∈ (State.flitsOf os g s).out := by
  induction os generalizing g s with
  | nil => exact State.said_sendGather g h
  | cons o os ih =>
    cases o with
    | remote tag slot dev core mem addr bs last sg p =>
      unfold State.flitsOf
      split
      · split
        · exact ih _ h
        · exact ih _ (State.said_sendGather _ h)
      · exact ih _ h
    | _ => exact ih g h

/-- What has left before a command's effect settles stands in its answer. -/
theorem State.said_after (v : State) (h : y ∈ s.out) : y ∈ (v.after s).out := said_flitsOf _ _ (State.said_ownedDrain v (State.said_settle h))

end Sys2Proof.Machine
end

section
/-!
PROOF that a live-link map can name a drained device that does not count itself among the live ones (11 R323, 14 R427).
-/

namespace Sys2Proof.Machine

/-- Device 0 of a ring of three along x, with ports 0 and 1 in service, which is drained and has left the live devices. -/
def drainedInRing : State :=
  { devidValid := true, err := { drained := true }
    fab := { coord := 0x20000000, trained := some 0x20000000, liveIds := [1, 2], drainedIds := [0]
             ports := [(0, { state := .up, nbr := 1 }), (1, { state := .up, nbr := 2 })] } }

/-- A map of device 1 that still names device 0 is nothing new to it. -/
theorem drainedInRing_linkSym : drainedInRing.linkSym 0 (.live [0, 1, 2] [] []) = drainedInRing := rfl

theorem drainedInRing_link : exec (.link 0 (.live [0, 1, 2] [] [])) drainedInRing = .next drainedInRing :=
  (congrArg (finishAll drainedInRing) drainedInRing_linkSym).trans (finishAll_quiet _ _ [] (by decide) rfl rfl nofun)

/-- Refutes O41: a drained device that gets its own id in a neighbour's map does not count itself live again, and so does not pass that id on. -/
theorem not_trainingAndMaps : ¬ Obligations.TrainingAndMaps := by
  rintro ⟨-, hmaps, -⟩
  obtain ⟨-, hport⟩ := hmaps drainedInRing 0 [0, 1, 2] [] [] ⟨0, 0⟩ 0
  obtain ⟨-, -, -, -, hlive⟩ := hport (by decide)
  obtain ⟨u, hexec, -, -, -, hsaid⟩ := hlive fun _ hk => nomatch hk
  have hsym := State.said_after drainedInRing (hsaid (.inl (by decide)) 1 (by decide) (by decide))
  rw [← Host.Outcome.next.inj (drainedInRing_link.symm.trans hexec)] at hsym
  exact nomatch hsym

end Sys2Proof.Machine
end
